-- ==== Sys2Proof/Word.lean ====
section
/-! DEFINITION. The words of the machine: the widths the manual names (R12, R14, R35). -/
namespace Sys2Proof

/-- One byte of memory, of a frame or of a record. -/
abbrev Byte := BitVec 8

/-- One FP32 or integer lane of the vector engine. -/
abbrev Lane := BitVec 32

/-- A 64-bit control register or descriptor word (R14). -/
abbrev Word := BitVec 64

/-- A token of a queue: 256 B, the size of one vector register (R35). Byte 0 is bits 7..0. -/
abbrev Token := BitVec 2048

end Sys2Proof
end

