-- ==== Sys2Proof/Syntax.lean ====
section
/-!
DEFINITION. The commands of the block: one constructor of `Instr` for each row of spec/opcode_table.json, with the
operands the row's rules give it. A command is a register access, a frame or a pin event from outside, or an event of
the module's own units (a retire check, a boundary, an arrival), which the sender names by where and with what it happens.
-/
namespace Sys2Proof

/-- The fields of a cell instruction beside its opcode (R129): DST, SA, SB, SC, MSK, MMODE, FMT and IMM. -/
structure CellWord where
  dst   : BitVec 6
  sa    : BitVec 6
  sb    : BitVec 6
  sc    : BitVec 6
  msk   : BitVec 4
  mmode : Bool
  fmt   : BitVec 4
  imm   : BitVec 23
  deriving DecidableEq, Repr


/-- Bytes or other numbers of an operand, in order. -/
abbrev Nats := List Nat

/-- What a GT frame carries beside its transport fields (R381): opcode, STEP, ARG0, ARG1, the generation in GEN and the
payload. Traffic between units of one module carries the same. -/
structure GtBody where
  op      : Nat
  step    : Nat := 0
  arg0    : Nat := 0
  arg1    : Nat := 0
  gen     : Nat := 0
  payload : List Nat := []
  deriving DecidableEq, Repr

/-- A GT frame as received (R381): the port it came by, the endpoint its source address names (65,536 and above for a
service entry), its channel, FLAGS, INCARNATION, SEQ, ACK, CREDIT and what it carries; and, for the violation log, the
reserved bits of CHANNEL (6) and then of FLAGS (4). -/
structure GtFrame where
  port   : Nat
  ep     : Nat
  ch     : Nat
  flags  : Nat
  inc    : Nat
  seq    : Nat
  ack    : Nat
  credit : Nat
  body   : GtBody
  rsv    : Nat := 0
  deriving DecidableEq, Repr

/-- How a message between modules or stacks arrives: from a unit of this module over the NoC, as the n-th such message
on its way, or in a GT frame. -/
inductive Via where
  | noc (n : Nat)
  | gt (f : GtFrame)
  deriving DecidableEq, Repr


/-- The commands, one for each row of the spec's table of operations and events, in its order. Each docstring is the
row's rule and what happens. -/
inductive Instr where
  /-- R22. At clk 4,095 of a beat the beat timer samples the combined retire flag of all units and either opens the
  boundary or waits. -/
  | beatRetireCheck
  /-- R25. On each further clk up to 4,095 + S the timer samples the retire flag again, and the boundary opens on the
  clk after the first sample that finds all slices retired. -/
  | stretchSample (n : Nat)
  /-- R22. The beat timer runs the boundary sequence of clk 0 to 4 that opens the next beat. -/
  | beatBoundary
  /-- R14. At the boundary after a block's commit field was written, its RWS shadow values become active, subject to
  that block's acceptance checks. -/
  | commitApply (block : Nat) (unit : Nat)
  /-- R43. A write of BEAT_CTRL.START in STOPPED with an active image and no failed cell schedules the boundary that
  opens beat 0. -/
  | beatStart
  /-- R43. 64 clk after START lands, the boundary that opens beat 0 occurs and the module becomes RUNNING. -/
  | beatZeroBoundary
  /-- R43. A write of BEAT_CTRL.HOLD_REQ in RUNNING requests HOLD with cause REQUEST at the boundary that HOLD_MODE
  selects. -/
  | holdReq (mode : Nat)
  /-- R28. At the chosen boundary the timer freezes after clk 3 and the module enters HOLD with cause REQUEST. -/
  | holdEnter
  /-- R28. A write of BEAT_CTRL.RESUME leaves HOLD and restarts the timer at clk 4 of the held beat, or is refused and
  sets RESUME_REFUSED. -/
  | resume
  /-- R153. Within 64 clk of a cell trap, a cell loss or a plane or fetch error, the system controller enters HOLD
  with cause FAULT. -/
  | faultHold
  /-- R19. A slice retires when its SLEND has issued and all its results are written and its sends have departed. -/
  | sliceRetire (kind : Nat) (index : Nat)
  /-- R35. A queue token reaches its consumer's buffer and becomes visible. -/
  | tokenArrival (q : Nat)
  /-- R38. A credit issued by a consumer's dequeue reaches the producer and becomes usable on the next clk. -/
  | creditArrival (q : Nat)
  /-- R137. A held instruction issues or completes once its sources, credit, token, slot, bank or block become ready. -/
  | seqHoldRelease (cell : Nat) (clk : Nat)
  /-- R77. A waiting Tarn access is granted on a clk in which every bank it needs is free, by the rotating rank of
  R78. -/
  | tarnBankGrant (tarn : Nat) (asks : Nat) (wait : Nat)
  /-- R83. A write of TIER_CTRL.COMMIT schedules the shadow HBM class regions for acceptance at the next boundary. -/
  | tierCommit
  /-- R89. A write of TIER_CTRL.HOT_FLUSH starts write-back of every dirty hot copy, first waiting for Silt lanes in
  HOLD or STOPPED. -/
  | hotFlush
  /-- R89. The last covered dirty copy is written back and HOT_FLUSH_BUSY clears. -/
  | hotFlushDone
  /-- R84. At the boundary after an exhaustion or missed deadline, the micro-batch is marked dropped on every cell and
  its effects are suppressed. -/
  | microbatchDrop (slot : Nat)
  /-- R91. The last byte of a weight-stream slot fill is written and the slot becomes READY. -/
  | weightFillDone (stream : Nat) (slot : Nat)
  /-- R91. At the boundary after the releasing slice retires, a weight-stream slot becomes EMPTY. -/
  | weightSlotRelease (stream : Nat) (slot : Nat)
  /-- R121. An array operation waiting for the tile token takes it when the holder retires. -/
  | arrayTileGrant (cell : Nat) (wait : Nat)
  /-- R120. An array operation completes, writes OUT or keeps the tile, and releases the token with its status. -/
  | arrayOpRetire (cell : Nat) (busy : Nat)
  /-- R125. A write of CELL_CTRL.COMMIT schedules every written CELL_RS_CFG shadow to become active at the next
  boundary. -/
  | cellCommit (cell : Nat)
  /-- R132. Vector addition per lane or element. -/
  | vadd (cell : Nat) (w : CellWord)
  /-- R132. Vector multiplication per lane or element. -/
  | vmul (cell : Nat) (w : CellWord)
  /-- R132. Vector fused multiply-add rounded once. -/
  | vfma (cell : Nat) (w : CellWord)
  /-- R132. Vector minimum under R134. -/
  | vmin (cell : Nat) (w : CellWord)
  /-- R132. Vector maximum under R134. -/
  | vmax (cell : Nat) (w : CellWord)
  /-- R135. Vector comparison writing mask bits. -/
  | vcmp (cell : Nat) (w : CellWord)
  /-- R132. Per-lane select between two sources by a mask. -/
  | vsel (cell : Nat) (w : CellWord)
  /-- R136. Format conversion of one part of a vector register. -/
  | vcvt (cell : Nat) (w : CellWord)
  /-- R138. Lane reduction in the fixed pairwise tree to a scalar. -/
  | vred (cell : Nat) (w : CellWord)
  /-- R132. Bitwise AND of vectors. -/
  | vand (cell : Nat) (w : CellWord)
  /-- R132. Bitwise OR of vectors. -/
  | vor (cell : Nat) (w : CellWord)
  /-- R132. Bitwise XOR of vectors. -/
  | vxor (cell : Nat) (w : CellWord)
  /-- R132. Per-lane left shift. -/
  | vshl (cell : Nat) (w : CellWord)
  /-- R132. Per-lane logical right shift. -/
  | vshr (cell : Nat) (w : CellWord)
  /-- R132. Per-lane arithmetic right shift. -/
  | vsra (cell : Nat) (w : CellWord)
  /-- R132. Lane shift of a vector register with a scalar fill. -/
  | vlsh (cell : Nat) (w : CellWord)
  /-- R132. Broadcast of a scalar's low 32 bits to every lane. -/
  | vbcast (cell : Nat) (w : CellWord)
  /-- R132. Extraction of one lane into a scalar register. -/
  | vext (cell : Nat) (w : CellWord)
  /-- R132. Insertion of a scalar into one lane under the write mask. -/
  | vins (cell : Nat) (w : CellWord)
  /-- R133. Mask AND. -/
  | mand (cell : Nat) (w : CellWord)
  /-- R133. Mask OR. -/
  | mor (cell : Nat) (w : CellWord)
  /-- R133. Mask XOR. -/
  | mxor (cell : Nat) (w : CellWord)
  /-- R133. Mask complement. -/
  | mnot (cell : Nat) (w : CellWord)
  /-- R133. Shift of mask bits with a fill bit. -/
  | mshl (cell : Nat) (w : CellWord)
  /-- R133. Population count of a mask into a scalar. -/
  | mpop (cell : Nat) (w : CellWord)
  /-- R133. Mask takes a scalar register. -/
  | mset (cell : Nat) (w : CellWord)
  /-- R133. Scalar takes a mask register. -/
  | mget (cell : Nat) (w : CellWord)
  /-- R133. Scalar addition modulo 2^64. -/
  | sadd (cell : Nat) (w : CellWord)
  /-- R133. Scalar subtraction modulo 2^64. -/
  | ssub (cell : Nat) (w : CellWord)
  /-- R133. Scalar multiplication keeping the low 64 bits. -/
  | smul (cell : Nat) (w : CellWord)
  /-- R133. Scalar AND. -/
  | sand (cell : Nat) (w : CellWord)
  /-- R133. Scalar OR. -/
  | sor (cell : Nat) (w : CellWord)
  /-- R133. Scalar XOR. -/
  | sxor (cell : Nat) (w : CellWord)
  /-- R133. Scalar left shift. -/
  | sshl (cell : Nat) (w : CellWord)
  /-- R133. Scalar logical right shift. -/
  | sshr (cell : Nat) (w : CellWord)
  /-- R133. Scalar arithmetic right shift. -/
  | ssra (cell : Nat) (w : CellWord)
  /-- R133. Scalar load of a sign-extended immediate. -/
  | sli (cell : Nat) (w : CellWord)
  /-- R133. Scalar shifts left 23 and ORs in the immediate. -/
  | sliu (cell : Nat) (w : CellWord)
  /-- R133. Scalar comparison giving 1 or 0. -/
  | scmp (cell : Nat) (w : CellWord)
  /-- R146. Scalar takes a special value such as BEAT_COUNT, step or slot. -/
  | sget (cell : Nat) (w : CellWord)
  /-- R133. Address register takes a scalar's low 48 bits. -/
  | amov (cell : Nat) (w : CellWord)
  /-- R133. Address register addition modulo 2^48. -/
  | aadd (cell : Nat) (w : CellWord)
  /-- R133. Scalar takes an address register zero-extended. -/
  | atos (cell : Nat) (w : CellWord)
  /-- R492. Vector load of 256 B from the cell Tarn. -/
  | vld (cell : Nat) (w : CellWord)
  /-- R492. Vector store of 256 B to the cell Tarn. -/
  | vst (cell : Nat) (w : CellWord)
  /-- R492. Scalar load of 8 B. -/
  | sld (cell : Nat) (w : CellWord)
  /-- R492. Scalar store of 8 B. -/
  | sst (cell : Nat) (w : CellWord)
  /-- R492. Gather of 4 B per active lane. -/
  | vgath (cell : Nat) (w : CellWord)
  /-- R492. Scatter of 4 B per active lane. -/
  | vscat (cell : Nat) (w : CellWord)
  /-- R142. Sends a vector register as one token on an outbound queue. -/
  | qsend (cell : Nat) (w : CellWord)
  /-- R142. Dequeues one token from an inbound queue and issues a credit. -/
  | qrecv (cell : Nat) (w : CellWord)
  /-- R142. Reads a queue's credits and occupancy into a scalar. -/
  | qprobe (cell : Nat) (w : CellWord)
  /-- R343. A COLLECTIVE receive reaches QRECV_CLK without a token, completes with zeros, owes a discard and drops its
  micro-batch. -/
  | qrecvDeadline (cell : Nat) (clk : Nat)
  /-- R143. Issues the array operation whose descriptor lies at the effective address. -/
  | aop (cell : Nat) (w : CellWord)
  /-- R143. Holds until every earlier array operation retires and returns the last TAG and status. -/
  | await (cell : Nat) (w : CellWord)
  /-- R91. Issues a fill of part of a weight-stream slot. -/
  | wfill (cell : Nat) (w : CellWord)
  /-- R91. Releases a weight-stream slot. -/
  | wrel (cell : Nat) (w : CellWord)
  /-- R143. Takes a 4 KiB stash block for the slice's micro-batch by the stages of R84. -/
  | xsta (cell : Nat) (w : CellWord)
  /-- R143. Returns a stash block's offset, holding until it is resident. -/
  | xget (cell : Nat) (w : CellWord)
  /-- R143. Frees a stash block. -/
  | xfree (cell : Nat) (w : CellWord)
  /-- R144. Instruction that does nothing. -/
  | nop (cell : Nat) (w : CellWord)
  /-- R144. Unconditional relative branch. -/
  | br (cell : Nat) (w : CellWord)
  /-- R144. Branch on a scalar condition. -/
  | brc (cell : Nat) (w : CellWord)
  /-- R144. Branch on a mask condition. -/
  | brm (cell : Nat) (w : CellWord)
  /-- R145. Repeats the following body a counted number of times, up to depth 4. -/
  | loop (cell : Nat) (w : CellWord)
  /-- R144. Ends the slice; the next listed slice begins on the following clk. -/
  | slend (cell : Nat) (w : CellWord)
  /-- R144. Holds until earlier loads, stores, sends and fills complete or depart. -/
  | fence (cell : Nat) (w : CellWord)
  /-- R144. Holds until the clk within the beat reaches the immediate. -/
  | bwait (cell : Nat) (w : CellWord)
  /-- R153. Raises the SOFTWARE trap with a code. -/
  | trap (cell : Nat) (w : CellWord)
  /-- R130. An instruction with an undefined opcode raises the ILLEGAL trap. -/
  | undefinedOpcode (cell : Nat) (opc : Nat) (w : CellWord)
  /-- R147. Inclusive scan macro over the 64 lanes with optional carry. -/
  | scan (cell : Nat) (w : CellWord)
  /-- R147. Segmented scan macro. -/
  | segscan (cell : Nat) (w : CellWord)
  /-- R148. Macro computing 2^x per lane. -/
  | exp2 (cell : Nat) (w : CellWord)
  /-- R149. Macro computing log2 x per lane. -/
  | log2 (cell : Nat) (w : CellWord)
  /-- R149. Macro computing 1/x per lane. -/
  | rcp (cell : Nat) (w : CellWord)
  /-- R149. Macro computing 1/sqrt(x) per lane. -/
  | rsqrt (cell : Nat) (w : CellWord)
  /-- R150. Macro applying fp32c_add lane by lane on register pairs. -/
  | cadd (cell : Nat) (w : CellWord)
  /-- R150. Macro encoding two Microscaling blocks. -/
  | mxenc (cell : Nat) (w : CellWord)
  /-- R141. The PC reaches an instruction line read with an uncorrectable error, raising the FETCH_UE trap. -/
  | fetchUe (cell : Nat)
  /-- R154. A write of CELL_SEQ_CTRL.RESTART in HOLD clears a trap so the sequencer resumes at RESTART_PC. -/
  | cellSeqRestart (cell : Nat) (pc : Nat)
  /-- R172. A write of CLAY_CTRL.LOAD starts a two-pass load of a staged image, or is ignored with LOAD_BUSY. -/
  | clayLoad
  /-- R173. The first pass completes its checks and measurement, failing with an error code or proceeding to
  verification. -/
  | clayPass1Done
  /-- R177. The system controller completes verification of the owner signature and starts the second pass or fails
  the load. -/
  | claySignatureDone
  /-- R176. The second pass ends with clamps applied; the image becomes active in STOPPED or HOLD, or waits READY for
  a flip. -/
  | clayPass2Done
  /-- R191. A write of CLAY_CTRL.CANCEL abandons a load or disarms a flip within the limit of R180. -/
  | clayCancel
  /-- R178. A write of CLAY_CTRL.ARM arms a flip at CLAY_FLIP_BEAT, or sets FLIP_REFUSED or FLIP_LATE. -/
  | clayArm
  /-- R187. A write of CLAY_CTRL.GROUP_COMMIT acts as the commit of every block set in CLAY_COMMIT_GROUP. -/
  | groupCommit
  /-- R180. The quiesce beat before an armed flip begins and every slice covering it is skipped. -/
  | quiesceBegin
  /-- R180. At clk 1 of the flip beat every cell and unit switches to the shadow plane, producers are re-credited and
  presets apply. -/
  | clayFlip
  /-- R207. A COALESCE work-item slice takes in occurrences and builds a sub-batch's key set. -/
  | embCoalesce (die : Nat)
  /-- R210. A FETCH work-item slice sends one lookup request per distinct key of its group and sub-batch. -/
  | embFetch (die : Nat)
  /-- R215. A POOL work-item slice pools fetched rows into one vector per bag and sends them on its queue. -/
  | embPool (die : Nat)
  /-- R217. A GRAD work-item slice reduces pooled gradients into per-key Basin entries. -/
  | embGrad (die : Nat)
  /-- R218. A PUSH work-item slice sends each Basin entry of its group to the row's location. -/
  | embPush (die : Nat)
  /-- R206. A work item with OP 5 to 15, or without its sub-batch, issues an empty slice. -/
  | embEmptyItem (die : Nat)
  /-- R213. At WAIT_CLK of a POOL slice's beat, every request of its group without a reply completes with TIMEOUT. -/
  | lookupTimeout (die : Nat)
  /-- R234. A write of EMB_CTRL.COMMIT schedules the EMB shadows for the next boundary. -/
  | embCommit (die : Nat)
  /-- R221. A write of EMB_CTRL.SKETCH_CLEAR clears sketches, heavy-row lists and directory EST at the next boundary. -/
  | sketchClear (die : Nat)
  /-- R221. At a boundary where BEAT_COUNT is a multiple of DECAY_BEATS, every counter and EST is halved. -/
  | sketchDecay (die : Nat)
  /-- R226. A write of DRIFT_CMD.GO starts a Drift of a key or is refused with a code. -/
  | driftGo (stack : Nat) (rank : Nat) (dest : Nat)
  /-- R227. At the boundary after an accepted GO, the source marks the row LEAVING, writes back its hot copy and sends
  the slot. -/
  | driftLeaving (stack : Nat) (key : Nat)
  /-- R227. At the boundary after COPY_ACK the source stops holding the row, placing a MOVED or TOMBSTONE entry and
  sending SWITCH. -/
  | driftSwitch (stack : Nat) (key : Nat)
  /-- R227. The destination clears PENDING, serves held requests and returns SWITCH_ACK. -/
  | driftInstall (stack : Nat) (key : Nat)
  /-- R227. At clk 1 of beat k + 1 the source clears the tag or Drift-area bit and frees the TOMBSTONE. -/
  | driftFree (stack : Nat) (key : Nat)
  /-- R229. No COPY_ACK within 64 source beats abandons the Drift and sends CANCEL. -/
  | driftCopyTimeout (stack : Nat) (key : Nat)
  /-- R462. At a boundary with BEAT_COUNT a multiple of 1,024, or periodically in HOLD and STOPPED, the Sounding is
  formed and sent. -/
  | sounding
  /-- R423. A cell's control-state parity error or failed health probe declares it lost and marks CLAY_CELL_FAIL. -/
  | cellLost (cell : Nat) (cause : Nat)
  /-- R246. A push of a row gradient arrives at a stack and is discarded, forwarded, carried late or recorded. -/
  | push (m : Via)
  /-- R349. An end marker closing one destination's traffic of a slice arrives, and any shortfall is counted. -/
  | endMark (m : Via)
  /-- R247. A CLOSE work item combines each key's contributions in fixed order and forms the stack norm partial. -/
  | siltClose (stack : Nat)
  /-- R267. An APPLY work item waits for the global norm and dispatches rows of the apply list. -/
  | siltApply (stack : Nat)
  /-- R267. A Silt work item with OP 2 to 15, or a second CLOSE or LAST, issues an empty slice. -/
  | siltEmptyItem (stack : Nat)
  /-- R253. A lane dispatches a row update when a log entry is free and the key is not in flight, checking stamp and
  TORN. -/
  | siltLaneDispatch (stack : Nat) (lane : Nat) (key : Nat) (wait : Nat)
  /-- R258. A lane's header line write completes, the log entry clears and the ROW record passes to Spring. -/
  | siltUpdateDone (stack : Nat) (key : Nat)
  /-- R260. A stack's sweep for HOT_DIRTY rows after a shared-Tarn clear ends and SWEEP_BUSY clears. -/
  | tornSweepDone (stack : Nat)
  /-- R269. A write of SILT_CTRL.COMMIT schedules the merge area and work item shadows under R245. -/
  | siltCommit (stack : Nat)
  /-- R412. A corrected line is written back once in a free slot unless a write to it has been accepted. -/
  | eccWriteback (dpa : Nat)
  /-- R270. An emitter passes a record to Spring, which appends it with the next SEQ or holds it in the coalescing
  buffer. -/
  | springRecord (emitter : Nat) (wait : Nat)
  /-- R279. At clk 3 of the first boundary where step s is complete, Spring appends MARK(s) or SKIP(s). -/
  | springMark
  /-- R289. Spring sends the next whole record in SEQ order to each enabled pair's active member. -/
  | springStream (sink : Nat)
  /-- R286. A cumulative sink acknowledgement arrives and may release ring records. -/
  | sinkAck (f : GtFrame)
  /-- R290. A sink's acknowledgement has not advanced for ACK_TIMEOUT beats with records outstanding, so it is
  declared failed. -/
  | sinkAckTimeout (sink : Nat)
  /-- R290. At the next boundary the STANDBY member becomes active and unacknowledged records are resent. -/
  | sinkFailover (sink : Nat)
  /-- R301. A write of SPRING_CTRL.COMMIT schedules SPRING_CFG and SPRING_DENSE_OWNERS shadows. -/
  | springCommit
  /-- R283. A write of SPRING_CTRL.CLOSE_WINDOW ends the coalescing window at the end of the current step. -/
  | closeWindow
  /-- R301. A write of SPRING_CTRL.SWAP makes the selected sink its pair's active member at the next boundary. -/
  | sinkSwap
  /-- R301. A write of SPRING_CTRL.PAIR_ENABLE enables the selected sink's pair at the next boundary. -/
  | pairEnable
  /-- R288. A write of SPRING_CTRL.PAIR_DISABLE disables the selected sink's pair at the next boundary. -/
  | pairDisable
  /-- R272. A write of SPRING_CTRL.SINKS_RECONNECT reconnects the retained sinks and resends unacknowledged records. -/
  | sinksReconnect
  /-- R301. A write of SPRING_EPOCH in STOPPED sets the epoch, discards retained records and resets SEQ to 0. -/
  | springEpochWrite (epoch : Nat)
  /-- R292. A write of SPRING_SINK_ACK acts as an acknowledgement from the selected RoCEv2 sink. -/
  | springSinkAckWrite (seq : Nat)
  /-- R466. The input stays below 39.0 V for 3,000 clk, INPUT_LOSS is posted and the last-gasp timeline starts. -/
  | inputLoss (mv : Nat)
  /-- R293. At clk 64 after input loss no slice issues and coalescing contents are abandoned. -/
  | lastGaspStop
  /-- R293. At clk 512 after input loss the flush to the flush pair begins with the oldest unsent record. -/
  | lastGaspFlush
  /-- R293. The flush ends on budget, exhaustion or clk 1,440,000; LAST_GASP is sent and the rails go off. -/
  | lastGaspEnd (clk : Nat)
  /-- R401. A RoCEv2 response for a sink queue pair arrives: ACK, RNR NAK, sequence error or a fatal NAK. -/
  | roceResponse (sink : Nat) (kind : Nat) (psn : Nat)
  /-- R401. 65,536 clk without an ACK or an RNR wait expires, and the queue pair retransmits go-back-N. -/
  | roceRetryTimeout (sink : Nat)
  /-- R402. A sink's QP_READY carrying a new PSN and DEST_QPN rearms a queue pair in WAIT_REARM. -/
  | qpReady (f : GtFrame)
  /-- R402. A write of XPORT_CTRL.ROCE_REARM rearms the selected queue pair from START_PSN. -/
  | roceRearm
  /-- R310. An APPEND request writes events with key quantisation, allocating or copying pages as needed. -/
  | kvAppend (q : Nat) (slot : Nat)
  /-- R320. A READ request delivers keys or values of a range of events and channels, then a status token. -/
  | kvRead (q : Nat)
  /-- R314. A SHARE request gives an empty history the first events of another, raising page reference counts. -/
  | kvShare (q : Nat)
  /-- R316. A FREE request clears a history's entries and decrements page reference counts. -/
  | kvFree (q : Nat)
  /-- R318. A PREFETCH request starts moves of a history's KV_H pages into free KV_T frames. -/
  | kvPrefetch (q : Nat)
  /-- R307. A request with an undefined OP, another die's history or no reply queue is answered BAD_REQUEST. -/
  | kvBadRequest (q : Nat)
  /-- R315. At clk 1 of the next boundary a pending copy-on-write entry enters the page table and the old page's count
  falls. -/
  | kvCowInstall (hist : Nat) (layer : Nat)
  /-- R316. At the boundary after its count reaches zero, a page enters QUARANTINE. -/
  | kvPageQuarantine (die : Nat) (page : Nat)
  /-- R316. At clk 1 of beat b + 2 a quarantined page and its frame return to the free pool. -/
  | kvPageReturn (die : Nat) (page : Nat)
  /-- R318. With fewer than 16 free KV_T frames, the unit starts moving the least recently used LIVE page to KV_H. -/
  | kvSpill (die : Nat)
  /-- R318. At the boundary after a page copy completes, the descriptor's FRAME and TIER change. -/
  | kvMoveDone (die : Nat) (page : Nat)
  /-- R326. A write of SEQ_CTRL.COMMIT schedules SEQ_CFG and SEQ_KEXP shadows under R311 and R313. -/
  | seqCommit (die : Nat)
  /-- R334. A CHAIN work item issues the chain hops of its directory entries. -/
  | collChain (die : Nat)
  /-- R338. A ROOT work item sends this module's contribution to its root. -/
  | collRoot (die : Nat)
  /-- R345. A GATHER work item fetches shard working copies from their owners. -/
  | collGather (die : Nat)
  /-- R330. A collective work item with OP 3 to 15, or a NORM item on die E, issues an empty slice. -/
  | collEmptyItem (die : Nat)
  /-- R333. An accumulation token reaching the collective engine is added into the Basin or discarded as BAD. -/
  | accumToken (q : Nat)
  /-- R335. A chain segment arrives and is combined with the member's Basin and forwarded or kept at the owner. -/
  | chainSeg (m : Via)
  /-- R338. A root contribution arrives at a root or is forwarded to the sender's own root. -/
  | rootContrib (m : Via)
  /-- R340. A root result arrives; the first is used, delivering G to Silt and owner cells or words to QOUT. -/
  | rootResult (m : Via)
  /-- R341. At clk 2 of the boundary COLL_DEADLINE beats after issue, a chain or root hop's deadline closes. -/
  | hopDeadline
  /-- R345. A shard fetch request reaches the owner, which serves the version, takes a lease or answers STALE. -/
  | fetchReq (m : Via)
  /-- R345. Fetched working-copy data and its version arrive into the fetch buffer. -/
  | fetchData (m : Via)
  /-- R348. A STALE reply arrives, the requester fetches the current version and applies STALE_MODE. -/
  | fetchStale (m : Via)
  /-- R346. A lease release from a requester frees its leases at the owner. -/
  | leaseRelease (m : Via)
  /-- R347. LEASE_BEATS after a successor became active, remaining leases on a version are revoked and it is released. -/
  | leaseExpiry (key : Nat) (version : Nat)
  /-- R327. A watched endpoint's silence count reaches 6 and a module rank becomes LOST in the view. -/
  | peerLost (ep : Nat)
  /-- R328. At clk 2 of the boundary that opens step J, a REJOINING rank becomes LIVE. -/
  | rejoinLive (rank : Nat)
  /-- R357. A write of COLL_CTRL.COMMIT schedules the COLL shadows. -/
  | collCommit
  /-- R350. A write of COLL_CTRL.PERM_START during resharding starts the permutation walk on every stack. -/
  | permStart
  /-- R351. A write of COLL_CTRL.PERM_ABORT stops every walk. -/
  | permAbort
  /-- R351. A walking stack with room in its window starts the next row's move to its new home. -/
  | permMove (stack : Nat)
  /-- R363. A receive lane loses signal or clock lock. -/
  | laneLoss (port : Nat) (lane : Nat)
  /-- R363. A receive lane is declared FAILED by 64 clk of loss or by its beat's symbol or codeword counts, and a
  narrower map is requested. -/
  | laneFailed (port : Nat) (lane : Nat) (cause : Nat)
  /-- R361. An alignment codeword is received, giving the partner's identity, maps and CONFIRM. -/
  | alignmentCodeword (port : Nat) (block : Nat) (cor : Nat) (unc : Nat) (syms : Nats)
  /-- R364. After 64 codewords on the old map, the transmitter sends the change marker and switches to REQ_MAP. -/
  | changeMarker (port : Nat)
  /-- R364. The receiver detects the change marker and decodes on the new map. -/
  | changeMarkerDetect (port : Nat)
  /-- R364. After 1,024 clean codewords on the new map the receiver sends CONFIRM. -/
  | widthConfirm (port : Nat)
  /-- R364. No marker within 2,048 clk or no CONFIRM within 8,192 clk fails the port. -/
  | widthChangeTimeout (port : Nat)
  /-- R366. A port with no active lane, a failed width change or excess uncorrectable codewords goes DOWN and
  retrains. -/
  | portFail (port : Nat)
  /-- R365. A failed lane completes its lone retrain and the wider map is requested. -/
  | laneRetrainDone (port : Nat) (lane : Nat)
  /-- R362. A port completes its DETECT, TRAIN or ALIGN stage and moves to the next. -/
  | bringupStageDone (port : Nat) (lanes : Nat)
  /-- R362. A bring-up stage exceeds its limit and the port returns to DETECT. -/
  | bringupTimeout (port : Nat)
  /-- R370. A frame arriving on a port is discarded, delivered to the transport, or forwarded by the table or default
  entry. -/
  | frameArrival (port : Nat) (bytes : Nats) (fcs : Bool) (code : Bool) (kept : Bool)
  /-- R378. A write of PORT_CTRL.COMMIT schedules PORT_CFG shadows of the port. -/
  | portCommit (port : Nat)
  /-- R366. A write of PORT_CTRL.RETRAIN fails the port. -/
  | portRetrain (port : Nat)
  /-- R365. A write of PORT_CTRL.LANE_CLEAR lets lanes excluded by flapping retrain again. -/
  | laneClear (port : Nat)
  /-- R375. A write of a PORT_FWD_TABLE register changes its four entries for every lookup from the next clk. -/
  | fwdTableWrite (n : Nat) (value : Nat)
  /-- R397. A KEEPALIVE arrives, resetting the sender's silence count unless it carries HOLD, and announcing any
  rejoin. -/
  | gtKeepalive (f : GtFrame)
  /-- R392. An ACK with SACK bitmap arrives and may trigger fast retransmission. -/
  | gtAck (f : GtFrame)
  /-- R398. A NAK reporting a discarded frame or record arrives. -/
  | gtNak (f : GtFrame)
  /-- R388. A HELLO arrives, resetting connection state on a new incarnation and answered by HELLO_ACK. -/
  | gtHello (f : GtFrame)
  /-- R388. A HELLO_ACK arrives and the connection becomes OPEN. -/
  | gtHelloAck (f : GtFrame)
  /-- R382. A GT frame failing a header, length, opcode, acceptance or payload check is discarded as a protocol
  violation. -/
  | gtUndefinedOpcode (f : GtFrame) (reason : Nat)
  /-- R395. A QTOKEN frame delivers cross-module queue tokens to their consumer queue. -/
  | qtoken (f : GtFrame)
  /-- R395. A QCREDIT frame returns credits to cross-module producers. -/
  | qcredit (f : GtFrame)
  /-- R211. A lookup request is served from a hot copy or the stack's slot, forwarded, deferred or answered with a
  status. -/
  | lookupReq (m : Via)
  /-- R211. A lookup reply arrives, filling the lookup buffer and updating cached redirects, or is discarded late. -/
  | lookupReply (m : Via)
  /-- R227. A Drift slot copy arrives and the destination places it PENDING or answers COPY_NAK. -/
  | driftCopy (m : Via)
  /-- R227. COPY_ACK arrives at the Drift source. -/
  | copyAck (m : Via)
  /-- R229. COPY_NAK arrives and the Drift is abandoned. -/
  | copyNak (m : Via)
  /-- R227. A SWITCH message arrives at the Drift destination between modules. -/
  | switch (m : Via)
  /-- R227. SWITCH_ACK arrives at the Drift source. -/
  | switchAck (m : Via)
  /-- R229. A CANCEL arrives and the destination frees the PENDING entry and slot. -/
  | driftCancel (m : Via)
  /-- R228. A forwarded update or handoff arrives at the destination and is applied under the stamp check. -/
  | driftFwd (m : Via)
  /-- R298. A refill record from a sink is checked and routed to Silt, the Drift Map or a shard bank, or refused. -/
  | refill (f : GtFrame)
  /-- R405. A GSR frame's stream bytes are split into records and copied to the stream's target queues. -/
  | gsr (f : GtFrame) (line : Nat)
  /-- R393. RTO_CLK expires for an unacknowledged frame, which is retransmitted with doubled interval. -/
  | gtRto (ep : Nat) (ch : Nat) (seq : Nat)
  /-- R392. ACK_CLK after an unacknowledged frame, a standalone ACK is sent. -/
  | gtAckTimer (ep : Nat) (ch : Nat)
  /-- R388. 8,192 clk without HELLO_ACK, HELLO is sent again. -/
  | gtHelloRetry (ep : Nat) (ch : Nat)
  /-- R396. At clk 2 of even boundaries, or every 8,192 clk in HOLD and STOPPED, a KEEPALIVE goes to every watched
  endpoint. -/
  | keepaliveSend
  /-- R409. A write of XPORT_CTRL.COMMIT schedules the XPORT shadows. -/
  | xportCommit
  /-- R400. A write of XPORT_CTRL.QUAR_CLEAR ends the quarantine of the selected endpoint. -/
  | quarClear
  /-- R409. A write of XPORT_CTRL.CONN_RESET closes and reopens the selected endpoint's connections. -/
  | connReset
  /-- R415. A write of ERR_CTRL.SCRUB_GO starts or resumes a scrub pass. -/
  | scrubGo
  /-- R415. A write of ERR_CTRL.SCRUB_ABORT ends the scrub pass. -/
  | scrubAbort
  /-- R415. The scrubber reads the next line and counts, rewrites or halts on its outcome. -/
  | scrubLineRead
  /-- R421. A write of ERR_CTRL.DMA_RESTART retries the halted channel's line. -/
  | dmaRestart
  /-- R421. A write of ERR_CTRL.DMA_RESTART_SKIP restarts the channel past the unit holding the line. -/
  | dmaRestartSkip
  /-- R426. A write of ERR_CTRL.RETIRE_GO lists an HBM page as retired and starts moving its rows. -/
  | retireGo
  /-- R428. The retirement walk ends, reports its result and posts RETIRE_DONE. -/
  | retireDone
  /-- R420. A write of ERR_CTRL.LINE_CLEAR clears the named tag line or frees the Drift Map set. -/
  | lineClear
  /-- R419. A write of ERR_CTRL.STACK_CLEAR ends STACK_STATE_LOST for the selected stack. -/
  | stackClear
  /-- R430. Firmware appends an error-history entry for a qualifying event, reset or firmware update. -/
  | errorHistoryAppend (uptime : Nat)
  /-- R443. An FMP fragment arrives, is checked and joins its message's reassembly. -/
  | fmpFragment (via : Nat) (src : Nat) (bytes : Nats)
  /-- R443. A message still incomplete 65,536 clk after its first fragment is discarded. -/
  | fmpReassemblyTimeout (n : Nat)
  /-- R444. A SEQ gap open for 65,536 clk is closed, missing SEQs recorded SKIPPED and held requests run. -/
  | fmpGapTimeout
  /-- R449. HELLO returns a nonce, serial, mode, SVN and ownership state. -/
  | fmpHello
  /-- R449. CERT_GET returns the identity certificate. -/
  | certGet
  /-- R460. ATTEST samples the quote fields and starts signing, or is answered BUSY. -/
  | attest
  /-- R460. Signing of a quote completes and the quote is returned. -/
  | quoteSigned
  /-- R445. SESSION_OPEN is checked for nonce, owner key, signature and encapsulation key. -/
  | sessionOpen
  /-- R445. The module completes encapsulation and signing, opens or takes over the session and replies. -/
  | sessionAccept
  /-- R448. SESSION_CLOSE ends the session. -/
  | sessionClose
  /-- R448. IDLE_S seconds without a valid frame end the session. -/
  | sessionIdleTimeout
  /-- R450. REG_READ returns the values of a list of control-space registers. -/
  | regRead
  /-- R450. REG_WRITE lands a list of register writes in order, one per clk. -/
  | regWrite (before : Nat)
  /-- R451. WIN_READ reads DPA through the management window. -/
  | winRead
  /-- R451. WIN_WRITE writes DPA through the management window. -/
  | winWrite
  /-- R452. STATE_DUMP returns a window of the byte stream of the selected state sections. -/
  | stateDump
  /-- R449. KEY_INSTALL stores an owner public key whose digest is fused and unrevoked. -/
  | keyInstall
  /-- R435. FUSE_PROGRAM programs a policy fuse, effective at the next cold reset, or is DENIED. -/
  | fuseProgram
  /-- R439. FW_UPDATE checks a staged firmware image and starts programming it in the background. -/
  | fwUpdate
  /-- R439. Programming of the firmware image ends and a FW_UPDATE history entry is written. -/
  | fwWriteDone
  /-- R440. FW_SVN_COMMIT raises FW_SVN_MIN to the running image's SVN. -/
  | fwSvnCommit
  /-- R449. RESET replies and raises a reset of source FMP 1,024 clk after the reply departs. -/
  | fmpReset
  /-- R438. In the ROM loader, LOADER_WRITE writes data into the module store's image area. -/
  | loaderWrite
  /-- R438. In the ROM loader, LOADER_COMMIT checks the written image and restarts the ROM or replies DENIED. -/
  | loaderCommit
  /-- R449. A message of undefined type is answered BAD_REQUEST. -/
  | fmpUndefinedType
  /-- R462. At most every 64 beats, an EVENT message carries new event-log entries to the session's controller. -/
  | eventSend
  /-- R463. A write of FMP_CTRL.COMMIT schedules FMP_CFG and FMP_RING_CFG shadows. -/
  | fmpCommit
  /-- R463. A write of FMP_MGMT_ADDR_LO applies the management address and records it in the configuration store. -/
  | mgmtAddrWrite (lo : Nat)
  /-- R455. A write of FMP_DOORBELL sets a ring's TAIL and starts descriptor reading. -/
  | doorbell (ring : Nat) (tail : Nat)
  /-- R457. 96 or 120 clk after a descriptor read issues, GEN and CRC are checked and the descriptor executes or is
  re-read. -/
  | descriptorCheck (ring : Nat)
  /-- R457. 64 clk after a failed check the descriptor is read again, or after the 8th failure EARLY_DOORBELL stalls
  the ring. -/
  | descriptorReread (ring : Nat)
  /-- R456. Ring command NOP completes OK. -/
  | ringNop (ring : Nat)
  /-- R456. Ring command that starts a Clay load as CLAY_SRC, CLAY_SRC_LEN and LOAD. -/
  | loadImage (ring : Nat)
  /-- R456. Ring command that sets CLAY_FLIP_BEAT and arms a flip. -/
  | armFlip (ring : Nat)
  /-- R456. Ring command that lands a list of register writes, at once or at a named beat. -/
  | regWrites (ring : Nat) (before : Nat)
  /-- R456. At clk 4 of AT_BEAT the read-ahead write list lands on every clk. -/
  | regWritesAtBeat (ring : Nat)
  /-- R456. Ring command that waits for a named beat. -/
  | waitBeat (ring : Nat)
  /-- R456. At clk 4 of the named beat the WAIT_BEAT completes OK. -/
  | waitBeatDone (ring : Nat)
  /-- R456. Ring command COPY copies bytes within the window budget. -/
  | ringCopy (ring : Nat)
  /-- R456. Ring command FILL writes a repeated pattern. -/
  | ringFill (ring : Nat)
  /-- R456. A descriptor with an undefined opcode completes BAD_OPCODE. -/
  | ringBadOpcode (ring : Nat)
  /-- R437. After a reset at level 0 to 2 the ROM senses fuses, measures and verifies the firmware, and starts it or
  enters the loader. -/
  | bootRom
  /-- R437. Firmware completes bring-up and sets FMP_STATUS.READY. -/
  | firmwareReady
  /-- R465. The input rises through 41.0 V and bulk charging begins. -/
  | powerOn (profile : Nat)
  /-- R465. The bulk is fully charged and PWR_OK_OUT is released. -/
  | pwrOkRelease
  /-- R467. The input rises through 41.0 V after a flush before the bulk falls to 30 V, raising a BROWNOUT reset. -/
  | brownout
  /-- R486. CLIP_SENSE mates and the module charges its bulk at the inrush limit. -/
  | clipSenseMate
  /-- R471. The sensors are read and THERM_WARN_N is asserted or released. -/
  | thermSensorRead (temps : Nats) (mv : Nat) (amps : Nat) (watts : Nat) (peak : Nat)
  /-- R473. At a boundary with BEAT_COUNT a multiple of 64, or every 64 ms when held, firmware updates the beat pad. -/
  | throttleUpdate
  /-- R474. A sensor reads 115 degrees C and a THERM reset is raised without a flush. -/
  | thermalTrip
  /-- R474. After a trip every sensor reads 100 degrees C or less and the rails may come up again. -/
  | thermRecover
  /-- R479. MOD_RESET_N held low for 1 us raises a PIN reset, completed after release. -/
  | modResetN
  /-- R475. The system-controller watchdog goes unserviced for 1.0 s and raises a WDOG reset. -/
  | watchdog
  /-- R477. A reset runs at the lowest pending level and clears and keeps state as its level states. -/
  | reset
  /-- R488. A write of PWR_CTRL.COMMIT schedules PWR_CFG shadows. -/
  | pwrCommit
  /-- R469. A write of PWR_CTRL.STANDBY in STOPPED turns off the HBM, compute and port rails. -/
  | pwrStandby
  /-- R469. A write of PWR_CTRL.WAKE in STANDBY raises a reset of source FMP at level 1. -/
  | pwrWake
  /-- R482. SMBus command 0x00 returns PWR_STATUS.STATE. -/
  | smbReadState
  /-- R482. SMBus command 0x01 returns the strap profile. -/
  | smbReadProfile
  /-- R482. SMBus command 0x02 returns the input voltage. -/
  | smbReadVoltage
  /-- R482. SMBus command 0x03 returns the input current. -/
  | smbReadCurrent
  /-- R482. SMBus command 0x04 returns the averaged input power. -/
  | smbReadPower
  /-- R482. SMBus command 0x05 returns the hottest sensor reading. -/
  | smbReadTemp
  /-- R482. SMBus command 0x06 returns and clears the alert status. -/
  | smbReadAlert
  /-- R482. SMBus command 0x07 returns the serial number by Block Read. -/
  | smbReadSerial
  /-- R482. SMBus command 0x08 returns the running firmware SVN. -/
  | smbReadSvn
  /-- R482. A read at the Alert Response Address while ALERT_N is asserted returns the module's address. -/
  | smbAlertResponse
  /-- R482. An SMBus read of any other command returns 0xFF. -/
  | smbUndefinedCommand (cmd : Nat)
  /-- R482. An SMBus write is NACKed after the command byte. -/
  | smbWrite
  /-- R14. A write to a control-space register with no row of its own updates its fields under their access codes and
  clamps. -/
  | registerWrite (addr : Nat) (value : Nat)
  /-- R479. MOD_RESET_N rises after holding the module in reset, and the PIN reset completes from the next clk. -/
  | modResetNRelease
  /-- R467. After a flush the bulk falls to 30 V with no input restored, all rails fall and the next start is a power-
  on. -/
  | railsFall
  /-- R432. A fault in a system-controller core or its memory traps to the ROM handler, which raises a reset of source
  SCTL. -/
  | systemControllerFault
  /-- R455. A long ring command such as COPY, FILL or a REG_WRITES list finishes, its completion entry is written,
  HEAD advances and the next descriptor is read. -/
  | ringCommandCompletion (ring : Nat)
  /-- R441. An IPv6 Neighbor Solicitation for the management address arrives on the management port and is answered. -/
  | neighborSolicitation (src : Nat) (hi : Nat) (lo : Nat)
  /-- R395. Within ACK_CLK of the first unreported dequeue on a cross-module queue, the consumer sends a QCREDIT frame
  with the credits owed. -/
  | qcreditReport (rank : Nat)
  deriving DecidableEq, Repr

end Sys2Proof
end

