-- ==== Sys2Proof/WellFormed.lean ====
section
/-!
DEFINITION. Which commands can be given: each operand within the range its rule gives it. A meaning does not ask (it acts
on whatever is named, or finds nothing there); a statement that needs a range says so through these.
-/
namespace Sys2Proof

/-- A cell of the 144 (R71). -/
def cellWf (c : Nat) : Bool := decide (c < 144)
/-- One of the two dies. -/
def dieWf (d : Nat) : Bool := decide (d < 2)
/-- One of the sixteen HBM stacks. -/
def stackWf (n : Nat) : Bool := decide (n < 16)
/-- A queue id of 13 bits (R35, R395). -/
def queueWf (q : Nat) : Bool := decide (q < 8192)
/-- One of the sixteen ports (R378). -/
def portWf (p : Nat) : Bool := decide (p < 16)
/-- One of the four lanes of a port. -/
def laneWf (j : Nat) : Bool := decide (j < 4)
/-- One of the sixteen command rings (R454). -/
def ringWf (r : Nat) : Bool := decide (r < 16)
/-- An endpoint id, or 65,536 plus the index of a service entry (R386). -/
def epWf (e : Nat) : Bool := decide (e < 65792)
/-- A channel of a connection (R387). -/
def chWf (c : Nat) : Bool := decide (c < 4)
/-- A module's rank (R370). -/
def rankWf (r : Nat) : Bool := decide (r < 65536)
/-- One of the eight sinks (R168). -/
def sinkWf (k : Nat) : Bool := decide (k < 8)
/-- One of the eight micro-batch slots, or of the eight slots of a weight stream (R84, R91). -/
def slotWf (k : Nat) : Bool := decide (k < 8)
/-- A weight stream (R91). -/
def streamWf (k : Nat) : Bool := decide (k < 16)
/-- A Tarn: of a cell, or the shared one of a die (TIER_BANK_STALL). -/
def tarnWf (t : Nat) : Bool := decide (t < 144) || decide (t = 0xF0) || decide (t = 0xF1)
/-- A 64-bit value. -/
def wordWf (v : Nat) : Bool := decide (v < 2 ^ 64)
/-- An address of control space, of a register of 8 B (R14). -/
def addrWf (a : Nat) : Bool := decide (a < 2 ^ 32) && decide (a % 8 = 0)
/-- A device physical address (R72). -/
def dpaWf (a : Nat) : Bool := decide (a < 2 ^ 48)
/-- Bytes. -/
def bytesWf (bs : Nats) : Bool := bs.all (fun b => decide (b < 256))
/-- An SMBus command that R482 does not define. -/
def smbWf (c : Nat) : Bool := decide (8 < c) && decide (c < 256)

/-- The fields of a GT frame hold what their widths allow (R381). -/
def frameWf (f : GtFrame) : Bool :=
  portWf f.port && epWf f.ep && chWf f.ch && decide (f.flags < 16) && decide (f.inc < 2 ^ 32) && decide (f.seq < 2 ^ 32) &&
  decide (f.ack < 2 ^ 32) && decide (f.credit < 2 ^ 32) && decide (f.body.op < 256) && decide (f.body.step < 2 ^ 44) &&
  decide (f.body.arg0 < 2 ^ 64) && decide (f.body.arg1 < 2 ^ 32) && decide (f.body.gen < 16) &&
  decide (f.body.payload.length ≤ 8960) && bytesWf f.body.payload

/-- A message over the NoC is named by its place among those on their way; one in a frame, by the frame. -/
def viaWf : Via → Bool
  | .noc _ => true
  | .gt f => frameWf f

/-- A command whose operands are within their ranges. -/
def Instr.wf : Instr → Bool
  | .beatRetireCheck => true
  | .stretchSample n => decide (n ≤ 4096)
  | .beatBoundary => true
  | .commitApply _ _ => true
  | .beatStart => true
  | .beatZeroBoundary => true
  | .holdReq mode => decide (mode < 4)
  | .holdEnter => true
  | .resume => true
  | .faultHold => true
  | .sliceRetire _ _ => true
  | .tokenArrival q => queueWf q
  | .creditArrival q => queueWf q
  | .seqHoldRelease cell _ => cellWf cell
  | .tarnBankGrant tarn asks _ => tarnWf tarn && decide (0 < asks ∧ asks < 64)
  | .tierCommit => true
  | .hotFlush => true
  | .hotFlushDone => true
  | .microbatchDrop slot => slotWf slot
  | .weightFillDone stream slot => streamWf stream && slotWf slot
  | .weightSlotRelease stream slot => streamWf stream && slotWf slot
  | .arrayTileGrant cell _ => cellWf cell
  | .arrayOpRetire cell _ => cellWf cell
  | .cellCommit cell => cellWf cell
  | .vadd cell _ => cellWf cell
  | .vmul cell _ => cellWf cell
  | .vfma cell _ => cellWf cell
  | .vmin cell _ => cellWf cell
  | .vmax cell _ => cellWf cell
  | .vcmp cell _ => cellWf cell
  | .vsel cell _ => cellWf cell
  | .vcvt cell _ => cellWf cell
  | .vred cell _ => cellWf cell
  | .vand cell _ => cellWf cell
  | .vor cell _ => cellWf cell
  | .vxor cell _ => cellWf cell
  | .vshl cell _ => cellWf cell
  | .vshr cell _ => cellWf cell
  | .vsra cell _ => cellWf cell
  | .vlsh cell _ => cellWf cell
  | .vbcast cell _ => cellWf cell
  | .vext cell _ => cellWf cell
  | .vins cell _ => cellWf cell
  | .mand cell _ => cellWf cell
  | .mor cell _ => cellWf cell
  | .mxor cell _ => cellWf cell
  | .mnot cell _ => cellWf cell
  | .mshl cell _ => cellWf cell
  | .mpop cell _ => cellWf cell
  | .mset cell _ => cellWf cell
  | .mget cell _ => cellWf cell
  | .sadd cell _ => cellWf cell
  | .ssub cell _ => cellWf cell
  | .smul cell _ => cellWf cell
  | .sand cell _ => cellWf cell
  | .sor cell _ => cellWf cell
  | .sxor cell _ => cellWf cell
  | .sshl cell _ => cellWf cell
  | .sshr cell _ => cellWf cell
  | .ssra cell _ => cellWf cell
  | .sli cell _ => cellWf cell
  | .sliu cell _ => cellWf cell
  | .scmp cell _ => cellWf cell
  | .sget cell _ => cellWf cell
  | .amov cell _ => cellWf cell
  | .aadd cell _ => cellWf cell
  | .atos cell _ => cellWf cell
  | .vld cell _ => cellWf cell
  | .vst cell _ => cellWf cell
  | .sld cell _ => cellWf cell
  | .sst cell _ => cellWf cell
  | .vgath cell _ => cellWf cell
  | .vscat cell _ => cellWf cell
  | .qsend cell _ => cellWf cell
  | .qrecv cell _ => cellWf cell
  | .qprobe cell _ => cellWf cell
  | .qrecvDeadline cell _ => cellWf cell
  | .aop cell _ => cellWf cell
  | .await cell _ => cellWf cell
  | .wfill cell _ => cellWf cell
  | .wrel cell _ => cellWf cell
  | .xsta cell _ => cellWf cell
  | .xget cell _ => cellWf cell
  | .xfree cell _ => cellWf cell
  | .nop cell _ => cellWf cell
  | .br cell _ => cellWf cell
  | .brc cell _ => cellWf cell
  | .brm cell _ => cellWf cell
  | .loop cell _ => cellWf cell
  | .slend cell _ => cellWf cell
  | .fence cell _ => cellWf cell
  | .bwait cell _ => cellWf cell
  | .trap cell _ => cellWf cell
  | .undefinedOpcode cell opc _ => cellWf cell && decide (opc < 256)
  | .scan cell _ => cellWf cell
  | .segscan cell _ => cellWf cell
  | .exp2 cell _ => cellWf cell
  | .log2 cell _ => cellWf cell
  | .rcp cell _ => cellWf cell
  | .rsqrt cell _ => cellWf cell
  | .cadd cell _ => cellWf cell
  | .mxenc cell _ => cellWf cell
  | .fetchUe cell => cellWf cell
  | .cellSeqRestart cell pc => cellWf cell && decide (pc < 32768)
  | .clayLoad => true
  | .clayPass1Done => true
  | .claySignatureDone => true
  | .clayPass2Done => true
  | .clayCancel => true
  | .clayArm => true
  | .groupCommit => true
  | .quiesceBegin => true
  | .clayFlip => true
  | .embCoalesce die => dieWf die
  | .embFetch die => dieWf die
  | .embPool die => dieWf die
  | .embGrad die => dieWf die
  | .embPush die => dieWf die
  | .embEmptyItem die => dieWf die
  | .lookupTimeout die => dieWf die
  | .embCommit die => dieWf die
  | .sketchClear die => dieWf die
  | .sketchDecay die => dieWf die
  | .driftGo stack rank dest => stackWf stack && rankWf rank && stackWf dest
  | .driftLeaving stack key => stackWf stack && wordWf key
  | .driftSwitch stack key => stackWf stack && wordWf key
  | .driftInstall stack key => stackWf stack && wordWf key
  | .driftFree stack key => stackWf stack && wordWf key
  | .driftCopyTimeout stack key => stackWf stack && wordWf key
  | .sounding => true
  | .cellLost cell cause => cellWf cell && decide (cause < 2)
  | .push m => viaWf m
  | .endMark m => viaWf m
  | .siltClose stack => stackWf stack
  | .siltApply stack => stackWf stack
  | .siltEmptyItem stack => stackWf stack
  | .siltLaneDispatch stack lane key _ => stackWf stack && decide (lane < 32) && wordWf key
  | .siltUpdateDone stack key => stackWf stack && wordWf key
  | .tornSweepDone stack => stackWf stack
  | .siltCommit stack => stackWf stack
  | .eccWriteback dpa => dpaWf dpa
  | .springRecord emitter _ => decide (emitter < 17 + 8192)
  | .springMark => true
  | .springStream sink => sinkWf sink
  | .sinkAck f => frameWf f
  | .sinkAckTimeout sink => sinkWf sink
  | .sinkFailover sink => sinkWf sink
  | .springCommit => true
  | .closeWindow => true
  | .sinkSwap => true
  | .pairEnable => true
  | .pairDisable => true
  | .sinksReconnect => true
  | .springEpochWrite epoch => wordWf epoch
  | .springSinkAckWrite seq => wordWf seq
  | .inputLoss _ => true
  | .lastGaspStop => true
  | .lastGaspFlush => true
  | .lastGaspEnd _ => true
  | .roceResponse sink kind psn => sinkWf sink && decide (kind < 5) && decide (psn < 2 ^ 24)
  | .roceRetryTimeout sink => sinkWf sink
  | .qpReady f => frameWf f
  | .roceRearm => true
  | .kvAppend q slot => queueWf q && slotWf slot
  | .kvRead q => queueWf q
  | .kvShare q => queueWf q
  | .kvFree q => queueWf q
  | .kvPrefetch q => queueWf q
  | .kvBadRequest q => queueWf q
  | .kvCowInstall hist _ => decide (hist < 256)
  | .kvPageQuarantine die _ => dieWf die
  | .kvPageReturn die _ => dieWf die
  | .kvSpill die => dieWf die
  | .kvMoveDone die _ => dieWf die
  | .seqCommit die => dieWf die
  | .collChain die => dieWf die
  | .collRoot die => dieWf die
  | .collGather die => dieWf die
  | .collEmptyItem die => dieWf die
  | .accumToken q => queueWf q
  | .chainSeg m => viaWf m
  | .rootContrib m => viaWf m
  | .rootResult m => viaWf m
  | .hopDeadline => true
  | .fetchReq m => viaWf m
  | .fetchData m => viaWf m
  | .fetchStale m => viaWf m
  | .leaseRelease m => viaWf m
  | .leaseExpiry key _ => wordWf key
  | .peerLost ep => epWf ep
  | .rejoinLive rank => rankWf rank
  | .collCommit => true
  | .permStart => true
  | .permAbort => true
  | .permMove stack => stackWf stack
  | .laneLoss port lane => portWf port && laneWf lane
  | .laneFailed port lane cause => portWf port && laneWf lane && decide (cause < 3)
  | .alignmentCodeword port _ _ _ syms => portWf port && decide (syms.length ≤ 4)
  | .changeMarker port => portWf port
  | .changeMarkerDetect port => portWf port
  | .widthConfirm port => portWf port
  | .widthChangeTimeout port => portWf port
  | .portFail port => portWf port
  | .laneRetrainDone port lane => portWf port && laneWf lane
  | .bringupStageDone port lanes => portWf port && decide (lanes < 16)
  | .bringupTimeout port => portWf port
  | .frameArrival port bytes _ _ _ => portWf port && bytesWf bytes
  | .portCommit port => portWf port
  | .portRetrain port => portWf port
  | .laneClear port => portWf port
  | .fwdTableWrite n value => decide (n < 16384) && wordWf value
  | .gtKeepalive f => frameWf f
  | .gtAck f => frameWf f
  | .gtNak f => frameWf f
  | .gtHello f => frameWf f
  | .gtHelloAck f => frameWf f
  | .gtUndefinedOpcode f reason => frameWf f && decide (reason < 16)
  | .qtoken f => frameWf f
  | .qcredit f => frameWf f
  | .lookupReq m => viaWf m
  | .lookupReply m => viaWf m
  | .driftCopy m => viaWf m
  | .copyAck m => viaWf m
  | .copyNak m => viaWf m
  | .switch m => viaWf m
  | .switchAck m => viaWf m
  | .driftCancel m => viaWf m
  | .driftFwd m => viaWf m
  | .refill f => frameWf f
  | .gsr f _ => frameWf f
  | .gtRto ep ch seq => epWf ep && chWf ch && decide (seq < 2 ^ 32)
  | .gtAckTimer ep ch => epWf ep && chWf ch
  | .gtHelloRetry ep ch => epWf ep && chWf ch
  | .keepaliveSend => true
  | .xportCommit => true
  | .quarClear => true
  | .connReset => true
  | .scrubGo => true
  | .scrubAbort => true
  | .scrubLineRead => true
  | .dmaRestart => true
  | .dmaRestartSkip => true
  | .retireGo => true
  | .retireDone => true
  | .lineClear => true
  | .stackClear => true
  | .errorHistoryAppend _ => true
  | .fmpFragment via _ bytes => decide (via < 2) && bytesWf bytes
  | .fmpReassemblyTimeout _ => true
  | .fmpGapTimeout => true
  | .fmpHello => true
  | .certGet => true
  | .attest => true
  | .quoteSigned => true
  | .sessionOpen => true
  | .sessionAccept => true
  | .sessionClose => true
  | .sessionIdleTimeout => true
  | .regRead => true
  | .regWrite _ => true
  | .winRead => true
  | .winWrite => true
  | .stateDump => true
  | .keyInstall => true
  | .fuseProgram => true
  | .fwUpdate => true
  | .fwWriteDone => true
  | .fwSvnCommit => true
  | .fmpReset => true
  | .loaderWrite => true
  | .loaderCommit => true
  | .fmpUndefinedType => true
  | .eventSend => true
  | .fmpCommit => true
  | .mgmtAddrWrite lo => wordWf lo
  | .doorbell ring tail => ringWf ring && decide (tail < 2 ^ 32)
  | .descriptorCheck ring => ringWf ring
  | .descriptorReread ring => ringWf ring
  | .ringNop ring => ringWf ring
  | .loadImage ring => ringWf ring
  | .armFlip ring => ringWf ring
  | .regWrites ring _ => ringWf ring
  | .regWritesAtBeat ring => ringWf ring
  | .waitBeat ring => ringWf ring
  | .waitBeatDone ring => ringWf ring
  | .ringCopy ring => ringWf ring
  | .ringFill ring => ringWf ring
  | .ringBadOpcode ring => ringWf ring
  | .bootRom => true
  | .firmwareReady => true
  | .powerOn profile => decide (profile < 16)
  | .pwrOkRelease => true
  | .brownout => true
  | .clipSenseMate => true
  | .thermSensorRead temps _ _ _ _ => decide (temps.length = 37)
  | .throttleUpdate => true
  | .thermalTrip => true
  | .thermRecover => true
  | .modResetN => true
  | .watchdog => true
  | .reset => true
  | .pwrCommit => true
  | .pwrStandby => true
  | .pwrWake => true
  | .smbReadState => true
  | .smbReadProfile => true
  | .smbReadVoltage => true
  | .smbReadCurrent => true
  | .smbReadPower => true
  | .smbReadTemp => true
  | .smbReadAlert => true
  | .smbReadSerial => true
  | .smbReadSvn => true
  | .smbAlertResponse => true
  | .smbUndefinedCommand cmd => smbWf cmd
  | .smbWrite => true
  | .registerWrite addr value => addrWf addr && wordWf value
  | .modResetNRelease => true
  | .railsFall => true
  | .systemControllerFault => true
  | .ringCommandCompletion ring => ringWf ring
  | .neighborSolicitation src hi lo => decide (src < 2 ^ 128) && wordWf hi && wordWf lo
  | .qcreditReport rank => rankWf rank

end Sys2Proof
end

