-- ==== Sys2Proof/Decode.lean ====
section
/-!
DEFINITION. Commands as words. The spec's table of operations and events gives no row any bits (a command is a register
access, a frame, a pin event or an event of the module's own units), so no word spells a command.
-/
namespace Sys2Proof

/-- The command that a word spells by the table's bits: none, since no row of the table has bits. -/
def decodeTableWord (_nbits _w : Nat) : Option Instr := none

end Sys2Proof
end

