-- ==== Sys2Proof/Machine/Bits.lean ====
section
/-!
DEFINITION. Bit fields, sign extension, byte order and saturating counts over natural numbers: the plain arithmetic that
every unit shares (R12, R16).
-/
namespace Sys2Proof.Machine

/-- Bits [lo + w - 1 : lo] of `v` (R12). -/
def bits (v lo w : Nat) : Nat := (v >>> lo) % 2 ^ w

/-- `v` with bits [lo + w - 1 : lo] replaced by `x`. -/
def putBits (v lo w x : Nat) : Nat :=
  v - (bits v lo w <<< lo) + ((x % 2 ^ w) <<< lo)

/-- Bit `i` of `v`. -/
def bit (v i : Nat) : Bool := v.testBit i

/-- A Boolean as 0 or 1. -/
def b2n (b : Bool) : Nat := if b then 1 else 0

/-- The signed value of the low `w` bits of `v`. -/
def sext (w v : Nat) : Int :=
  let x := v % 2 ^ w
  if x < 2 ^ (w - 1) then (x : Int) else (x : Int) - (2 ^ w : Nat)

/-- The low `w` bits of an integer, in two's complement. -/
def wrapInt (w : Nat) (i : Int) : Nat := (i % (2 ^ w : Nat)).toNat

/-- Addition that stays at the largest value of `w` bits (a saturating counter). -/
def satAdd (w a n : Nat) : Nat := min (a + n) (2 ^ w - 1)

/-- `n` little-endian bytes of `v`, as numbers (R12). -/
def leBytes : Nat → Nat → List Nat
  | 0, _ => []
  | n + 1, v => v % 256 :: leBytes n (v / 256)

/-- `n` big-endian bytes of `v` (network byte order). -/
def beBytes (n v : Nat) : List Nat := (leBytes n v).reverse

/-- The number that little-endian bytes spell. -/
def ofLe : List Nat → Nat
  | [] => 0
  | b :: bs => b % 256 + 256 * ofLe bs

/-- The number that big-endian bytes spell. -/
def ofBe (bs : List Nat) : Nat := ofLe bs.reverse

/-- `size` bytes at byte `off` of a record held as one little-endian number. -/
def recGet (r off size : Nat) : Nat := bits r (8 * off) (8 * size)

/-- A record with `size` bytes at byte `off` replaced. -/
def recPut (r off size v : Nat) : Nat := putBits r (8 * off) (8 * size) v

/-- The position of the highest set bit, plus one (0 for 0). -/
def bitLen (v : Nat) : Nat := if v = 0 then 0 else v.log2 + 1

/-- The number of set bits among the low `n` bits of `v`. -/
def popCount : Nat → Nat → Nat
  | 0, _ => 0
  | n + 1, v => popCount n v + b2n (v.testBit n)

/-- Bit indices below `n` set in `v`, ascending. -/
def bitsSet (n v : Nat) : List Nat := (List.range n).filter (fun i => v.testBit i)

/-- The smallest value of a list, or `d` of an empty one. -/
def minOf (d : Nat) : List Nat → Nat
  | [] => d
  | [x] => x
  | x :: xs => min x (minOf d xs)

/-- Rounded up to a multiple of `m`. -/
def roundUp (n m : Nat) : Nat := (n + m - 1) / m * m

/-- One step of CRC-32C over the low bit (reflected polynomial 0x82F63B78). -/
def crcBit (c : Nat) : Nat := if c % 2 = 1 then (c / 2) ^^^ 0x82F63B78 else c / 2

/-- CRC-32C state after one byte. -/
def crcByte (c b : Nat) : Nat :=
  crcBit (crcBit (crcBit (crcBit (crcBit (crcBit (crcBit (crcBit (c ^^^ (b % 256)))))))))

/-- CRC-32C of bytes in address order, as the standard defines it (R155). -/
def crc32c (bs : List Nat) : Nat := (bs.foldl crcByte 0xFFFFFFFF) ^^^ 0xFFFFFFFF

end Sys2Proof.Machine
end

