-- ==== Sys2Proof/Machine/Hash.lean ====
section
/-!
DEFINITION. The hash and tag of the control plane: SHAKE256 of FIPS 202 (R173, R437, R445), KMAC256 of NIST SP 800-185 (R442,
R446), and the input check of FIPS 203 for ML-KEM-1024 (R445). The spec names these standards and does not reprint them.
PRESUMED (notes/assumptions/5.md).
-/
namespace Sys2Proof.Machine

/-- The bits that the round constants are made of, from a state of the shift register of FIPS 202 on: each clock puts out bit 0,
and a bit that leaves bit 7 comes back at bits 0, 4, 5 and 6. -/
def keccakBits (r : Nat) : Nat → List Nat
  | 0 => []
  | n + 1 => r % 2 :: keccakBits (if r < 128 then 2 * r else (2 * r) % 256 ^^^ 0x71) n

/-- The constants of the rounds: seven bits each, the j-th of them at place 2^j - 1. -/
def keccakConsts (n : Nat) (bs : List Nat) : List Nat :=
  (List.range n).map fun r => ((List.range 7).map fun j => bs.getD (7 * r + j) 0 <<< (2 ^ j - 1)).sum

/-- Where a lane x + 5y goes next on the walk of FIPS 202, and how far the lane that the walk meets in its t-th place turns. -/
def keccakWalk (lane t : Nat) : Nat → List (Nat × Nat)
  | 0 => []
  | n + 1 => (lane, (t + 1) * (t + 2) / 2 % 64) :: keccakWalk (lane / 5 + 5 * ((2 * (lane % 5) + 3 * (lane / 5)) % 5)) (t + 1) n

/-- The turn of each lane: lane 0 stays, and the walk from lane 1 meets the others. -/
def keccakTurns : List Nat := (List.range 25).map fun i => ((keccakWalk 1 0 24).lookup i).getD 0

/-- Rotation of a 64-bit lane to the left. -/
def rotl64 (x n : Nat) : Nat := (x <<< n ||| x >>> (64 - n)) % 2 ^ 64

/-- One round on the 25 lanes. -/
def keccakRound (turns a : List Nat) (rc : Nat) : List Nat :=
  let c := (List.range 5).map fun x => (List.range 5).foldl (fun v y => v ^^^ a.getD (x + 5 * y) 0) 0
  let d := (List.range 5).map fun x => c.getD ((x + 4) % 5) 0 ^^^ rotl64 (c.getD ((x + 1) % 5) 0) 1
  let b := (List.range 25).map fun i =>
    let sx := (i % 5 + 3 * (i / 5)) % 5
    let src := sx + 5 * (i % 5)
    rotl64 (a.getD src 0 ^^^ d.getD sx 0) (turns.getD src 0)
  (List.range 25).map fun i =>
    let row := 5 * (i / 5)
    let v := b.getD i 0 ^^^ ((2 ^ 64 - 1 - b.getD (row + (i + 1) % 5) 0) &&& b.getD (row + (i + 2) % 5) 0)
    if i = 0 then v ^^^ rc else v

/-- The permutation. -/
def keccakF (a : List Nat) : List Nat := (keccakConsts 24 (keccakBits 1 168)).foldl (keccakRound keccakTurns) a

/-- Absorbs `n` blocks of 136 B. -/
def keccakAbsorb : Nat → List Nat → List Nat → List Nat
  | 0, _, a => a
  | n + 1, bs, a =>
    let lane := fun i => if i < 17 then ofLe ((bs.drop (8 * i)).take 8) else 0
    keccakAbsorb n (bs.drop 136) (keccakF ((List.range 25).map fun i => a.getD i 0 ^^^ lane i))

/-- The sponge at rate 136 B under a domain byte: up to 136 output bytes, as a little-endian number. -/
def sponge (domain n : Nat) (bs : List Nat) : Nat :=
  let q := 136 - bs.length % 136
  let pad := if q = 1 then [domain + 0x80] else domain :: List.replicate (q - 2) 0 ++ [0x80]
  let a := keccakAbsorb ((bs.length + q) / 136) (bs ++ pad) (List.replicate 25 0)
  (a.take 17).foldr (fun l v => l + 2 ^ 64 * v) 0 % 2 ^ (8 * n)

/-- SHAKE256 of a byte string: the number its first `n` output bytes spell, little-endian, for `n` up to 136. -/
def shake256 (n : Nat) (bs : List Nat) : Nat := sponge 0x1F n bs

/-- The bytes of a length, big-endian without leading zeros, at least one. -/
def lengthBytes (x : Nat) : List Nat := beBytes (max 1 ((bitLen x + 7) / 8)) x

/-- A byte string with its length in bits before it. -/
def encodeString (bs : List Nat) : List Nat :=
  let l := lengthBytes (8 * bs.length)
  l.length :: l ++ bs

/-- A byte string with the rate before it, filled with zeros to whole blocks. -/
def bytepad (bs : List Nat) : List Nat :=
  let x := [1, 136] ++ bs
  x ++ List.replicate (roundUp x.length 136 - x.length) 0

/-- KMAC256 of a byte string under a key and a customisation string: a 256-bit tag, as a little-endian number. -/
def kmac256 (key custom bs : List Nat) : Nat :=
  sponge 0x04 32 (bytepad (encodeString [0x4B, 0x4D, 0x41, 0x43] ++ encodeString custom) ++ bytepad (encodeString key) ++
    bs ++ [1, 0, 2])

/-- The input check of FIPS 203 on an ML-KEM-1024 encapsulation key: 1,568 bytes, whose first 1,536 spell 1,024 numbers of 12
bits below 3,329. -/
def kemCheck (ek : List Nat) : Bool :=
  ek.length = 1568 && (List.range 512).all fun i =>
    let v := ofLe ((ek.drop (3 * i)).take 3)
    v % 4096 < 3329 && v / 4096 < 3329

end Sys2Proof.Machine
end

