-- ==== Sys2Proof/Machine/Float.lean ====
section
/-!
DEFINITION. The number formats of the spec's chapter on number formats (R45 to R60) and the FP32 operations on them.
A value is decoded to an exact dyadic number, the operation is exact, and one rounding narrows the result.
-/
namespace Sys2Proof.Machine

/-- A decoded floating-point value: NaN, an infinity, or (−1)^neg × m × 2^e. -/
inductive FV where
  | nan
  | inf (neg : Bool)
  | fin (neg : Bool) (m : Nat) (e : Int)
  deriving DecidableEq, Repr

/-- How a format marks what is not finite (R47). -/
inductive NonFin where
  | ieee | e4m3 | none
  deriving DecidableEq, Repr

/-- The parameters of a floating-point format (R47). -/
structure FFmt where
  eb   : Nat
  fb   : Nat
  bias : Nat
  kind : NonFin
  deriving DecidableEq, Repr

def fp32 : FFmt := ⟨8, 23, 127, .ieee⟩
def bf16 : FFmt := ⟨8, 7, 127, .ieee⟩
def fp16 : FFmt := ⟨5, 10, 15, .ieee⟩
def e4m3 : FFmt := ⟨4, 3, 7, .e4m3⟩
def e5m2 : FFmt := ⟨5, 2, 15, .ieee⟩
def e3m2 : FFmt := ⟨3, 2, 3, .none⟩
def e2m3 : FFmt := ⟨2, 3, 1, .none⟩
def e2m1 : FFmt := ⟨2, 1, 1, .none⟩

/-- The floating-point format of a code of R45, if it is one. -/
def ffmt : Nat → Option FFmt
  | 0 => some fp32 | 2 => some bf16 | 3 => some fp16 | 4 => some e4m3 | 5 => some e5m2
  | 6 => some e3m2 | 7 => some e2m3 | 8 => some e2m1 | _ => none

/-- Element width in bits of each format code (R45). -/
def fmtWidth : Nat → Nat
  | 0 => 32 | 1 => 64 | 2 => 16 | 3 => 16 | 4 => 8 | 5 => 8 | 6 => 6 | 7 => 6 | 8 => 4 | 9 => 32 | 10 => 8 | 11 => 4
  | 12 => 8 | 13 => 4 | 14 => 8 | 15 => 8 | _ => 0

/-- The bit pattern of the largest finite magnitude. -/
def FFmt.maxFinite (f : FFmt) : Nat :=
  match f.kind with
  | .ieee => (2 ^ f.eb - 1) * 2 ^ f.fb - 1
  | .e4m3 => 2 ^ (f.eb + f.fb) - 2
  | .none => 2 ^ (f.eb + f.fb) - 1

/-- The canonical NaN (R47, R49). -/
def FFmt.nanBits (f : FFmt) : Nat :=
  match f.kind with
  | .ieee => (2 ^ f.eb - 1) * 2 ^ f.fb + 2 ^ (f.fb - 1)
  | _ => 2 ^ (f.eb + f.fb) - 1

/-- The sign bit's weight. -/
def FFmt.signBit (f : FFmt) : Nat := 2 ^ (f.eb + f.fb)

/-- The exponent of the smallest subnormal. -/
def FFmt.qmin (f : FFmt) : Int := 1 - (f.bias : Int) - (f.fb : Int)

/-- Decodes a bit pattern (R47). -/
def FFmt.decode (f : FFmt) (b : Nat) : FV :=
  let neg := b.testBit (f.eb + f.fb)
  let ex := bits b f.fb f.eb
  let fr := bits b 0 f.fb
  if f.kind = .ieee ∧ ex = 2 ^ f.eb - 1 then (if fr = 0 then .inf neg else .nan)
  else if f.kind = .e4m3 ∧ ex = 2 ^ f.eb - 1 ∧ fr = 2 ^ f.fb - 1 then .nan
  else if ex = 0 then .fin neg fr f.qmin
  else .fin neg (2 ^ f.fb + fr) (f.qmin + (ex : Int) - 1)

/-- Rounding directions: to nearest, ties to even (R50); toward zero; away from zero. -/
inductive Rnd where
  | rne | zero | away
  deriving DecidableEq, Repr

/-- `m / 2^k` rounded, for `k ≥ 0`. -/
def roundShift (r : Rnd) (m k : Nat) : Nat :=
  let q := m / 2 ^ k
  let rem := m % 2 ^ k
  match r with
  | .zero => q
  | .away => if rem = 0 then q else q + 1
  | .rne => if 2 * rem > 2 ^ k ∨ (2 * rem = 2 ^ k ∧ q % 2 = 1) then q + 1 else q

/-- The magnitude m × 2^e rounded to the format with an unbounded exponent above: exponent field and fraction as one
number, so that a value above `maxFinite` has overflowed (R50). -/
def FFmt.pack (f : FFmt) (r : Rnd) (m : Nat) (e : Int) : Nat :=
  if m = 0 then 0
  else
    let q := max (e + (bitLen m : Int) - 1 - (f.fb : Int)) f.qmin
    let m' := if q ≤ e then m * 2 ^ (e - q).toNat else roundShift r m (q - e).toNat
    (q - f.qmin).toNat * 2 ^ f.fb + m'

/-- What an overflow gives (R51). -/
def FFmt.overflow (f : FFmt) (neg : Bool) : Nat :=
  match f.kind with
  | .ieee => (2 ^ f.eb - 1) * 2 ^ f.fb + (if neg then f.signBit else 0)
  | .e4m3 => f.nanBits
  | .none => f.maxFinite + (if neg then f.signBit else 0)

/-- Rounds a value to the format (R50 to R52). -/
def FFmt.encode (f : FFmt) : FV → Nat
  | .nan => f.nanBits
  | .inf neg => f.overflow neg
  | .fin neg m e =>
    let p := f.pack .rne m e
    if p > f.maxFinite then f.overflow neg else p + (if neg then f.signBit else 0)

/-- Rounding toward −infinity (`up` false) or +infinity (`up` true), as R66 states it for FP16. -/
def FFmt.encodeDir (f : FFmt) (up : Bool) : FV → Nat
  | .nan => f.nanBits
  | .inf neg => f.overflow neg
  | .fin neg m e =>
    let s := if neg then f.signBit else 0
    if neg = up then
      let p := f.pack .zero m e
      (if p > f.maxFinite then f.maxFinite else p) + s
    else
      let p := f.pack .away m e
      if p > f.maxFinite then f.overflow neg else p + s

/-- An integer as a value. -/
def FV.ofInt (i : Int) : FV := .fin (i < 0) i.natAbs 0

/-- The signed mantissa scaled to exponent `e0`, for `e0` at most the value's exponent. -/
def scaled (neg : Bool) (m : Nat) (e e0 : Int) : Int :=
  let x : Int := (m * 2 ^ (e - e0).toNat : Nat)
  if neg then -x else x

/-- The exact sum (R49: an exact zero sum of opposite signs is +0). -/
def FV.add : FV → FV → FV
  | .nan, _ => .nan
  | _, .nan => .nan
  | .inf a, .inf b => if a = b then .inf a else .nan
  | .inf a, _ => .inf a
  | _, .inf b => .inf b
  | .fin na ma ea, .fin nb mb eb =>
    let e0 := min ea eb
    let s := scaled na ma ea e0 + scaled nb mb eb e0
    if s = 0 then .fin (na && nb) 0 0 else .fin (s < 0) s.natAbs e0

def FV.neg : FV → FV
  | .nan => .nan
  | .inf a => .inf (!a)
  | .fin n m e => .fin (!n) m e

/-- The exact product. -/
def FV.mul : FV → FV → FV
  | .nan, _ => .nan
  | _, .nan => .nan
  | .inf a, .inf b => .inf (a != b)
  | .inf a, .fin n m _ => if m = 0 then .nan else .inf (a != n)
  | .fin n m _, .inf b => if m = 0 then .nan else .inf (n != b)
  | .fin na ma ea, .fin nb mb eb => .fin (na != nb) (ma * mb) (ea + eb)

/-- The quotient to 64 bits and a sticky bit, enough for one correct rounding to any format here. -/
def FV.div : FV → FV → FV
  | .nan, _ => .nan
  | _, .nan => .nan
  | .inf _, .inf _ => .nan
  | .inf a, .fin n _ _ => .inf (a != n)
  | .fin n _ _, .inf b => .fin (n != b) 0 0
  | .fin na ma ea, .fin nb mb eb =>
    if mb = 0 then (if ma = 0 then .nan else .inf (na != nb))
    else
      let k := 64 + bitLen mb
      let q := ma * 2 ^ k / mb
      let sticky := if ma * 2 ^ k % mb = 0 then 0 else 1
      .fin (na != nb) (2 * q + sticky) (ea - eb - (k : Int) - 1)

/-- The integer square root by bits, from bit `n` down. -/
def isqrtGo : Nat → Nat → Nat → Nat
  | 0, _, r => r
  | n + 1, v, r =>
    let r' := r + 2 ^ n
    isqrtGo n v (if r' * r' ≤ v then r' else r)

/-- The largest r with r² ≤ v. -/
def isqrt (v : Nat) : Nat := isqrtGo (bitLen v / 2 + 1) v 0

/-- The square root to more than 60 bits and a sticky bit. -/
def FV.sqrt : FV → FV
  | .nan => .nan
  | .inf neg => if neg then .nan else .inf false
  | .fin neg m e =>
    if m = 0 then .fin neg 0 0
    else if neg then .nan
    else
      let k : Nat := if e % 2 = 0 then 128 else 129
      let r := isqrt (m * 2 ^ k)
      let sticky := if r * r = m * 2 ^ k then 0 else 1
      .fin false (2 * r + sticky) ((e - (k : Int)) / 2 - 1)

/-- The sign of `a - b` for finite and infinite values: −1, 0 or 1 (±0 are equal). -/
def FV.cmp : FV → FV → Int
  | .fin na ma ea, .fin nb mb eb =>
    let e0 := min ea eb
    (scaled na ma ea e0 - scaled nb mb eb e0).sign
  | .inf a, .inf b => if a = b then 0 else if a then -1 else 1
  | .inf a, _ => if a then -1 else 1
  | _, .inf b => if b then 1 else -1
  | _, _ => 0

def FV.isNan : FV → Bool
  | .nan => true
  | _ => false

def FV.isFin : FV → Bool
  | .fin _ _ _ => true
  | _ => false

def FV.isZero : FV → Bool
  | .fin _ m _ => m == 0
  | _ => false

def FV.negative : FV → Bool
  | .nan => false
  | .inf n => n
  | .fin n _ _ => n

/-- floor of the exact value. -/
def FV.floor : FV → Int
  | .fin n m e =>
    let x : Int := if n then -(m : Int) else m
    if e ≥ 0 then x * (2 ^ e.toNat : Nat) else x / (2 ^ (-e).toNat : Nat)
  | _ => 0

/-- The exact value rounded to an integer by RNE. -/
def FV.rint : FV → Int
  | .fin n m e =>
    let x : Nat := if e ≥ 0 then m * 2 ^ e.toNat else roundShift .rne m (-e).toNat
    if n then -(x : Int) else x
  | _ => 0

/-! FP32 operations on bit patterns, each rounded once by RNE (R17, R134). -/

def fdec (a : Nat) : FV := fp32.decode a
def fenc (v : FV) : Nat := fp32.encode v
def fadd (a b : Nat) : Nat := fenc ((fdec a).add (fdec b))
def fneg (a : Nat) : Nat := a ^^^ 0x80000000
def fsub (a b : Nat) : Nat := fadd a (fneg b)
def fmul (a b : Nat) : Nat := fenc ((fdec a).mul (fdec b))
def ffma (a b c : Nat) : Nat := fenc (((fdec a).mul (fdec b)).add (fdec c))
def fdiv (a b : Nat) : Nat := fenc ((fdec a).div (fdec b))
def fsqrt (a : Nat) : Nat := fenc (fdec a).sqrt
def fabs (a : Nat) : Nat := a % 0x80000000
def fIsNan (a : Nat) : Bool := (fdec a).isNan
def fFinite (a : Nat) : Bool := (fdec a).isFin
/-- The canonical NaN of FP32 (R49). -/
def fNaN : Nat := 0x7FC00000

/-- a < b, false with a NaN. -/
def flt (a b : Nat) : Bool := !fIsNan a && !fIsNan b && (fdec a).cmp (fdec b) == -1
/-- a ≤ b, false with a NaN. -/
def fle (a b : Nat) : Bool := !fIsNan a && !fIsNan b && (fdec a).cmp (fdec b) != 1
/-- a = b, false with a NaN; ±0 are equal. -/
def feq (a b : Nat) : Bool := !fIsNan a && !fIsNan b && (fdec a).cmp (fdec b) == 0

/-- The total order of R134 on non-NaN values: −0 below +0. -/
def fBelow (a b : Nat) : Bool := flt a b || (feq a b && a.testBit 31 && !b.testBit 31)

def fmin (a b : Nat) : Nat := if fIsNan a || fIsNan b then fNaN else if fBelow a b then a else b
def fmax (a b : Nat) : Nat := if fIsNan a || fIsNan b then fNaN else if fBelow a b then b else a

/-! Conversion between formats (R51 to R54). -/

/-- The value an element of a format code stands for; the integers and UE8M0 among them (R45, R54, R56). -/
def decodeElem (code b : Nat) : FV :=
  match code with
  | 9 => .ofInt (sext 32 b)
  | 10 => .ofInt (sext 8 b)
  | 11 => .ofInt (sext 4 b)
  | 15 => if b % 256 = 255 then .nan else .fin false 1 ((b % 256 : Nat) - 127)
  | _ => match ffmt code with
    | some f => f.decode (b % 2 ^ (f.eb + f.fb + 1))
    | none => .nan

/-- A value rounded to a two's complement integer of `w` bits, and whether the conversion is invalid (R53). -/
def encodeInt (w : Nat) (v : FV) : Nat × Bool :=
  match v with
  | .fin _ _ _ =>
    let i := v.rint
    if i < -(2 ^ (w - 1) : Nat) ∨ i > (2 ^ (w - 1) : Nat) - 1 then (2 ^ (w - 1), true) else (wrapInt w i, false)
  | _ => (2 ^ (w - 1), true)

/-- A value as an element of a format code, and whether the conversion is invalid (R51 to R54). -/
def encodeElem (code : Nat) (v : FV) : Nat × Bool :=
  match code with
  | 9 => encodeInt 32 v
  | 10 => encodeInt 8 v
  | 11 => encodeInt 4 v
  | _ => match ffmt code with
    | some f => (f.encode v, false)
    | none => (0, false)

/-- An FP32 value converted to a format code. -/
def cvtFrom32 (code a : Nat) : Nat := (encodeElem code (fdec a)).1

/-- An element of a format code converted to FP32. -/
def cvtTo32 (code b : Nat) : Nat := fenc (decodeElem code b)

/-! FP32C (R58 to R60). -/

/-- A compensated pair: hi and lo. -/
abbrev Pair := Nat × Nat

/-- two_sum of R59. -/
def twoSum (a b : Nat) : Pair :=
  let s := fadd a b
  let bb := fsub s a
  (s, fadd (fsub a (fsub s bb)) (fsub b bb))

/-- fast_two_sum of R59. -/
def fastTwoSum (a b : Nat) : Pair :=
  let s := fadd a b
  (s, fsub b (fsub s a))

/-- fp32c_add of R59 and R60. -/
def fp32cAdd (x y : Pair) : Pair :=
  let (s, e0) := twoSum x.1 y.1
  if !fFinite s then (s, 0)
  else
    let e := fadd (fadd e0 x.2) y.2
    let r := if fle (fabs e) (fabs s) then fastTwoSum s e else fastTwoSum e s
    if fFinite r.1 then r else (r.1, 0)

/-- fp32c_add over a list, left to right. -/
def fp32cSum (xs : List Pair) : Pair := xs.foldl fp32cAdd (0, 0)

/-- The exact value of a pair. -/
def pairVal (p : Pair) : FV := (fdec p.1).add (fdec p.2)

/-- The nearest normalised pair to an exact value (R58). -/
def pairOf (v : FV) : Pair :=
  let hi := fenc v
  if fFinite hi then (hi, fenc (v.add (fdec hi).neg)) else (hi, 0)

/-! Microscaling blocks (R56, R57). -/

/-- emax of a Microscaling element format (R57). -/
def mxEmax : Nat → Int
  | 4 => 8 | 5 => 15 | 6 => 4 | _ => 2

/-- The larger magnitude of two finite values. -/
def FV.maxAbs (a b : FV) : FV :=
  let abs : FV → FV := fun v => if v.negative then v.neg else v
  if (abs a).cmp (abs b) = -1 then abs b else abs a

/-- v / 2^k. -/
def FV.scale (v : FV) (k : Int) : FV :=
  match v with
  | .fin n m e => .fin n m (e - k)
  | w => w

/-- floor(log2) of a finite non-zero magnitude. -/
def FV.log2 : FV → Int
  | .fin _ m e => e + (bitLen m : Int) - 1
  | _ => 0

/-- The scale byte and the elements of one block (R57). -/
def mxEncode (code : Nat) (xs : List FV) : Nat × List Nat :=
  match ffmt code with
  | none => (0, [])
  | some f =>
    if xs.any (fun v => !v.isFin) then (0xFF, xs.map (fun _ => 0))
    else
      let amax := xs.foldl FV.maxAbs (.fin false 0 0)
      let sign : FV → Nat := fun v => if v.negative then f.signBit else 0
      if amax.isZero then (0x7F, xs.map sign)
      else
        let e0 := amax.log2 - mxEmax code
        let p := match amax.scale e0 with
          | .fin _ m e => f.pack .rne m e
          | _ => 0
        let e := max (if p > f.maxFinite then e0 + 1 else e0) (-127)
        ((e + 127).toNat, xs.map (fun v => f.encode (v.scale e)))

/-- Element value of a Microscaling block with a scale byte (R56). -/
def mxDecode (code scale b : Nat) : FV :=
  if scale % 256 = 255 then .nan else (decodeElem code b).scale (127 - ((scale % 256 : Nat) : Int))

/-! Stochastic rounding (R61 to R63). -/

def mulhilo (a b : Nat) : Nat × Nat := (a * b / 2 ^ 32 % 2 ^ 32, a * b % 2 ^ 32)

/-- `n` rounds of Philox4x32 (R61). -/
def philoxGo : Nat → Nat → Nat → Nat → Nat → Nat → Nat → List Nat
  | 0, c0, c1, c2, c3, _, _ => [c0, c1, c2, c3]
  | n + 1, c0, c1, c2, c3, k0, k1 =>
    let (hi0, lo0) := mulhilo 0xD2511F53 c0
    let (hi1, lo1) := mulhilo 0xCD9E8D57 c2
    philoxGo n (hi1 ^^^ c1 ^^^ k0) lo1 (hi0 ^^^ c3 ^^^ k1) lo0 ((k0 + 0x9E3779B9) % 2 ^ 32) ((k1 + 0xBB67AE85) % 2 ^ 32)

/-- Philox4x32-10 (R61). -/
def philox (c0 c1 c2 c3 k0 k1 : Nat) : List Nat := philoxGo 10 c0 c1 c2 c3 k0 k1

/-- The 16 random bits of an element (R62). -/
def srBits (seed key step stream e : Nat) : Nat :=
  let xs := philox (bits key 0 32) (bits key 32 32) (bits step 0 32) (bits stream 0 4 * 2 ^ 28 + bits (e / 8) 0 28)
    (bits seed 0 32) (bits seed 32 32 ^^^ bits step 32 12)
  bits (xs.getD (e / 2 % 4) 0) (16 * (e % 2)) 16

/-- Rounds an FP32 value to an integer code with random bits `r` (R63), clamped to lo .. hi. -/
def srRound (t r : Nat) (lo hi : Int) : Int :=
  let v := fdec t
  let f := v.floor
  let u := ((v.add (FV.ofInt (-f))).scale (-16)).floor
  let c := if u > (r : Int) then f + 1 else f
  max lo (min hi c)

/-! Row codes (R64 to R67) and moment codes (R68 to R71). -/

def fp16Down (a : Nat) : Nat := fp16.encodeDir false (fdec a)
def fp16Up (a : Nat) : Nat := fp16.encodeDir true (fdec a)
/-- An FP16 pattern as FP32, exactly. -/
def h2f (h : Nat) : Nat := fenc (fp16.decode h)

/-- The largest code of Q8R (0xC) or Q4R (0xD). -/
def rowCmax (fmt : Nat) : Nat := if fmt = 0xD then 15 else 255

/-- A code of a row with SCALE and OFFSET decodes to FP32 (R65). -/
def rowDecode (scale offset c : Nat) : Nat :=
  if (fp16.decode scale).isNan || (fp16.decode offset).isNan then fNaN
  else fenc (((fp16.decode scale).mul (FV.ofInt c)).add (fp16.decode offset))

/-- SCALE, OFFSET and codes of a row from its new values (R66, R67); the flag says that the row is non-finite. -/
def rowEncode (fmt seed key step : Nat) (xs : List Nat) : (Nat × Nat × List Nat) × Bool :=
  let bad : (Nat × Nat × List Nat) × Bool := ((0x7E00, 0x7E00, xs.map (fun _ => 0)), true)
  let cmax := rowCmax fmt
  match xs with
  | [] => bad
  | x0 :: rest =>
    if (x0 :: rest).any (fun x => !fFinite x) then bad
    else
      let mn := rest.foldl fmin x0
      let mx := rest.foldl fmax x0
      let off := fp16Down mn
      let sc := fp16Up (fdiv (fsub mx (h2f off)) (fenc (FV.ofInt cmax)))
      if !(fp16.decode off).isFin || !(fp16.decode sc).isFin then bad
      else
        let codes := (x0 :: rest).zipIdx.map (fun (x, i) =>
          if (fp16.decode sc).isZero then 0
          else (srRound (fdiv (fsub x (h2f off)) (h2f sc)) (srBits seed key step 0 i) 0 cmax).toNat)
        ((sc, off, codes), false)

/-- The first-moment table T1 of R69. -/
def t1 (c : Int) : Nat := if c = -128 then 0xBF800000 else fenc ((FV.ofInt c).div (FV.ofInt 127))

/-- The second-moment table T2 of R69. -/
def t2 (c : Nat) : Nat := fenc ((FV.ofInt (c * c)).div (FV.ofInt (255 * 255)))

/-- An M8B code with its block's scale decodes to FP32 (R69). -/
def momentDecode (second : Bool) (scale c : Nat) : Nat :=
  fenc ((fp16.decode scale).mul (fdec (if second then t2 c else t1 (sext 8 c))))

/-- Scale and codes of one M8B block; `i0` is the index of its first element in the row (R70, R71). -/
def momentEncode (second : Bool) (seed key step i0 : Nat) (xs : List Nat) : Nat × List Nat :=
  if xs.any (fun x => !fFinite x) then (0x7E00, xs.map (fun _ => 0))
  else
    let a := xs.foldl (fun m x => fmax m (fabs x)) 0
    let sc := fp16Up a
    if !(fp16.decode sc).isFin then (0x7E00, xs.map (fun _ => 0))
    else if (fp16.decode sc).isZero then (sc, xs.map (fun _ => 0))
    else (sc, xs.zipIdx.map (fun (x, j) =>
      let q := fdiv x (h2f sc)
      if second then (srRound (fmul (fenc (.ofInt 255)) (fsqrt q)) (srBits seed key step 2 (i0 + j)) 0 255).toNat
      else wrapInt 8 (srRound (fmul (fenc (.ofInt 127)) q) (srBits seed key step 1 (i0 + j)) (-127) 127)))

/-- Unsigned and signed packed elements of width `w` in a little-endian number. -/
def unpack (w n v : Nat) : List Nat := (List.range n).map (fun i => bits v (w * i) w)

/-- Elements of width `w` packed from bit 0 on (R48, R128). -/
def pack (w : Nat) : List Nat → Nat
  | [] => 0
  | x :: xs => x % 2 ^ w + 2 ^ w * pack w xs

end Sys2Proof.Machine
end

