-- ==== Sys2Proof/Config.lean ====
section
/-!
DEFINITION. What an implementation or the outside world fixes and the spec leaves open: free values and functions of
published standards. None has a body, so nothing can evaluate one or prove what it gives (notes/assumptions/4.md, 5.md).
-/
namespace Sys2Proof.Config

/-- The n-th value the outside supplies where the spec leaves a value open (an incarnation, a nonce, a random draw). -/
opaque freeValue (w : Nat) : Nat → BitVec w

/-- The weight of an occurrence of a row key in a WEIGHTED table whose section carries none (R215 states none). -/
opaque missingWeight : Nat → BitVec 32

/-- The record index that CLAY_CLAMP.LAST_RECORD gives for a cell whose CELL_CONFIG record is missing (R174 states none). -/
opaque missingRecord : Nat → BitVec 24

/-- How many native instructions MXENC counts as: R150 gives its time and not its expansion. -/
opaque mxencCount : Nat

/-- SLH-DSA verification (FIPS 205): key digest, message, signature. -/
opaque slhVerify (keyId : Nat) (msg sig : List Nat) : Bool

/-- SLH-DSA signing (FIPS 205) with the identity key that a seed gives. -/
opaque slhSign (seed : Nat) (msg : List Nat) : List Nat

/-- ML-KEM-1024 encapsulation (FIPS 203) to a key: the ciphertext and the shared secret, under randomness `r`. -/
opaque kemEncaps (ek : List Nat) (r : Nat) : List Nat × List Nat

/-- The firmware public key that the ROM holds (R437). -/
opaque romKey : List Nat

/-- The identity public key that the firmware derives from IDENTITY_SEED (R437, R459). -/
opaque identityKey (seed : Nat) : List Nat

/-- What stands for the endpoint id in the SPREAD rule of R371 for a transit frame to an address outside the prefix. -/
opaque spreadId (addr : Nat) : Nat

end Sys2Proof.Config
end

