-- ==== Sys2Proof/Machine/Fld.lean ====
section
/-!
DEFINITION. The register fields of the spec, one name per field: <register>_<field>, with the width and the reset value
its register table gives (R14, R15 and the table's own rule). Fields whose table row names no reset value read as 0
after reset unless `State.reset` says otherwise (notes/assumptions/3.md).
-/
namespace Sys2Proof.Machine

/-- A field of a control register. The docstring gives its rule and its access code (R14). -/
inductive Fld where
  /-- R43, WO, 1 bit. -/
  | BEAT_CTRL_START
  /-- R43, WO, 1 bit. -/
  | BEAT_CTRL_HOLD_REQ
  /-- R43, RW, 2 bit. -/
  | BEAT_CTRL_HOLD_MODE
  /-- R43, WO, 1 bit. -/
  | BEAT_CTRL_RESUME
  /-- R43, RO, 2 bit. -/
  | BEAT_STATUS_STATE
  /-- R43, RO, 2 bit. -/
  | BEAT_STATUS_HOLD_CAUSE
  /-- R43, W1C, 1 bit. -/
  | BEAT_STATUS_RESUME_REFUSED
  /-- R43, RO, 1 bit. -/
  | BEAT_STATUS_STRETCHED
  /-- R43, RO, 13 bit. -/
  | BEAT_STATUS_PHASE
  /-- R43, RO, 64 bit. -/
  | BEAT_COUNT_COUNT
  /-- R43, RO, 44 bit. -/
  | BEAT_STEP_STEP
  /-- R43, RO, 20 bit. -/
  | BEAT_STEP_OFFSET
  /-- R43, RO, 13 bit. -/
  | BEAT_STRETCH_LIMIT
  /-- R43, RC, 32 bit. -/
  | BEAT_STRETCH_COUNT
  /-- R43, RC, 13 bit. -/
  | BEAT_STRETCH_MAX
  /-- R43, RO, 8 bit. -/
  | BEAT_OVERRUN_INDEX
  /-- R43, RO, 4 bit. -/
  | BEAT_OVERRUN_UNIT
  /-- R43, RO, 48 bit. -/
  | BEAT_OVERRUN_BEAT
  /-- R43, RW, 13 bit. -/
  | BEAT_QPROBE_SEL_QUEUE
  /-- R43, RO, 1 bit. -/
  | BEAT_QPROBE_STATE_VALID
  /-- R43, RO, 9 bit. -/
  | BEAT_QPROBE_STATE_DEPTH
  /-- R43, RO, 9 bit. -/
  | BEAT_QPROBE_STATE_CREDITS
  /-- R43, RO, 9 bit. -/
  | BEAT_QPROBE_STATE_OCCUPANCY
  /-- R43, RO, 4 bit. -/
  | BEAT_QPROBE_STATE_GEN
  /-- R43, RO, 14 bit. -/
  | BEAT_QPROBE_STATE_STALL_CLK
  /-- R43, RO, 48 bit. -/
  | BEAT_QPROBE_TOTAL_SENT
  /-- R43, RW, 44 bit. -/
  | BEAT_START_STEP_STEP
  /-- R97, WO, 1 bit. -/
  | TIER_CTRL_COMMIT
  /-- R97, WO, 1 bit. -/
  | TIER_CTRL_HOT_FLUSH
  /-- R97, RO, 1 bit. -/
  | TIER_STATUS_COMMIT_PENDING
  /-- R97, RO, 1 bit. -/
  | TIER_STATUS_HOT_FLUSH_BUSY
  /-- R97, W1C, 1 bit. -/
  | TIER_STATUS_COMMIT_KEPT
  /-- R97, RO, 4 bit. -/
  | TIER_STATUS_KEPT_CLASS
  /-- R97, RW, 4 bit. -/
  | TIER_CLASS_SEL_CLASS
  /-- R97, RW, 8 bit. -/
  | TIER_CLASS_SEL_INSTANCE
  /-- R97, RWS, 32 bit. -/
  | TIER_CLASS_REGION_BASE
  /-- R97, RWS, 32 bit. -/
  | TIER_CLASS_REGION_SIZE
  /-- R97, RO, 32 bit. -/
  | TIER_CLASS_USE_IN_USE
  /-- R97, RC, 32 bit. -/
  | TIER_CLASS_USE_PEAK
  /-- R97, RC, 32 bit. -/
  | TIER_CLASS_EVENTS_FULL
  /-- R97, RC, 32 bit. -/
  | TIER_CLASS_EVENTS_OUTCOME
  /-- R97, RW, 22 bit. -/
  | TIER_WINDOW_BASE
  /-- R97, RO, 48 bit. -/
  | TIER_HOLE_LAST
  /-- R97, RC, 16 bit. -/
  | TIER_HOLE_COUNT
  /-- R97, RW, 8 bit. -/
  | TIER_BANK_STALL_TARN
  /-- R97, RO, 16 bit. -/
  | TIER_BANK_STALL_LAST_BEAT
  /-- R97, RC, 32 bit. -/
  | TIER_BANK_STALL_TOTAL
  /-- R97, RO, 32 bit. -/
  | TIER_HOT_DIRTY_W
  /-- R97, RO, 32 bit. -/
  | TIER_HOT_DIRTY_E
  /-- R97, RW, 4 bit. -/
  | TIER_STREAM_STREAM
  /-- R97, RO, 8 bit. -/
  | TIER_STREAM_READY
  /-- R97, RO, 8 bit. -/
  | TIER_STREAM_FILLING
  /-- R97, RC, 32 bit. -/
  | TIER_STREAM_WAIT_CLK
  /-- R125, RO, 8 bit. -/
  | CELL_ID_ID
  /-- R125, RO, 1 bit. -/
  | CELL_ID_DIE
  /-- R125, RO, 3 bit. -/
  | CELL_ID_ROW
  /-- R125, RO, 4 bit. -/
  | CELL_ID_COL
  /-- R125, WO, 1 bit. -/
  | CELL_CTRL_COMMIT
  /-- R125, RO, 1 bit. -/
  | CELL_ARRAY_STATUS_BUSY
  /-- R125, RO, 1 bit. -/
  | CELL_ARRAY_STATUS_WAITING
  /-- R125, RO, 1 bit. -/
  | CELL_ARRAY_STATUS_KEPT
  /-- R125, RO, 2 bit. -/
  | CELL_ARRAY_STATUS_LAST_MODE
  /-- R125, RO, 2 bit. -/
  | CELL_ARRAY_STATUS_LAST_PATH
  /-- R125, RO, 3 bit. -/
  | CELL_ARRAY_STATUS_LAST_STATUS
  /-- R125, RO, 21 bit. -/
  | CELL_ARRAY_STATUS_LAST_DESC
  /-- R125, RC, 48 bit. -/
  | CELL_ARRAY_OPS_RETIRED
  /-- R125, RC, 16 bit. -/
  | CELL_ARRAY_OPS_NOOP
  /-- R125, RO, 32 bit. -/
  | CELL_ARRAY_BUSY_LAST_BEAT
  /-- R125, RC, 32 bit. -/
  | CELL_ARRAY_BUSY_TOTAL
  /-- R125, RO, 32 bit. -/
  | CELL_TILE_WAIT_LAST_BEAT
  /-- R125, RC, 32 bit. -/
  | CELL_TILE_WAIT_TOTAL
  /-- R125, RC, 32 bit. -/
  | CELL_ARRAY_CLAMP_COUNT
  /-- R125, RO, 6 bit. -/
  | CELL_ARRAY_CLAMP_LAST_FIELD
  /-- R125, RC, 32 bit. -/
  | CELL_ARRAY_UE_COUNT
  /-- R125, RO, 21 bit. -/
  | CELL_ARRAY_UE_LAST_OFFSET
  /-- R125, RW, 6 bit. -/
  | CELL_RS_SEL_ENTRY
  /-- R125, RW, 4 bit. -/
  | CELL_RS_SEL_HIST
  /-- R125, RWS, 1 bit. -/
  | CELL_RS_CFG_FMT
  /-- R125, RWS, 4 bit. -/
  | CELL_RS_CFG_MARGIN
  /-- R125, RWS, 1 bit. -/
  | CELL_RS_CFG_HOLD_EXP
  /-- R125, RWS, 8 bit. -/
  | CELL_RS_CFG_EXP
  /-- R125, RO, 1 bit. -/
  | CELL_RS_CFG_ACTIVE
  /-- R125, RO, 32 bit. -/
  | CELL_RS_AMAX_CUR_AMAX
  /-- R125, RO, 32 bit. -/
  | CELL_RS_AMAX_H
  /-- R125, RO, 32 bit. -/
  | CELL_RS_HIST_VALUE
  /-- R125, RO, 4 bit. -/
  | CELL_RS_HIST_NEXT
  /-- R125, RC, 32 bit. -/
  | CELL_RS_OVF_OVF
  /-- R125, RC, 32 bit. -/
  | CELL_RS_OVF_INF_AMAX
  /-- R154, WO, 1 bit. -/
  | CELL_SEQ_CTRL_RESTART
  /-- R154, RW, 15 bit. -/
  | CELL_SEQ_CTRL_RESTART_PC
  /-- R154, RO, 2 bit. -/
  | CELL_SEQ_STATUS_STATE
  /-- R154, RO, 4 bit. -/
  | CELL_SEQ_STATUS_HOLD_REASON
  /-- R154, RO, 15 bit. -/
  | CELL_SEQ_STATUS_PC
  /-- R154, RO, 3 bit. -/
  | CELL_SEQ_STATUS_LOOP_DEPTH
  /-- R154, RO, 4 bit. -/
  | CELL_SEQ_STATUS_SLOT
  /-- R154, RO, 1 bit. -/
  | CELL_SEQ_STATUS_DROPPED
  /-- R154, RO, 16 bit. -/
  | CELL_SEQ_PROG_LENGTH
  /-- R154, RO, 15 bit. -/
  | CELL_SEQ_PROG_BASE
  /-- R154, RC, 48 bit. -/
  | CELL_SEQ_ISSUED_COUNT
  /-- R154, RC, 16 bit. -/
  | CELL_SEQ_ISSUED_MACROS
  /-- R154, RO, 32 bit. -/
  | CELL_SEQ_STALL_LAST_BEAT
  /-- R154, RC, 32 bit. -/
  | CELL_SEQ_STALL_TOTAL
  /-- R154, W1C, 1 bit. -/
  | CELL_SEQ_FLAGS_CVT_INVALID
  /-- R154, W1C, 1 bit. -/
  | CELL_SEQ_FLAGS_LOAD_UE
  /-- R154, RC, 16 bit. -/
  | CELL_SEQ_FLAGS_CVT_COUNT
  /-- R154, RC, 16 bit. -/
  | CELL_SEQ_FLAGS_UE_COUNT
  /-- R154, RO, 8 bit. -/
  | CELL_TRAP_CAUSE
  /-- R154, RO, 8 bit. -/
  | CELL_TRAP_CODE
  /-- R154, RO, 15 bit. -/
  | CELL_TRAP_PC
  /-- R154, RO, 16 bit. -/
  | CELL_TRAP_BEAT
  /-- R154, RO, 64 bit. -/
  | CELL_TRAP_INSN_INSN
  /-- R154, RO, 48 bit. -/
  | CELL_TRAP_ADDR_DETAIL
  /-- R154, RW, 3 bit. -/
  | CELL_REG_SEL_FILE
  /-- R154, RW, 6 bit. -/
  | CELL_REG_SEL_INDEX
  /-- R154, RW, 6 bit. -/
  | CELL_REG_SEL_LANE
  /-- R154, RW, 64 bit. -/
  | CELL_REG_DATA_DATA
  /-- R154, RC, 32 bit. -/
  | CELL_SEQ_CLAMP_COUNT
  /-- R154, RO, 8 bit. -/
  | CELL_SEQ_CLAMP_LAST_OPCODE
  /-- R191, WO, 1 bit. -/
  | CLAY_CTRL_LOAD
  /-- R191, WO, 1 bit. -/
  | CLAY_CTRL_CANCEL
  /-- R191, WO, 1 bit. -/
  | CLAY_CTRL_ARM
  /-- R191, WO, 1 bit. -/
  | CLAY_CTRL_GROUP_COMMIT
  /-- R191, RO, 3 bit. -/
  | CLAY_STATUS_LOAD_STATE
  /-- R191, RO, 4 bit. -/
  | CLAY_STATUS_ERROR
  /-- R191, RO, 1 bit. -/
  | CLAY_STATUS_ARMED
  /-- R191, W1C, 1 bit. -/
  | CLAY_STATUS_FLIP_REFUSED
  /-- R191, W1C, 1 bit. -/
  | CLAY_STATUS_FLIP_LATE
  /-- R191, W1C, 1 bit. -/
  | CLAY_STATUS_LOAD_BUSY
  /-- R191, RO, 1 bit. -/
  | CLAY_STATUS_ACTIVE_WIDE
  /-- R191, RO, 6 bit. -/
  | CLAY_STATUS_FLIP_BLOCK
  /-- R191, RO, 1 bit. -/
  | CLAY_STATUS_GROUP_PENDING
  /-- R191, RW, 32 bit. -/
  | CLAY_SRC_BASE
  /-- R191, RW, 29 bit. -/
  | CLAY_SRC_LEN_LENGTH
  /-- R191, RW, 48 bit. -/
  | CLAY_FLIP_BEAT_BEAT
  /-- R191, RO, 32 bit. -/
  | CLAY_GEN_ACTIVE
  /-- R191, RO, 32 bit. -/
  | CLAY_GEN_SHADOW
  /-- R191, RW, 12 bit. -/
  | CLAY_COMMIT_GROUP_MASK
  /-- R191, RC, 32 bit. -/
  | CLAY_CLAMP_COUNT
  /-- R191, RO, 8 bit. -/
  | CLAY_CLAMP_LAST_SECTION
  /-- R191, RO, 24 bit. -/
  | CLAY_CLAMP_LAST_RECORD
  /-- R191, RC, 32 bit. -/
  | CLAY_FLIP_DISCARD_COUNT
  /-- R191, RC, 16 bit. -/
  | CLAY_FLIP_DISCARD_QUIESCE_SKIPPED
  /-- R191, RC, 8 bit. -/
  | CLAY_FLIP_DISCARD_MB_DROPPED
  /-- R191, RO, 48 bit. -/
  | CLAY_LOAD_TIME_CLK
  /-- R191, RW, 1 bit. -/
  | CLAY_RB_SEL_PLANE
  /-- R191, RW, 8 bit. -/
  | CLAY_RB_SEL_SECTION
  /-- R191, RW, 8 bit. -/
  | CLAY_RB_SEL_CELL
  /-- R191, RW, 24 bit. -/
  | CLAY_RB_SEL_RECORD
  /-- R191, RO, 1 bit. -/
  | CLAY_RB_SEL_VALID
  /-- R191, RO, 64 bit. -/
  | CLAY_RB_DATA_DATA
  /-- R191, RO, 64 bit. -/
  | CLAY_MEAS_ACTIVE_DIGEST
  /-- R191, RO, 64 bit. -/
  | CLAY_MEAS_SHADOW_DIGEST
  /-- R191, RO, 64 bit. -/
  | CLAY_CELL_FAIL_FAILED
  /-- R234, WO, 1 bit. -/
  | EMB_CTRL_COMMIT
  /-- R234, WO, 1 bit. -/
  | EMB_CTRL_SKETCH_CLEAR
  /-- R234, RO, 1 bit. -/
  | EMB_STATUS_COMMIT_PENDING
  /-- R234, RO, 1 bit. -/
  | EMB_STATUS_RESHARD
  /-- R234, RO, 5 bit. -/
  | EMB_STATUS_LAST_SUBBATCHES
  /-- R234, RWS, 16 bit. -/
  | EMB_HOT_CFG_ADMIT_THRESHOLD
  /-- R234, RWS, 16 bit. -/
  | EMB_HOT_CFG_DECAY_BEATS
  /-- R234, RWS, 1 bit. -/
  | EMB_DRIFT_POLICY_ENABLE
  /-- R234, RWS, 8 bit. -/
  | EMB_DRIFT_POLICY_IMBALANCE
  /-- R234, RWS, 8 bit. -/
  | EMB_DRIFT_POLICY_MAX_MOVES
  /-- R234, RW, 12 bit. -/
  | EMB_TABLE_SEL_TABLE
  /-- R234, RC, 32 bit. -/
  | EMB_TABLE_COUNT_FETCHED
  /-- R234, RC, 32 bit. -/
  | EMB_TABLE_COUNT_ABSENT
  /-- R234, RC, 16 bit. -/
  | EMB_TABLE_EXCL_INVALID
  /-- R234, RC, 16 bit. -/
  | EMB_TABLE_EXCL_ERR
  /-- R234, RC, 16 bit. -/
  | EMB_TABLE_EXCL_TIMEOUT
  /-- R234, RC, 16 bit. -/
  | EMB_TABLE_EXCL_FULL
  /-- R234, RC, 32 bit. -/
  | EMB_COALESCE_UNKNOWN
  /-- R234, RC, 16 bit. -/
  | EMB_COALESCE_OVERFLOW
  /-- R234, RC, 16 bit. -/
  | EMB_COALESCE_SAT
  /-- R234, RC, 32 bit. -/
  | EMB_REPLY_LATE
  /-- R234, RC, 16 bit. -/
  | EMB_REPLY_FWD_LIMIT
  /-- R234, RC, 16 bit. -/
  | EMB_REPLY_TORN_FULL
  /-- R234, RC, 32 bit. -/
  | EMB_HOT_STATS_HITS
  /-- R234, RC, 16 bit. -/
  | EMB_HOT_STATS_ADMITS
  /-- R234, RC, 16 bit. -/
  | EMB_HOT_STATS_EVICTIONS
  /-- R234, RC, 32 bit. -/
  | EMB_RESHARD_FWD_TO_OLD
  /-- R234, RC, 32 bit. -/
  | EMB_RESHARD_CREATED_AT_NEW
  /-- R234, RWS, 64 bit. -/
  | EMB_WORK_ITEM
  /-- R235, RW, 64 bit. -/
  | DRIFT_CMD_KEY_KEY
  /-- R235, WO, 1 bit. -/
  | DRIFT_CMD_GO
  /-- R235, RW, 4 bit. -/
  | DRIFT_CMD_DEST_STACK
  /-- R235, RW, 16 bit. -/
  | DRIFT_CMD_DEST_RANK
  /-- R235, RO, 7 bit. -/
  | DRIFT_STATUS_IN_FLIGHT
  /-- R235, RO, 4 bit. -/
  | DRIFT_STATUS_LAST_RESULT
  /-- R235, RO, 22 bit. -/
  | DRIFT_MAP_USE_RESIDENT
  /-- R235, RO, 22 bit. -/
  | DRIFT_MAP_USE_MOVED
  /-- R235, RO, 20 bit. -/
  | DRIFT_MAP_USE_CACHED
  /-- R235, RW, 64 bit. -/
  | DRIFT_PROBE_KEY_KEY
  /-- R235, RO, 64 bit. -/
  | DRIFT_PROBE_LOCATION
  /-- R235, RO, 16 bit. -/
  | DRIFT_PROBE_EST_EST
  /-- R235, RC, 16 bit. -/
  | DRIFT_STATS_DONE
  /-- R235, RC, 16 bit. -/
  | DRIFT_STATS_ABORTED
  /-- R235, RC, 16 bit. -/
  | DRIFT_STATS_DUP_DISCARD
  /-- R235, RC, 16 bit. -/
  | DRIFT_STATS_REFUSED
  /-- R235, RC, 32 bit. -/
  | DRIFT_FWD_FORWARDED
  /-- R235, RC, 16 bit. -/
  | DRIFT_FWD_SET_FULL
  /-- R235, RW, 12 bit. -/
  | DRIFT_LOAD_SEL_TABLE
  /-- R235, RW, 1 bit. -/
  | DRIFT_LOAD_SEL_ALL
  /-- R235, RO, 32 bit. -/
  | DRIFT_LOAD_LOOKUPS
  /-- R235, RO, 32 bit. -/
  | DRIFT_LOAD_UPDATES
  /-- R235, RW, 6 bit. -/
  | DRIFT_HEAVY_SEL_INDEX
  /-- R235, RO, 64 bit. -/
  | DRIFT_HEAVY_KEY_KEY
  /-- R235, RO, 16 bit. -/
  | DRIFT_HEAVY_EST_EST
  /-- R235, RO, 1 bit. -/
  | DRIFT_HEAVY_EST_VALID
  /-- R269, WO, 1 bit. -/
  | SILT_CTRL_COMMIT
  /-- R269, RO, 3 bit. -/
  | SILT_STATUS_PHASE
  /-- R269, RO, 1 bit. -/
  | SILT_STATUS_COMMIT_PENDING
  /-- R269, W1C, 1 bit. -/
  | SILT_STATUS_COMMIT_KEPT
  /-- R269, RO, 44 bit. -/
  | SILT_STATUS_STEP
  /-- R269, RWS, 32 bit. -/
  | SILT_MERGE_BASE
  /-- R269, RWS, 32 bit. -/
  | SILT_MERGE_SIZE
  /-- R269, RO, 32 bit. -/
  | SILT_MERGE_USE_IN_USE
  /-- R269, RC, 16 bit. -/
  | SILT_MERGE_USE_FULL
  /-- R269, RC, 16 bit. -/
  | SILT_MERGE_USE_UNSCHEDULED
  /-- R269, RO, 32 bit. -/
  | SILT_MERGE_STATS_KEYS
  /-- R269, RO, 32 bit. -/
  | SILT_MERGE_STATS_CONTRIB
  /-- R269, RC, 32 bit. -/
  | SILT_DISCARD_FROZEN
  /-- R269, RC, 16 bit. -/
  | SILT_DISCARD_DUPLICATE
  /-- R269, RC, 16 bit. -/
  | SILT_DISCARD_AHEAD
  /-- R269, RO, 32 bit. -/
  | SILT_NORM_PART_HI
  /-- R269, RO, 32 bit. -/
  | SILT_NORM_PART_LO
  /-- R269, RO, 32 bit. -/
  | SILT_NORM_G_HI
  /-- R269, RO, 32 bit. -/
  | SILT_NORM_NORM
  /-- R269, RO, 44 bit. -/
  | SILT_NORM_STEP_STEP
  /-- R269, RO, 1 bit. -/
  | SILT_NORM_STEP_VALID
  /-- R269, RO, 1 bit. -/
  | SILT_NORM_STEP_NONFINITE
  /-- R269, RC, 16 bit. -/
  | SILT_NORM_STEP_SKIPPED
  /-- R269, RC, 32 bit. -/
  | SILT_ROWS_APPLIED
  /-- R269, RC, 16 bit. -/
  | SILT_ROWS_CREATED
  /-- R269, RC, 16 bit. -/
  | SILT_ROWS_NONFINITE
  /-- R269, RO, 10 bit. -/
  | SILT_LANES_LOG_IN_USE
  /-- R269, RC, 32 bit. -/
  | SILT_LANES_LOG_WAIT
  /-- R269, RC, 16 bit. -/
  | SILT_LANES_CONFLICT_WAIT
  /-- R269, RO, 20 bit. -/
  | SILT_TORN_COUNT
  /-- R269, RO, 1 bit. -/
  | SILT_TORN_SWEEP_BUSY
  /-- R269, RC, 16 bit. -/
  | SILT_TORN_UPD_DROPPED
  /-- R269, RO, 16 bit. -/
  | SILT_TORN_DEFERRED
  /-- R269, RW, 20 bit. -/
  | SILT_TORN_SEL_INDEX
  /-- R269, RO, 1 bit. -/
  | SILT_TORN_SEL_VALID
  /-- R269, RO, 64 bit. -/
  | SILT_TORN_KEY_KEY
  /-- R269, RC, 32 bit. -/
  | SILT_REFILL_INSTALLED
  /-- R269, RC, 32 bit. -/
  | SILT_REFILL_DISCARDED
  /-- R269, RWS, 64 bit. -/
  | SILT_WORK_ITEM
  /-- R301, WO, 1 bit. -/
  | SPRING_CTRL_COMMIT
  /-- R301, WO, 1 bit. -/
  | SPRING_CTRL_CLOSE_WINDOW
  /-- R301, WO, 1 bit. -/
  | SPRING_CTRL_SWAP
  /-- R301, WO, 1 bit. -/
  | SPRING_CTRL_PAIR_ENABLE
  /-- R301, WO, 1 bit. -/
  | SPRING_CTRL_PAIR_DISABLE
  /-- R301, WO, 1 bit. -/
  | SPRING_CTRL_SINKS_RECONNECT
  /-- R301, RO, 1 bit. -/
  | SPRING_STATUS_COMMIT_PENDING
  /-- R301, RO, 1 bit. -/
  | SPRING_STATUS_RING_HIGH
  /-- R301, RO, 1 bit. -/
  | SPRING_STATUS_BACKPRESSURE
  /-- R301, W1C, 1 bit. -/
  | SPRING_STATUS_LG_AT_RISK
  /-- R301, W1C, 1 bit. -/
  | SPRING_STATUS_ACK_REGRESS
  /-- R301, RO, 1 bit. -/
  | SPRING_STATUS_PAIR_DOWN
  /-- R301, W1C, 1 bit. -/
  | SPRING_STATUS_MIXED_SKIP
  /-- R301, RWS, 1 bit. -/
  | SPRING_CFG_DURABLE_MODE
  /-- R301, RWS, 16 bit. -/
  | SPRING_CFG_ACK_TIMEOUT
  /-- R301, RWS, 9 bit. -/
  | SPRING_CFG_LG_BUDGET
  /-- R301, RW, 32 bit. -/
  | SPRING_EPOCH_EPOCH
  /-- R301, RO, 64 bit. -/
  | SPRING_SEQ_NEXT_SEQ
  /-- R301, RO, 64 bit. -/
  | SPRING_SEQ_RETAINED_SEQ
  /-- R301, RO, 32 bit. -/
  | SPRING_RING_USE_USED
  /-- R301, RC, 32 bit. -/
  | SPRING_RING_USE_PEAK
  /-- R301, RO, 32 bit. -/
  | SPRING_UNSENT_UNSENT
  /-- R301, RC, 32 bit. -/
  | SPRING_UNSENT_PEAK
  /-- R301, RO, 44 bit. -/
  | SPRING_DURABLE_STEP
  /-- R301, RO, 1 bit. -/
  | SPRING_DURABLE_VALID
  /-- R301, RO, 64 bit. -/
  | SPRING_DURABLE_SEQ_SEQ
  /-- R301, RO, 44 bit. -/
  | SPRING_MARKED_STEP
  /-- R301, RO, 1 bit. -/
  | SPRING_MARKED_VALID
  /-- R301, RO, 1 bit. -/
  | SPRING_MARKED_SKIPPED
  /-- R301, RW, 3 bit. -/
  | SPRING_SINK_SEL_SINK
  /-- R301, RO, 3 bit. -/
  | SPRING_SINK_STATE_STATE
  /-- R301, RO, 1 bit. -/
  | SPRING_SINK_STATE_ROLE
  /-- R301, RO, 1 bit. -/
  | SPRING_SINK_STATE_PROTOCOL
  /-- R301, RO, 8 bit. -/
  | SPRING_SINK_STATE_PAIR
  /-- R301, RO, 48 bit. -/
  | SPRING_SINK_STATE_INCARNATION
  /-- R301, RO, 64 bit. -/
  | SPRING_SINK_ACKED_SEQ
  /-- R301, WO, 64 bit. -/
  | SPRING_SINK_ACK_SEQ
  /-- R301, RC, 16 bit. -/
  | SPRING_SINK_STATS_FAILOVERS
  /-- R301, RC, 16 bit. -/
  | SPRING_SINK_STATS_INCARNATIONS
  /-- R301, RC, 32 bit. -/
  | SPRING_SINK_STATS_RESENT
  /-- R301, RO, 7 bit. -/
  | SPRING_COALESCE_W
  /-- R301, RO, 6 bit. -/
  | SPRING_COALESCE_POSITION
  /-- R301, RC, 16 bit. -/
  | SPRING_COALESCE_EARLY
  /-- R301, RC, 32 bit. -/
  | SPRING_COALESCE_MERGED
  /-- R301, RC, 32 bit. -/
  | SPRING_REFILL_ACCEPTED
  /-- R301, RC, 16 bit. -/
  | SPRING_REFILL_MALFORMED
  /-- R301, RC, 16 bit. -/
  | SPRING_REFILL_REFUSED
  /-- R301, RWS, 16 bit. -/
  | SPRING_DENSE_OWNERS_OWNERS
  /-- R301, RW, 44 bit. -/
  | SPRING_OPEN_BASE_BASE
  /-- R326, WO, 1 bit. -/
  | SEQ_CTRL_COMMIT
  /-- R326, RO, 1 bit. -/
  | SEQ_STATUS_COMMIT_PENDING
  /-- R326, W1C, 1 bit. -/
  | SEQ_STATUS_COMMIT_KEPT
  /-- R326, RO, 1 bit. -/
  | SEQ_STATUS_ENABLED
  /-- R326, W1C, 1 bit. -/
  | SEQ_STATUS_REJECTED
  /-- R326, RWS, 4 bit. -/
  | SEQ_CFG_KEY_FMT
  /-- R326, RWS, 4 bit. -/
  | SEQ_CFG_VAL_FMT
  /-- R326, RWS, 4 bit. -/
  | SEQ_CFG_MUL_FMT
  /-- R326, RWS, 4 bit. -/
  | SEQ_CFG_IN_FMT
  /-- R326, RWS, 3 bit. -/
  | SEQ_CFG_LAYERS_M1
  /-- R326, RWS, 5 bit. -/
  | SEQ_CFG_WIDTH
  /-- R326, RWS, 1 bit. -/
  | SEQ_CFG_ENABLE
  /-- R326, RO, 32 bit. -/
  | SEQ_FRAMES_T_FRAMES
  /-- R326, RO, 32 bit. -/
  | SEQ_FRAMES_H_FRAMES
  /-- R326, RO, 16 bit. -/
  | SEQ_PAGES_LIVE_T
  /-- R326, RO, 16 bit. -/
  | SEQ_PAGES_LIVE_H
  /-- R326, RO, 16 bit. -/
  | SEQ_PAGES_QUAR
  /-- R326, RO, 16 bit. -/
  | SEQ_PAGES_HISTS
  /-- R326, RC, 32 bit. -/
  | SEQ_EVENTS_APPENDED
  /-- R326, RC, 16 bit. -/
  | SEQ_EVENTS_LIMIT
  /-- R326, RC, 16 bit. -/
  | SEQ_EVENTS_OVF
  /-- R326, RC, 16 bit. -/
  | SEQ_FAULTS_NO_PAGE
  /-- R326, RC, 16 bit. -/
  | SEQ_FAULTS_BAD_REQUEST
  /-- R326, RC, 16 bit. -/
  | SEQ_FAULTS_DISABLED
  /-- R326, RC, 16 bit. -/
  | SEQ_FAULTS_UE
  /-- R326, RC, 16 bit. -/
  | SEQ_MOVES_COW
  /-- R326, RC, 16 bit. -/
  | SEQ_MOVES_SPILLS
  /-- R326, RC, 16 bit. -/
  | SEQ_MOVES_PREFETCHES
  /-- R326, RC, 16 bit. -/
  | SEQ_MOVES_CANCELLED
  /-- R326, RW, 8 bit. -/
  | SEQ_SEL_HIST
  /-- R326, RW, 3 bit. -/
  | SEQ_SEL_LAYER
  /-- R326, RW, 7 bit. -/
  | SEQ_SEL_INDEX
  /-- R326, RW, 16 bit. -/
  | SEQ_SEL_PAGE
  /-- R326, RO, 14 bit. -/
  | SEQ_HIST_LENGTH
  /-- R326, RO, 16 bit. -/
  | SEQ_HIST_ENTRY
  /-- R326, RO, 16 bit. -/
  | SEQ_HIST_PENDING
  /-- R326, RO, 16 bit. -/
  | SEQ_PAGE_REFCOUNT
  /-- R326, RO, 2 bit. -/
  | SEQ_PAGE_STATE
  /-- R326, RO, 7 bit. -/
  | SEQ_PAGE_FILL
  /-- R326, RO, 1 bit. -/
  | SEQ_PAGE_TIER
  /-- R326, RO, 24 bit. -/
  | SEQ_PAGE_FRAME
  /-- R326, RC, 32 bit. -/
  | SEQ_KAMAX_AMAX
  /-- R326, RWS, 64 bit. -/
  | SEQ_KEXP_KEXP
  /-- R357, WO, 1 bit. -/
  | COLL_CTRL_COMMIT
  /-- R357, WO, 1 bit. -/
  | COLL_CTRL_PERM_START
  /-- R357, WO, 1 bit. -/
  | COLL_CTRL_PERM_ABORT
  /-- R357, RO, 1 bit. -/
  | COLL_STATUS_COMMIT_PENDING
  /-- R357, RO, 2 bit. -/
  | COLL_STATUS_PERM_STATE
  /-- R357, W1C, 1 bit. -/
  | COLL_STATUS_COMMIT_KEPT
  /-- R357, W1C, 1 bit. -/
  | COLL_STATUS_REJOIN_LATE
  /-- R357, RO, 17 bit. -/
  | COLL_STATUS_LIVE
  /-- R357, RWS, 16 bit. -/
  | COLL_CFG_LEASE_BEATS
  /-- R357, RWS, 13 bit. -/
  | COLL_CFG_PERM_WINDOW
  /-- R357, RWS, 13 bit. -/
  | COLL_CFG_QRECV_CLK
  /-- R357, RWS, 32 bit. -/
  | COLL_DIR_BASE
  /-- R357, RWS, 16 bit. -/
  | COLL_DIR_COUNT
  /-- R357, RW, 16 bit. -/
  | COLL_PEER_SEL_RANK
  /-- R357, RO, 2 bit. -/
  | COLL_PEER_STATE
  /-- R357, RO, 44 bit. -/
  | COLL_PEER_JOIN_STEP
  /-- R357, RC, 32 bit. -/
  | COLL_LATE_ADDED
  /-- R357, RC, 32 bit. -/
  | COLL_LATE_DROPPED
  /-- R357, RC, 32 bit. -/
  | COLL_MISSING_CHAIN
  /-- R357, RC, 16 bit. -/
  | COLL_MISSING_ROOT
  /-- R357, RC, 16 bit. -/
  | COLL_MISSING_PUSH_LOST
  /-- R357, RC, 16 bit. -/
  | COLL_STALE_REPLIES
  /-- R357, RC, 16 bit. -/
  | COLL_STALE_DROPPED
  /-- R357, RC, 16 bit. -/
  | COLL_STALE_USED_CURRENT
  /-- R357, RC, 16 bit. -/
  | COLL_STALE_SERVED
  /-- R357, RO, 15 bit. -/
  | COLL_LEASE_HELD
  /-- R357, RC, 16 bit. -/
  | COLL_LEASE_NO_ROOM
  /-- R357, RC, 16 bit. -/
  | COLL_LEASE_EXPIRED
  /-- R357, RO, 17 bit. -/
  | COLL_ROOT_INCLUDED
  /-- R357, RO, 1 bit. -/
  | COLL_ROOT_SELF_IN
  /-- R357, RO, 1 bit. -/
  | COLL_ROOT_VALID
  /-- R357, RO, 16 bit. -/
  | COLL_ROOT_ROOT
  /-- R357, RO, 16 bit. -/
  | COLL_ROOT_STEP
  /-- R357, RO, 32 bit. -/
  | COLL_PERM_MOVED
  /-- R357, RO, 16 bit. -/
  | COLL_PERM_SKIPPED
  /-- R357, RO, 16 bit. -/
  | COLL_PERM_IN_FLIGHT
  /-- R357, RC, 32 bit. -/
  | COLL_BASIN_ACCUM
  /-- R357, RC, 16 bit. -/
  | COLL_BASIN_BAD
  /-- R357, RO, 44 bit. -/
  | COLL_JOIN_JOIN_STEP
  /-- R357, RW, 1 bit. -/
  | COLL_JOIN_REJOIN
  /-- R357, RWS, 64 bit. -/
  | COLL_WORK_ITEM
  /-- R378, WO, 1 bit. -/
  | PORT_CTRL_COMMIT
  /-- R378, WO, 1 bit. -/
  | PORT_CTRL_RETRAIN
  /-- R378, WO, 1 bit. -/
  | PORT_CTRL_LANE_CLEAR
  /-- R378, RWS, 1 bit. -/
  | PORT_CFG_ENABLE
  /-- R378, RWS, 1 bit. -/
  | PORT_CFG_MODE
  /-- R378, RWS, 4 bit. -/
  | PORT_CFG_LANE_EXCLUDE
  /-- R378, RO, 3 bit. -/
  | PORT_STATUS_STATE
  /-- R378, RO, 1 bit. -/
  | PORT_STATUS_COMMIT_PENDING
  /-- R378, RO, 1 bit. -/
  | PORT_STATUS_STOPPED
  /-- R378, RO, 4 bit. -/
  | PORT_STATUS_TX_MAP
  /-- R378, RO, 4 bit. -/
  | PORT_STATUS_RX_MAP
  /-- R378, RO, 16 bit. -/
  | PORT_STATUS_PARTNER_ID
  /-- R378, RO, 4 bit. -/
  | PORT_STATUS_PARTNER_PORT
  /-- R378, RO, 1 bit. -/
  | PORT_STATUS_PARTNER_VALID
  /-- R378, RO, 3 bit. -/
  | PORT_LANE_STATE
  /-- R378, RC, 16 bit. -/
  | PORT_LANE_FAILS
  /-- R378, RC, 32 bit. -/
  | PORT_FEC_CORRECTED
  /-- R378, RC, 32 bit. -/
  | PORT_FEC_UNCORRECTED
  /-- R378, RC, 32 bit. -/
  | PORT_SYM_TOTAL
  /-- R378, RO, 16 bit. -/
  | PORT_SYM_LAST_BEAT
  /-- R378, RC, 32 bit. -/
  | PORT_FRAMES_RX
  /-- R378, RC, 32 bit. -/
  | PORT_FRAMES_TX
  /-- R378, RC, 16 bit. -/
  | PORT_DROPS_BAD
  /-- R378, RC, 16 bit. -/
  | PORT_DROPS_STOMPED
  /-- R378, RC, 16 bit. -/
  | PORT_DROPS_BUF_FULL
  /-- R378, RC, 16 bit. -/
  | PORT_DROPS_OTHER
  /-- R378, RW, 48 bit. -/
  | PORT_MAC_MAC
  /-- R378, RW, 48 bit. -/
  | PORT_NEIGHBOR_MAC_MAC
  /-- R378, RC, 16 bit. -/
  | PORT_TRAIN_ATTEMPTS
  /-- R378, RC, 16 bit. -/
  | PORT_TRAIN_RETRAINS
  /-- R378, RO, 32 bit. -/
  | PORT_TRAIN_LAST_TIME
  /-- R379, RW, 16 bit. -/
  | PORT_FWD_CFG_OWN_ID
  /-- R379, RW, 8 bit. -/
  | PORT_FWD_CFG_HOP_LIMIT
  /-- R379, RW, 8 bit. -/
  | PORT_FWD_CFG_CTRL_TC
  /-- R379, RW, 64 bit. -/
  | PORT_FWD_PREFIX_HI_PREFIX
  /-- R379, RW, 48 bit. -/
  | PORT_FWD_PREFIX_LO_PREFIX
  /-- R379, RW, 16 bit. -/
  | PORT_FWD_DEFAULT_ENTRY
  /-- R379, RC, 16 bit. -/
  | PORT_FWD_STATS_NO_ROUTE
  /-- R379, RC, 16 bit. -/
  | PORT_FWD_STATS_HOP
  /-- R379, RC, 32 bit. -/
  | PORT_FWD_STATS_FORWARDED
  /-- R379, RW, 16 bit. -/
  | PORT_FWD_TABLE_ENTRY
  /-- R409, WO, 1 bit. -/
  | XPORT_CTRL_COMMIT
  /-- R409, WO, 1 bit. -/
  | XPORT_CTRL_QUAR_CLEAR
  /-- R409, WO, 1 bit. -/
  | XPORT_CTRL_CONN_RESET
  /-- R409, WO, 1 bit. -/
  | XPORT_CTRL_ROCE_REARM
  /-- R409, RO, 1 bit. -/
  | XPORT_STATUS_COMMIT_PENDING
  /-- R409, W1C, 1 bit. -/
  | XPORT_STATUS_VLOG_WRAPPED
  /-- R409, RO, 1 bit. -/
  | XPORT_STATUS_QUARANTINE_ANY
  /-- R409, RO, 32 bit. -/
  | XPORT_STATUS_INCARNATION
  /-- R409, RWS, 16 bit. -/
  | XPORT_CFG_GT_UDP_PORT
  /-- R409, RWS, 10 bit. -/
  | XPORT_CFG_RX_WINDOW
  /-- R409, RWS, 2 bit. -/
  | XPORT_CFG_CHANNELS_M1
  /-- R409, RWS, 12 bit. -/
  | XPORT_CFG_ACK_CLK
  /-- R409, RWS, 14 bit. -/
  | XPORT_CFG_RTO_CLK
  /-- R409, RW, 16 bit. -/
  | XPORT_EP_SEL_ENDPOINT
  /-- R409, RW, 2 bit. -/
  | XPORT_EP_SEL_CHANNEL
  /-- R409, RW, 1 bit. -/
  | XPORT_EP_SEL_SVC
  /-- R409, RWS, 3 bit. -/
  | XPORT_EP_CFG_KIND
  /-- R409, RWS, 1 bit. -/
  | XPORT_EP_CFG_WATCH
  /-- R409, RO, 3 bit. -/
  | XPORT_EP_STATE_CONN
  /-- R409, RO, 4 bit. -/
  | XPORT_EP_STATE_SILENCE
  /-- R409, RO, 32 bit. -/
  | XPORT_EP_STATE_PEER_INC
  /-- R409, RC, 32 bit. -/
  | XPORT_CONN_STATS_RETX
  /-- R409, RC, 16 bit. -/
  | XPORT_CONN_STATS_DISCARDED
  /-- R409, RC, 16 bit. -/
  | XPORT_CONN_STATS_VIOLATIONS
  /-- R409, RC, 32 bit. -/
  | XPORT_TOTALS_RX
  /-- R409, RC, 32 bit. -/
  | XPORT_TOTALS_TX
  /-- R409, RC, 16 bit. -/
  | XPORT_VIOL_COUNT
  /-- R409, RO, 9 bit. -/
  | XPORT_VIOL_HEAD
  /-- R409, RC, 16 bit. -/
  | XPORT_VIOL_QUARANTINES
  /-- R409, RC, 16 bit. -/
  | XPORT_VIOL_NAK_SUPPRESSED
  /-- R409, RW, 9 bit. -/
  | XPORT_VLOG_SEL_INDEX
  /-- R409, RO, 64 bit. -/
  | XPORT_VLOG_DATA_DATA
  /-- R409, RW, 8 bit. -/
  | XPORT_INGEST_SEL_STREAM
  /-- R409, RWS, 13 bit. -/
  | XPORT_INGEST_MAP_QUEUE_A
  /-- R409, RWS, 1 bit. -/
  | XPORT_INGEST_MAP_VALID_A
  /-- R409, RWS, 5 bit. -/
  | XPORT_INGEST_MAP_MASK_A
  /-- R409, RWS, 13 bit. -/
  | XPORT_INGEST_MAP_QUEUE_B
  /-- R409, RWS, 1 bit. -/
  | XPORT_INGEST_MAP_VALID_B
  /-- R409, RWS, 5 bit. -/
  | XPORT_INGEST_MAP_MASK_B
  /-- R409, RC, 32 bit. -/
  | XPORT_GSR_RECORDS
  /-- R409, RC, 16 bit. -/
  | XPORT_GSR_MALFORMED
  /-- R409, RC, 16 bit. -/
  | XPORT_GSR_TRUNCATED
  /-- R409, RC, 16 bit. -/
  | XPORT_GSR_DROP_STALE
  /-- R409, RC, 16 bit. -/
  | XPORT_GSR_DROP_LATE_MB
  /-- R409, RC, 32 bit. -/
  | XPORT_GSR_DROP_SKIPPED_BYTES
  /-- R409, RW, 3 bit. -/
  | XPORT_ROCE_SEL_SINK
  /-- R409, RO, 3 bit. -/
  | XPORT_ROCE_QP_STATE
  /-- R409, RO, 24 bit. -/
  | XPORT_ROCE_QP_NEXT_PSN
  /-- R409, RW, 24 bit. -/
  | XPORT_ROCE_QP_START_PSN
  /-- R409, RC, 16 bit. -/
  | XPORT_ROCE_STATS_RETRIES
  /-- R409, RC, 16 bit. -/
  | XPORT_ROCE_STATS_ERRORS
  /-- R409, RC, 16 bit. -/
  | XPORT_ROCE_STATS_RNR
  /-- R409, RC, 16 bit. -/
  | XPORT_ROCE_STATS_DISCARDED
  /-- R409, RWS, 64 bit. -/
  | XPORT_SVC_ADDR_HI_ADDR
  /-- R409, RWS, 64 bit. -/
  | XPORT_SVC_ADDR_LO_ADDR
  /-- R431, WO, 1 bit. -/
  | ERR_CTRL_SCRUB_GO
  /-- R431, WO, 1 bit. -/
  | ERR_CTRL_SCRUB_ABORT
  /-- R431, WO, 1 bit. -/
  | ERR_CTRL_DMA_RESTART
  /-- R431, WO, 1 bit. -/
  | ERR_CTRL_DMA_RESTART_SKIP
  /-- R431, WO, 1 bit. -/
  | ERR_CTRL_RETIRE_GO
  /-- R431, WO, 1 bit. -/
  | ERR_CTRL_LINE_CLEAR
  /-- R431, WO, 1 bit. -/
  | ERR_CTRL_STACK_CLEAR
  /-- R431, RO, 2 bit. -/
  | ERR_STATUS_SCRUB_STATE
  /-- R431, RO, 3 bit. -/
  | ERR_STATUS_DMA_HALTED
  /-- R431, RO, 2 bit. -/
  | ERR_STATUS_RETIRE_STATE
  /-- R431, RO, 3 bit. -/
  | ERR_STATUS_RETIRE_RESULT
  /-- R431, W1C, 1 bit. -/
  | ERR_STATUS_EVLOG_WRAPPED
  /-- R431, RO, 16 bit. -/
  | ERR_STATUS_STATE_LOST
  /-- R431, RW, 3 bit. -/
  | ERR_STORE_SEL_KIND
  /-- R431, RW, 8 bit. -/
  | ERR_STORE_SEL_INDEX
  /-- R431, RC, 32 bit. -/
  | ERR_STORE_COUNT_CE
  /-- R431, RC, 16 bit. -/
  | ERR_STORE_COUNT_UE
  /-- R431, RC, 16 bit. -/
  | ERR_STORE_COUNT_POISON
  /-- R431, RO, 48 bit. -/
  | ERR_STORE_LAST_ADDR
  /-- R431, RO, 2 bit. -/
  | ERR_STORE_LAST_OUTCOME
  /-- R431, RW, 42 bit. -/
  | ERR_SCRUB_BASE_LINE
  /-- R431, RO, 42 bit. -/
  | ERR_SCRUB_NEXT_LINE
  /-- R431, RO, 42 bit. -/
  | ERR_SCRUB_FIRST_UE_LINE
  /-- R431, RO, 42 bit. -/
  | ERR_SCRUB_LAST_UE_LINE
  /-- R431, RW, 35 bit. -/
  | ERR_SCRUB_LEN_LINES
  /-- R431, RO, 32 bit. -/
  | ERR_SCRUB_SUM0_LINES
  /-- R431, RO, 32 bit. -/
  | ERR_SCRUB_SUM0_CORRECTED
  /-- R431, RO, 32 bit. -/
  | ERR_SCRUB_SUM1_UE
  /-- R431, RO, 32 bit. -/
  | ERR_SCRUB_SUM1_POISONED
  /-- R431, RW, 2 bit. -/
  | ERR_DMA_SEL_CHANNEL
  /-- R431, RO, 1 bit. -/
  | ERR_DMA_STATE_HALTED
  /-- R431, RC, 8 bit. -/
  | ERR_DMA_STATE_SKIPPED
  /-- R431, RO, 48 bit. -/
  | ERR_DMA_STATE_ADDR
  /-- R431, RW, 28 bit. -/
  | ERR_RETIRE_ADDR_PAGE
  /-- R431, RO, 17 bit. -/
  | ERR_RETIRE_STATS_PAGES
  /-- R431, RC, 31 bit. -/
  | ERR_RETIRE_STATS_MOVED
  /-- R431, RC, 16 bit. -/
  | ERR_RETIRE_STATS_LEFT
  /-- R431, RO, 12 bit. -/
  | ERR_EVLOG_HEAD_HEAD
  /-- R431, RC, 32 bit. -/
  | ERR_EVLOG_HEAD_SUPPRESSED
  /-- R431, RW, 20 bit. -/
  | ERR_EVLOG_SEL_INDEX
  /-- R431, RO, 1 bit. -/
  | ERR_EVLOG_SEL_VALID
  /-- R431, RW, 20 bit. -/
  | ERR_HIST_SEL_INDEX
  /-- R431, RO, 1 bit. -/
  | ERR_HIST_SEL_VALID
  /-- R431, RO, 64 bit. -/
  | ERR_EVLOG_DATA_DATA
  /-- R431, RO, 64 bit. -/
  | ERR_HIST_DATA_DATA
  /-- R431, RW, 1 bit. -/
  | ERR_CLEAR_ADDR_TARGET
  /-- R431, RW, 4 bit. -/
  | ERR_CLEAR_ADDR_STACK
  /-- R431, RW, 42 bit. -/
  | ERR_CLEAR_ADDR_LINE
  /-- R463, WO, 1 bit. -/
  | FMP_CTRL_COMMIT
  /-- R463, RO, 1 bit. -/
  | FMP_STATUS_COMMIT_PENDING
  /-- R463, RO, 1 bit. -/
  | FMP_STATUS_READY
  /-- R463, RO, 1 bit. -/
  | FMP_STATUS_SESSION
  /-- R463, RO, 1 bit. -/
  | FMP_STATUS_UNOWNED
  /-- R463, RO, 1 bit. -/
  | FMP_STATUS_IDENTITY_BAD
  /-- R463, W1C, 1 bit. -/
  | FMP_STATUS_COMMIT_KEPT
  /-- R463, RWS, 16 bit. -/
  | FMP_CFG_UDP_PORT
  /-- R463, RWS, 16 bit. -/
  | FMP_CFG_IDLE_S
  /-- R463, RWS, 1 bit. -/
  | FMP_CFG_SOUNDINGS
  /-- R463, RWS, 1 bit. -/
  | FMP_CFG_EVENTS
  /-- R463, RW, 64 bit. -/
  | FMP_MGMT_ADDR_HI_ADDR
  /-- R463, RW, 64 bit. -/
  | FMP_MGMT_ADDR_LO_ADDR
  /-- R463, RO, 32 bit. -/
  | FMP_SESSION_ID
  /-- R463, RO, 2 bit. -/
  | FMP_SESSION_KEY
  /-- R463, RO, 1 bit. -/
  | FMP_SESSION_VIA
  /-- R463, RC, 16 bit. -/
  | FMP_STATS_BAD_TAG
  /-- R463, RC, 16 bit. -/
  | FMP_STATS_BAD_HEADER
  /-- R463, RC, 16 bit. -/
  | FMP_STATS_SKIPPED
  /-- R463, RC, 16 bit. -/
  | FMP_STATS_DENIED
  /-- R463, RW, 4 bit. -/
  | FMP_RING_SEL_RING
  /-- R463, RWS, 1 bit. -/
  | FMP_RING_CFG_ENABLE
  /-- R463, RWS, 5 bit. -/
  | FMP_RING_CFG_LOG2_ENTRIES
  /-- R463, RWS, 36 bit. -/
  | FMP_RING_CFG_BASE
  /-- R463, RO, 32 bit. -/
  | FMP_RING_STATE_HEAD
  /-- R463, RO, 32 bit. -/
  | FMP_RING_STATE_TAIL
  /-- R463, RO, 3 bit. -/
  | FMP_RING_STATS_STATE
  /-- R463, RC, 16 bit. -/
  | FMP_RING_STATS_EARLY
  /-- R463, RC, 16 bit. -/
  | FMP_RING_STATS_BAD_TAIL
  /-- R463, RO, 3 bit. -/
  | FMP_FW_STATE
  /-- R463, RO, 4 bit. -/
  | FMP_FW_ERROR
  /-- R463, RO, 8 bit. -/
  | FMP_FW_RUN_SVN
  /-- R463, RO, 8 bit. -/
  | FMP_FW_STAGED_SVN
  /-- R463, RO, 8 bit. -/
  | FMP_FW_SVN_MIN
  /-- R463, RO, 4 bit. -/
  | FMP_FUSE_OWNER_PRESENT
  /-- R463, RO, 4 bit. -/
  | FMP_FUSE_OWNER_REVOKED
  /-- R463, RO, 1 bit. -/
  | FMP_FUSE_CLAY_SIG_REQUIRED
  /-- R463, RO, 1 bit. -/
  | FMP_FUSE_DATA_PORT_FMP_OFF
  /-- R463, RO, 1 bit. -/
  | FMP_FUSE_ROM_LOADER_OFF
  /-- R463, RO, 1 bit. -/
  | FMP_FUSE_PENDING
  /-- R463, RO, 64 bit. -/
  | FMP_BOOT_MEAS_DIGEST
  /-- R463, WO, 32 bit. -/
  | FMP_DOORBELL_TAIL
  /-- R488, WO, 1 bit. -/
  | PWR_CTRL_COMMIT
  /-- R488, WO, 1 bit. -/
  | PWR_CTRL_STANDBY
  /-- R488, WO, 1 bit. -/
  | PWR_CTRL_WAKE
  /-- R488, RO, 2 bit. -/
  | PWR_STATUS_STATE
  /-- R488, RO, 1 bit. -/
  | PWR_STATUS_COMMIT_PENDING
  /-- R488, RO, 1 bit. -/
  | PWR_STATUS_THROTTLED
  /-- R488, RO, 1 bit. -/
  | PWR_STATUS_INPUT_OK
  /-- R488, RWS, 12 bit. -/
  | PWR_CFG_CAP
  /-- R488, RWS, 13 bit. -/
  | PWR_CFG_PAD_FLOOR
  /-- R488, RO, 4 bit. -/
  | PWR_PROFILE_PROFILE
  /-- R488, RO, 12 bit. -/
  | PWR_PROFILE_CAP
  /-- R488, RO, 7 bit. -/
  | PWR_PROFILE_SMB_ADDR
  /-- R488, RO, 16 bit. -/
  | PWR_INPUT_MV
  /-- R488, RO, 16 bit. -/
  | PWR_INPUT_CURRENT
  /-- R488, RO, 16 bit. -/
  | PWR_INPUT_POWER
  /-- R488, RC, 16 bit. -/
  | PWR_INPUT_PEAK
  /-- R488, RW, 6 bit. -/
  | PWR_THERM_SEL_SENSOR
  /-- R488, RO, 16 bit. -/
  | PWR_THERM_TEMP
  /-- R488, RC, 16 bit. -/
  | PWR_THERM_MAX
  /-- R488, RO, 16 bit. -/
  | PWR_THERM_HOTTEST
  /-- R488, RO, 13 bit. -/
  | PWR_THROTTLE_PAD
  /-- R488, RO, 2 bit. -/
  | PWR_THROTTLE_CAUSE
  /-- R488, RC, 32 bit. -/
  | PWR_THROTTLE_PADDED
  /-- R489, RO, 3 bit. -/
  | RST_CAUSE_LEVEL
  /-- R489, RO, 7 bit. -/
  | RST_CAUSE_SOURCES
  /-- R489, RO, 32 bit. -/
  | RST_CAUSE_COUNT
  /-- R489, RO, 3 bit. -/
  | RST_MAP_LEVEL
  /-- R489, RO, 48 bit. -/
  | RST_LAST_BEAT_BEAT
  deriving DecidableEq, Repr

/-- The width of the field in bits, as its register table gives it. -/
def Fld.width : Fld → Nat
  | .BEAT_CTRL_START | .BEAT_CTRL_HOLD_REQ | .BEAT_CTRL_RESUME | .BEAT_STATUS_RESUME_REFUSED | .BEAT_STATUS_STRETCHED
    | .BEAT_QPROBE_STATE_VALID | .TIER_CTRL_COMMIT | .TIER_CTRL_HOT_FLUSH | .TIER_STATUS_COMMIT_PENDING
    | .TIER_STATUS_HOT_FLUSH_BUSY | .TIER_STATUS_COMMIT_KEPT | .CELL_ID_DIE | .CELL_CTRL_COMMIT
    | .CELL_ARRAY_STATUS_BUSY | .CELL_ARRAY_STATUS_WAITING | .CELL_ARRAY_STATUS_KEPT | .CELL_RS_CFG_FMT
    | .CELL_RS_CFG_HOLD_EXP | .CELL_RS_CFG_ACTIVE | .CELL_SEQ_CTRL_RESTART | .CELL_SEQ_STATUS_DROPPED
    | .CELL_SEQ_FLAGS_CVT_INVALID | .CELL_SEQ_FLAGS_LOAD_UE | .CLAY_CTRL_LOAD | .CLAY_CTRL_CANCEL | .CLAY_CTRL_ARM
    | .CLAY_CTRL_GROUP_COMMIT | .CLAY_STATUS_ARMED | .CLAY_STATUS_FLIP_REFUSED | .CLAY_STATUS_FLIP_LATE
    | .CLAY_STATUS_LOAD_BUSY | .CLAY_STATUS_ACTIVE_WIDE | .CLAY_STATUS_GROUP_PENDING | .CLAY_RB_SEL_PLANE
    | .CLAY_RB_SEL_VALID | .EMB_CTRL_COMMIT | .EMB_CTRL_SKETCH_CLEAR | .EMB_STATUS_COMMIT_PENDING
    | .EMB_STATUS_RESHARD | .EMB_DRIFT_POLICY_ENABLE | .DRIFT_CMD_GO | .DRIFT_LOAD_SEL_ALL | .DRIFT_HEAVY_EST_VALID
    | .SILT_CTRL_COMMIT | .SILT_STATUS_COMMIT_PENDING | .SILT_STATUS_COMMIT_KEPT | .SILT_NORM_STEP_VALID
    | .SILT_NORM_STEP_NONFINITE | .SILT_TORN_SWEEP_BUSY | .SILT_TORN_SEL_VALID | .SPRING_CTRL_COMMIT
    | .SPRING_CTRL_CLOSE_WINDOW | .SPRING_CTRL_SWAP | .SPRING_CTRL_PAIR_ENABLE | .SPRING_CTRL_PAIR_DISABLE
    | .SPRING_CTRL_SINKS_RECONNECT | .SPRING_STATUS_COMMIT_PENDING | .SPRING_STATUS_RING_HIGH
    | .SPRING_STATUS_BACKPRESSURE | .SPRING_STATUS_LG_AT_RISK | .SPRING_STATUS_ACK_REGRESS | .SPRING_STATUS_PAIR_DOWN
    | .SPRING_STATUS_MIXED_SKIP | .SPRING_CFG_DURABLE_MODE | .SPRING_DURABLE_VALID | .SPRING_MARKED_VALID
    | .SPRING_MARKED_SKIPPED | .SPRING_SINK_STATE_ROLE | .SPRING_SINK_STATE_PROTOCOL | .SEQ_CTRL_COMMIT
    | .SEQ_STATUS_COMMIT_PENDING | .SEQ_STATUS_COMMIT_KEPT | .SEQ_STATUS_ENABLED | .SEQ_STATUS_REJECTED
    | .SEQ_CFG_ENABLE | .SEQ_PAGE_TIER | .COLL_CTRL_COMMIT | .COLL_CTRL_PERM_START | .COLL_CTRL_PERM_ABORT
    | .COLL_STATUS_COMMIT_PENDING | .COLL_STATUS_COMMIT_KEPT | .COLL_STATUS_REJOIN_LATE | .COLL_ROOT_SELF_IN
    | .COLL_ROOT_VALID | .COLL_JOIN_REJOIN | .PORT_CTRL_COMMIT | .PORT_CTRL_RETRAIN | .PORT_CTRL_LANE_CLEAR
    | .PORT_CFG_ENABLE | .PORT_CFG_MODE | .PORT_STATUS_COMMIT_PENDING | .PORT_STATUS_STOPPED
    | .PORT_STATUS_PARTNER_VALID | .XPORT_CTRL_COMMIT | .XPORT_CTRL_QUAR_CLEAR | .XPORT_CTRL_CONN_RESET
    | .XPORT_CTRL_ROCE_REARM | .XPORT_STATUS_COMMIT_PENDING | .XPORT_STATUS_VLOG_WRAPPED
    | .XPORT_STATUS_QUARANTINE_ANY | .XPORT_EP_SEL_SVC | .XPORT_EP_CFG_WATCH | .XPORT_INGEST_MAP_VALID_A
    | .XPORT_INGEST_MAP_VALID_B | .ERR_CTRL_SCRUB_GO | .ERR_CTRL_SCRUB_ABORT | .ERR_CTRL_DMA_RESTART
    | .ERR_CTRL_DMA_RESTART_SKIP | .ERR_CTRL_RETIRE_GO | .ERR_CTRL_LINE_CLEAR | .ERR_CTRL_STACK_CLEAR
    | .ERR_STATUS_EVLOG_WRAPPED | .ERR_DMA_STATE_HALTED | .ERR_EVLOG_SEL_VALID | .ERR_HIST_SEL_VALID
    | .ERR_CLEAR_ADDR_TARGET | .FMP_CTRL_COMMIT | .FMP_STATUS_COMMIT_PENDING | .FMP_STATUS_READY | .FMP_STATUS_SESSION
    | .FMP_STATUS_UNOWNED | .FMP_STATUS_IDENTITY_BAD | .FMP_STATUS_COMMIT_KEPT | .FMP_CFG_SOUNDINGS | .FMP_CFG_EVENTS
    | .FMP_SESSION_VIA | .FMP_RING_CFG_ENABLE | .FMP_FUSE_CLAY_SIG_REQUIRED | .FMP_FUSE_DATA_PORT_FMP_OFF
    | .FMP_FUSE_ROM_LOADER_OFF | .FMP_FUSE_PENDING | .PWR_CTRL_COMMIT | .PWR_CTRL_STANDBY | .PWR_CTRL_WAKE
    | .PWR_STATUS_COMMIT_PENDING | .PWR_STATUS_THROTTLED | .PWR_STATUS_INPUT_OK => 1
  | .BEAT_CTRL_HOLD_MODE | .BEAT_STATUS_STATE | .BEAT_STATUS_HOLD_CAUSE | .CELL_ARRAY_STATUS_LAST_MODE
    | .CELL_ARRAY_STATUS_LAST_PATH | .CELL_SEQ_STATUS_STATE | .SEQ_PAGE_STATE | .COLL_STATUS_PERM_STATE
    | .COLL_PEER_STATE | .XPORT_CFG_CHANNELS_M1 | .XPORT_EP_SEL_CHANNEL | .ERR_STATUS_SCRUB_STATE
    | .ERR_STATUS_RETIRE_STATE | .ERR_STORE_LAST_OUTCOME | .ERR_DMA_SEL_CHANNEL | .FMP_SESSION_KEY | .PWR_STATUS_STATE
    | .PWR_THROTTLE_CAUSE => 2
  | .CELL_ID_ROW | .CELL_ARRAY_STATUS_LAST_STATUS | .CELL_SEQ_STATUS_LOOP_DEPTH | .CELL_REG_SEL_FILE
    | .CLAY_STATUS_LOAD_STATE | .SILT_STATUS_PHASE | .SPRING_SINK_SEL_SINK | .SPRING_SINK_STATE_STATE
    | .SEQ_CFG_LAYERS_M1 | .SEQ_SEL_LAYER | .PORT_STATUS_STATE | .PORT_LANE_STATE | .XPORT_EP_CFG_KIND
    | .XPORT_EP_STATE_CONN | .XPORT_ROCE_SEL_SINK | .XPORT_ROCE_QP_STATE | .ERR_STATUS_DMA_HALTED
    | .ERR_STATUS_RETIRE_RESULT | .ERR_STORE_SEL_KIND | .FMP_RING_STATS_STATE | .FMP_FW_STATE | .RST_CAUSE_LEVEL
    | .RST_MAP_LEVEL => 3
  | .BEAT_OVERRUN_UNIT | .BEAT_QPROBE_STATE_GEN | .TIER_STATUS_KEPT_CLASS | .TIER_CLASS_SEL_CLASS
    | .TIER_STREAM_STREAM | .CELL_ID_COL | .CELL_RS_SEL_HIST | .CELL_RS_CFG_MARGIN | .CELL_RS_HIST_NEXT
    | .CELL_SEQ_STATUS_HOLD_REASON | .CELL_SEQ_STATUS_SLOT | .CLAY_STATUS_ERROR | .DRIFT_CMD_DEST_STACK
    | .DRIFT_STATUS_LAST_RESULT | .SEQ_CFG_KEY_FMT | .SEQ_CFG_VAL_FMT | .SEQ_CFG_MUL_FMT | .SEQ_CFG_IN_FMT
    | .PORT_CFG_LANE_EXCLUDE | .PORT_STATUS_TX_MAP | .PORT_STATUS_RX_MAP | .PORT_STATUS_PARTNER_PORT
    | .XPORT_EP_STATE_SILENCE | .ERR_CLEAR_ADDR_STACK | .FMP_RING_SEL_RING | .FMP_FW_ERROR | .FMP_FUSE_OWNER_PRESENT
    | .FMP_FUSE_OWNER_REVOKED | .PWR_PROFILE_PROFILE => 4
  | .EMB_STATUS_LAST_SUBBATCHES | .SEQ_CFG_WIDTH | .XPORT_INGEST_MAP_MASK_A | .XPORT_INGEST_MAP_MASK_B
    | .FMP_RING_CFG_LOG2_ENTRIES => 5
  | .CELL_ARRAY_CLAMP_LAST_FIELD | .CELL_RS_SEL_ENTRY | .CELL_REG_SEL_INDEX | .CELL_REG_SEL_LANE
    | .CLAY_STATUS_FLIP_BLOCK | .DRIFT_HEAVY_SEL_INDEX | .SPRING_COALESCE_POSITION | .PWR_THERM_SEL_SENSOR => 6
  | .DRIFT_STATUS_IN_FLIGHT | .SPRING_COALESCE_W | .SEQ_SEL_INDEX | .SEQ_PAGE_FILL | .PWR_PROFILE_SMB_ADDR
    | .RST_CAUSE_SOURCES => 7
  | .BEAT_OVERRUN_INDEX | .TIER_CLASS_SEL_INSTANCE | .TIER_BANK_STALL_TARN | .TIER_STREAM_READY | .TIER_STREAM_FILLING
    | .CELL_ID_ID | .CELL_RS_CFG_EXP | .CELL_TRAP_CAUSE | .CELL_TRAP_CODE | .CELL_SEQ_CLAMP_LAST_OPCODE
    | .CLAY_CLAMP_LAST_SECTION | .CLAY_FLIP_DISCARD_MB_DROPPED | .CLAY_RB_SEL_SECTION | .CLAY_RB_SEL_CELL
    | .EMB_DRIFT_POLICY_IMBALANCE | .EMB_DRIFT_POLICY_MAX_MOVES | .SPRING_SINK_STATE_PAIR | .SEQ_SEL_HIST
    | .PORT_FWD_CFG_HOP_LIMIT | .PORT_FWD_CFG_CTRL_TC | .XPORT_INGEST_SEL_STREAM | .ERR_STORE_SEL_INDEX
    | .ERR_DMA_STATE_SKIPPED | .FMP_FW_RUN_SVN | .FMP_FW_STAGED_SVN | .FMP_FW_SVN_MIN => 8
  | .BEAT_QPROBE_STATE_DEPTH | .BEAT_QPROBE_STATE_CREDITS | .BEAT_QPROBE_STATE_OCCUPANCY | .SPRING_CFG_LG_BUDGET
    | .XPORT_VIOL_HEAD | .XPORT_VLOG_SEL_INDEX => 9
  | .SILT_LANES_LOG_IN_USE | .XPORT_CFG_RX_WINDOW => 10
  | .CLAY_COMMIT_GROUP_MASK | .EMB_TABLE_SEL_TABLE | .DRIFT_LOAD_SEL_TABLE | .XPORT_CFG_ACK_CLK | .ERR_EVLOG_HEAD_HEAD
    | .PWR_CFG_CAP | .PWR_PROFILE_CAP => 12
  | .BEAT_STATUS_PHASE | .BEAT_STRETCH_LIMIT | .BEAT_STRETCH_MAX | .BEAT_QPROBE_SEL_QUEUE | .COLL_CFG_PERM_WINDOW
    | .COLL_CFG_QRECV_CLK | .XPORT_INGEST_MAP_QUEUE_A | .XPORT_INGEST_MAP_QUEUE_B | .PWR_CFG_PAD_FLOOR
    | .PWR_THROTTLE_PAD => 13
  | .BEAT_QPROBE_STATE_STALL_CLK | .SEQ_HIST_LENGTH | .XPORT_CFG_RTO_CLK => 14
  | .CELL_SEQ_CTRL_RESTART_PC | .CELL_SEQ_STATUS_PC | .CELL_SEQ_PROG_BASE | .CELL_TRAP_PC | .COLL_LEASE_HELD => 15
  | .TIER_HOLE_COUNT | .TIER_BANK_STALL_LAST_BEAT | .CELL_ARRAY_OPS_NOOP | .CELL_SEQ_PROG_LENGTH
    | .CELL_SEQ_ISSUED_MACROS | .CELL_SEQ_FLAGS_CVT_COUNT | .CELL_SEQ_FLAGS_UE_COUNT | .CELL_TRAP_BEAT
    | .CLAY_FLIP_DISCARD_QUIESCE_SKIPPED | .EMB_HOT_CFG_ADMIT_THRESHOLD | .EMB_HOT_CFG_DECAY_BEATS
    | .EMB_TABLE_EXCL_INVALID | .EMB_TABLE_EXCL_ERR | .EMB_TABLE_EXCL_TIMEOUT | .EMB_TABLE_EXCL_FULL
    | .EMB_COALESCE_OVERFLOW | .EMB_COALESCE_SAT | .EMB_REPLY_FWD_LIMIT | .EMB_REPLY_TORN_FULL | .EMB_HOT_STATS_ADMITS
    | .EMB_HOT_STATS_EVICTIONS | .DRIFT_CMD_DEST_RANK | .DRIFT_PROBE_EST_EST | .DRIFT_STATS_DONE
    | .DRIFT_STATS_ABORTED | .DRIFT_STATS_DUP_DISCARD | .DRIFT_STATS_REFUSED | .DRIFT_FWD_SET_FULL
    | .DRIFT_HEAVY_EST_EST | .SILT_MERGE_USE_FULL | .SILT_MERGE_USE_UNSCHEDULED | .SILT_DISCARD_DUPLICATE
    | .SILT_DISCARD_AHEAD | .SILT_NORM_STEP_SKIPPED | .SILT_ROWS_CREATED | .SILT_ROWS_NONFINITE
    | .SILT_LANES_CONFLICT_WAIT | .SILT_TORN_UPD_DROPPED | .SILT_TORN_DEFERRED | .SPRING_CFG_ACK_TIMEOUT
    | .SPRING_SINK_STATS_FAILOVERS | .SPRING_SINK_STATS_INCARNATIONS | .SPRING_COALESCE_EARLY
    | .SPRING_REFILL_MALFORMED | .SPRING_REFILL_REFUSED | .SPRING_DENSE_OWNERS_OWNERS | .SEQ_PAGES_LIVE_T
    | .SEQ_PAGES_LIVE_H | .SEQ_PAGES_QUAR | .SEQ_PAGES_HISTS | .SEQ_EVENTS_LIMIT | .SEQ_EVENTS_OVF
    | .SEQ_FAULTS_NO_PAGE | .SEQ_FAULTS_BAD_REQUEST | .SEQ_FAULTS_DISABLED | .SEQ_FAULTS_UE | .SEQ_MOVES_COW
    | .SEQ_MOVES_SPILLS | .SEQ_MOVES_PREFETCHES | .SEQ_MOVES_CANCELLED | .SEQ_SEL_PAGE | .SEQ_HIST_ENTRY
    | .SEQ_HIST_PENDING | .SEQ_PAGE_REFCOUNT | .COLL_CFG_LEASE_BEATS | .COLL_DIR_COUNT | .COLL_PEER_SEL_RANK
    | .COLL_MISSING_ROOT | .COLL_MISSING_PUSH_LOST | .COLL_STALE_REPLIES | .COLL_STALE_DROPPED
    | .COLL_STALE_USED_CURRENT | .COLL_STALE_SERVED | .COLL_LEASE_NO_ROOM | .COLL_LEASE_EXPIRED | .COLL_ROOT_ROOT
    | .COLL_ROOT_STEP | .COLL_PERM_SKIPPED | .COLL_PERM_IN_FLIGHT | .COLL_BASIN_BAD | .PORT_STATUS_PARTNER_ID
    | .PORT_LANE_FAILS | .PORT_SYM_LAST_BEAT | .PORT_DROPS_BAD | .PORT_DROPS_STOMPED | .PORT_DROPS_BUF_FULL
    | .PORT_DROPS_OTHER | .PORT_TRAIN_ATTEMPTS | .PORT_TRAIN_RETRAINS | .PORT_FWD_CFG_OWN_ID | .PORT_FWD_DEFAULT_ENTRY
    | .PORT_FWD_STATS_NO_ROUTE | .PORT_FWD_STATS_HOP | .PORT_FWD_TABLE_ENTRY | .XPORT_CFG_GT_UDP_PORT
    | .XPORT_EP_SEL_ENDPOINT | .XPORT_CONN_STATS_DISCARDED | .XPORT_CONN_STATS_VIOLATIONS | .XPORT_VIOL_COUNT
    | .XPORT_VIOL_QUARANTINES | .XPORT_VIOL_NAK_SUPPRESSED | .XPORT_GSR_MALFORMED | .XPORT_GSR_TRUNCATED
    | .XPORT_GSR_DROP_STALE | .XPORT_GSR_DROP_LATE_MB | .XPORT_ROCE_STATS_RETRIES | .XPORT_ROCE_STATS_ERRORS
    | .XPORT_ROCE_STATS_RNR | .XPORT_ROCE_STATS_DISCARDED | .ERR_STATUS_STATE_LOST | .ERR_STORE_COUNT_UE
    | .ERR_STORE_COUNT_POISON | .ERR_RETIRE_STATS_LEFT | .FMP_CFG_UDP_PORT | .FMP_CFG_IDLE_S | .FMP_STATS_BAD_TAG
    | .FMP_STATS_BAD_HEADER | .FMP_STATS_SKIPPED | .FMP_STATS_DENIED | .FMP_RING_STATS_EARLY
    | .FMP_RING_STATS_BAD_TAIL | .PWR_INPUT_MV | .PWR_INPUT_CURRENT | .PWR_INPUT_POWER | .PWR_INPUT_PEAK
    | .PWR_THERM_TEMP | .PWR_THERM_MAX | .PWR_THERM_HOTTEST => 16
  | .COLL_STATUS_LIVE | .COLL_ROOT_INCLUDED | .ERR_RETIRE_STATS_PAGES => 17
  | .BEAT_STEP_OFFSET | .DRIFT_MAP_USE_CACHED | .SILT_TORN_COUNT | .SILT_TORN_SEL_INDEX | .ERR_EVLOG_SEL_INDEX
    | .ERR_HIST_SEL_INDEX => 20
  | .CELL_ARRAY_STATUS_LAST_DESC | .CELL_ARRAY_UE_LAST_OFFSET => 21
  | .TIER_WINDOW_BASE | .DRIFT_MAP_USE_RESIDENT | .DRIFT_MAP_USE_MOVED => 22
  | .CLAY_CLAMP_LAST_RECORD | .CLAY_RB_SEL_RECORD | .SEQ_PAGE_FRAME | .XPORT_ROCE_QP_NEXT_PSN
    | .XPORT_ROCE_QP_START_PSN => 24
  | .ERR_RETIRE_ADDR_PAGE => 28
  | .CLAY_SRC_LEN_LENGTH => 29
  | .ERR_RETIRE_STATS_MOVED => 31
  | .BEAT_STRETCH_COUNT | .TIER_CLASS_REGION_BASE | .TIER_CLASS_REGION_SIZE | .TIER_CLASS_USE_IN_USE
    | .TIER_CLASS_USE_PEAK | .TIER_CLASS_EVENTS_FULL | .TIER_CLASS_EVENTS_OUTCOME | .TIER_BANK_STALL_TOTAL
    | .TIER_HOT_DIRTY_W | .TIER_HOT_DIRTY_E | .TIER_STREAM_WAIT_CLK | .CELL_ARRAY_BUSY_LAST_BEAT
    | .CELL_ARRAY_BUSY_TOTAL | .CELL_TILE_WAIT_LAST_BEAT | .CELL_TILE_WAIT_TOTAL | .CELL_ARRAY_CLAMP_COUNT
    | .CELL_ARRAY_UE_COUNT | .CELL_RS_AMAX_CUR_AMAX | .CELL_RS_AMAX_H | .CELL_RS_HIST_VALUE | .CELL_RS_OVF_OVF
    | .CELL_RS_OVF_INF_AMAX | .CELL_SEQ_STALL_LAST_BEAT | .CELL_SEQ_STALL_TOTAL | .CELL_SEQ_CLAMP_COUNT
    | .CLAY_SRC_BASE | .CLAY_GEN_ACTIVE | .CLAY_GEN_SHADOW | .CLAY_CLAMP_COUNT | .CLAY_FLIP_DISCARD_COUNT
    | .EMB_TABLE_COUNT_FETCHED | .EMB_TABLE_COUNT_ABSENT | .EMB_COALESCE_UNKNOWN | .EMB_REPLY_LATE
    | .EMB_HOT_STATS_HITS | .EMB_RESHARD_FWD_TO_OLD | .EMB_RESHARD_CREATED_AT_NEW | .DRIFT_FWD_FORWARDED
    | .DRIFT_LOAD_LOOKUPS | .DRIFT_LOAD_UPDATES | .SILT_MERGE_BASE | .SILT_MERGE_SIZE | .SILT_MERGE_USE_IN_USE
    | .SILT_MERGE_STATS_KEYS | .SILT_MERGE_STATS_CONTRIB | .SILT_DISCARD_FROZEN | .SILT_NORM_PART_HI
    | .SILT_NORM_PART_LO | .SILT_NORM_G_HI | .SILT_NORM_NORM | .SILT_ROWS_APPLIED | .SILT_LANES_LOG_WAIT
    | .SILT_REFILL_INSTALLED | .SILT_REFILL_DISCARDED | .SPRING_EPOCH_EPOCH | .SPRING_RING_USE_USED
    | .SPRING_RING_USE_PEAK | .SPRING_UNSENT_UNSENT | .SPRING_UNSENT_PEAK | .SPRING_SINK_STATS_RESENT
    | .SPRING_COALESCE_MERGED | .SPRING_REFILL_ACCEPTED | .SEQ_FRAMES_T_FRAMES | .SEQ_FRAMES_H_FRAMES
    | .SEQ_EVENTS_APPENDED | .SEQ_KAMAX_AMAX | .COLL_DIR_BASE | .COLL_LATE_ADDED | .COLL_LATE_DROPPED
    | .COLL_MISSING_CHAIN | .COLL_PERM_MOVED | .COLL_BASIN_ACCUM | .PORT_FEC_CORRECTED | .PORT_FEC_UNCORRECTED
    | .PORT_SYM_TOTAL | .PORT_FRAMES_RX | .PORT_FRAMES_TX | .PORT_TRAIN_LAST_TIME | .PORT_FWD_STATS_FORWARDED
    | .XPORT_STATUS_INCARNATION | .XPORT_EP_STATE_PEER_INC | .XPORT_CONN_STATS_RETX | .XPORT_TOTALS_RX
    | .XPORT_TOTALS_TX | .XPORT_GSR_RECORDS | .XPORT_GSR_DROP_SKIPPED_BYTES | .ERR_STORE_COUNT_CE
    | .ERR_SCRUB_SUM0_LINES | .ERR_SCRUB_SUM0_CORRECTED | .ERR_SCRUB_SUM1_UE | .ERR_SCRUB_SUM1_POISONED
    | .ERR_EVLOG_HEAD_SUPPRESSED | .FMP_SESSION_ID | .FMP_RING_STATE_HEAD | .FMP_RING_STATE_TAIL | .FMP_DOORBELL_TAIL
    | .PWR_THROTTLE_PADDED | .RST_CAUSE_COUNT => 32
  | .ERR_SCRUB_LEN_LINES => 35
  | .FMP_RING_CFG_BASE => 36
  | .ERR_SCRUB_BASE_LINE | .ERR_SCRUB_NEXT_LINE | .ERR_SCRUB_FIRST_UE_LINE | .ERR_SCRUB_LAST_UE_LINE
    | .ERR_CLEAR_ADDR_LINE => 42
  | .BEAT_STEP_STEP | .BEAT_START_STEP_STEP | .SILT_STATUS_STEP | .SILT_NORM_STEP_STEP | .SPRING_DURABLE_STEP
    | .SPRING_MARKED_STEP | .SPRING_OPEN_BASE_BASE | .COLL_PEER_JOIN_STEP | .COLL_JOIN_JOIN_STEP => 44
  | .BEAT_OVERRUN_BEAT | .BEAT_QPROBE_TOTAL_SENT | .TIER_HOLE_LAST | .CELL_ARRAY_OPS_RETIRED | .CELL_SEQ_ISSUED_COUNT
    | .CELL_TRAP_ADDR_DETAIL | .CLAY_FLIP_BEAT_BEAT | .CLAY_LOAD_TIME_CLK | .SPRING_SINK_STATE_INCARNATION
    | .PORT_MAC_MAC | .PORT_NEIGHBOR_MAC_MAC | .PORT_FWD_PREFIX_LO_PREFIX | .ERR_STORE_LAST_ADDR | .ERR_DMA_STATE_ADDR
    | .RST_LAST_BEAT_BEAT => 48
  | .BEAT_COUNT_COUNT | .CELL_TRAP_INSN_INSN | .CELL_REG_DATA_DATA | .CLAY_RB_DATA_DATA | .CLAY_MEAS_ACTIVE_DIGEST
    | .CLAY_MEAS_SHADOW_DIGEST | .CLAY_CELL_FAIL_FAILED | .EMB_WORK_ITEM | .DRIFT_CMD_KEY_KEY | .DRIFT_PROBE_KEY_KEY
    | .DRIFT_PROBE_LOCATION | .DRIFT_HEAVY_KEY_KEY | .SILT_TORN_KEY_KEY | .SILT_WORK_ITEM | .SPRING_SEQ_NEXT_SEQ
    | .SPRING_SEQ_RETAINED_SEQ | .SPRING_DURABLE_SEQ_SEQ | .SPRING_SINK_ACKED_SEQ | .SPRING_SINK_ACK_SEQ
    | .SEQ_KEXP_KEXP | .COLL_WORK_ITEM | .PORT_FWD_PREFIX_HI_PREFIX | .XPORT_VLOG_DATA_DATA | .XPORT_SVC_ADDR_HI_ADDR
    | .XPORT_SVC_ADDR_LO_ADDR | .ERR_EVLOG_DATA_DATA | .ERR_HIST_DATA_DATA | .FMP_MGMT_ADDR_HI_ADDR
    | .FMP_MGMT_ADDR_LO_ADDR | .FMP_BOOT_MEAS_DIGEST => 64

/-- The reset value of the field, as its register table gives it (0 where the table names none). -/
def Fld.reset : Fld → Nat
  | .SPRING_COALESCE_W | .SEQ_CFG_WIDTH | .XPORT_CFG_CHANNELS_M1 | .FMP_CFG_SOUNDINGS | .FMP_CFG_EVENTS
    | .RST_CAUSE_SOURCES => 1
  | .SEQ_CFG_VAL_FMT | .SEQ_CFG_MUL_FMT => 2
  | .SEQ_CFG_KEY_FMT | .FMP_RING_CFG_LOG2_ENTRIES => 4
  | .PORT_STATUS_STATE => 5
  | .CELL_SEQ_STATUS_SLOT => 15
  | .FMP_CFG_IDLE_S => 30
  | .EMB_DRIFT_POLICY_IMBALANCE => 32
  | .PORT_FWD_CFG_HOP_LIMIT => 64
  | .PWR_PROFILE_SMB_ADDR => 88
  | .PORT_FWD_CFG_CTRL_TC => 184
  | .BEAT_OVERRUN_INDEX | .SPRING_SINK_STATE_PAIR => 255
  | .SPRING_CFG_LG_BUDGET | .COLL_CFG_PERM_WINDOW | .XPORT_CFG_RX_WINDOW | .XPORT_CFG_ACK_CLK => 256
  | .SPRING_CFG_ACK_TIMEOUT | .COLL_CFG_LEASE_BEATS => 1024
  | .PWR_CFG_CAP | .PWR_PROFILE_CAP => 1950
  | .XPORT_CFG_RTO_CLK => 2048
  | .COLL_CFG_QRECV_CLK => 3968
  | .XPORT_CFG_GT_UDP_PORT => 47008
  | .FMP_CFG_UDP_PORT => 47009
  | .SEQ_HIST_ENTRY | .SEQ_HIST_PENDING => 65535
  | .SPRING_OPEN_BASE_BASE => 17592186044415
  | .SPRING_DURABLE_SEQ_SEQ | .SPRING_SINK_ACKED_SEQ => 18446744073709551615
  | _ => 0

end Sys2Proof.Machine
end

