-- ==== Sys2Proof/Machine/SMap.lean ====
section
/-!
DEFINITION. Sparse maps in one canonical form: a list of (key, value) pairs, keys strictly rising, no value equal to
what an unlisted key reads as. Memory, register files, directories and the other keyed stores of the state are held so.
-/
namespace Sys2Proof

/-- A sparse map from natural-number keys. -/
abbrev SMap (α : Type) := List (Nat × α)

namespace Sparse

/-- The value at `k`; `d` is what an unlisted key reads as. -/
def get {α : Type} (d : α) : SMap α → Nat → α
  | [], _ => d
  | (j, v) :: rest, k => if j = k then v else get d rest k

/-- Puts a pair in front of the first larger key. -/
def put {α : Type} (k : Nat) (v : α) : SMap α → SMap α
  | [] => [(k, v)]
  | (j, w) :: rest => if k < j then (k, v) :: (j, w) :: rest else (j, w) :: put k v rest

/-- The map without key `k`. -/
def del {α : Type} (k : Nat) : SMap α → SMap α
  | [] => []
  | (j, v) :: rest => if j = k then del k rest else (j, v) :: del k rest

/-- The map with `k` reading as `v`. Writing what an unlisted key reads as removes the entry. -/
def set {α : Type} [DecidableEq α] (d : α) (m : SMap α) (k : Nat) (v : α) : SMap α :=
  if v = d then del k m else put k v (del k m)

/-- Every key is larger than `b`, and keys rise. -/
def risingFrom {α : Type} (b : Nat) : SMap α → Bool
  | [] => true
  | (j, _) :: rest => decide (b ≤ j) && risingFrom (j + 1) rest

/-- The canonical form: keys strictly rising, no entry equal to `d`. -/
def wf {α : Type} [DecidableEq α] (d : α) (m : SMap α) : Bool :=
  risingFrom 0 m && m.all (fun p => !decide (p.2 = d))

/-- The listed keys, lowest first. -/
def keys {α : Type} (m : SMap α) : List Nat := m.map Prod.fst

end Sparse
end Sys2Proof
end

