-- ==== Sys2Proof/Machine/State.lean ====
section
/-!
DEFINITION. The state of the module as plain data, why a step can stop, and the machine right after reset.
Register fields live in `regs` under their own names (Fld), read through `State.get`; every other piece of state has a
field or a `Var` of its own. Each docstring names the rules of the spec that give it.
-/
namespace Sys2Proof.Machine

/-- Why the machine stops with a fault. No command of this model raises one: an event whose condition the spec states
and which does not hold leaves the state as it is (notes/assumptions/7.md). -/
inductive Fault where
  /-- Not raised by any command; safe. -/
  | never
  deriving DecidableEq, Repr

/-- Why the model gives a command no meaning. -/
inductive Refusal where
  /-- The command has no meaning in the model yet; raised by the dispatch alone. Safe: nothing can be proved of it. -/
  | notModelled (mnemonic : String)
  deriving DecidableEq, Repr


/-- Internal counts and conditions that the rules imply and no register shows. -/
inductive Var where
  /-- Clk since the model began (R13). -/
  | clk
  /-- START has landed: 1 while the boundary that opens beat 0 is due (R43). -/
  | startAt
  /-- The boundary: 0 not due, 1 the retire check has passed, 2 clk 0 and 1 have run with a flip, 3 clk 0 has run and clk 1 is
  under way (R22, R180). -/
  | boundaryDue
  /-- Clk by which the current beat is stretched so far, plus one once its retire check has found an unretired slice (R25). -/
  | stretchNow
  /-- A HOLD_REQ waits for its boundary (R28). -/
  | holdPending
  /-- A fault of R153, R422 or R423 waits for the system controller (R28). -/
  | faultPending
  /-- Kinds of fault since the HOLD began: bit 0 a cell trap, bit 1 anything else (R28, R490). -/
  | faultKinds
  /-- A Clay image became active since the HOLD began (R28). -/
  | imageSinceHold
  /-- The BEAT_COUNT at which the step in `originStep` began (R30, R184). -/
  | originBeat
  /-- The step that began at `originBeat` (R30, R184). -/
  | originStep
  /-- Beats of RESUME_GRACE left (R189). -/
  | graceLeft
  /-- A CELL_CTRL.COMMIT waits for its boundary, per cell (R125). -/
  | cellCommit
  /-- Slices of a micro-batch slot issued in the current step, per slot (R31). -/
  | mbIssued
  /-- Slices of a micro-batch slot retired in the current step, per slot (R31). -/
  | mbRetired
  /-- The micro-batch of a slot is dropped, per slot (R84). -/
  | mbDropped
  /-- The step, plus 1, in which the micro-batch of a slot was last found late at ingest, per slot (R406). -/
  | mbLate
  /-- Why the micro-batch of a slot is dropped at the next boundary: 1 or 2 STASH_EXHAUSTED on die W or E, 3 KV_EXHAUSTED, 4 a receive's deadline, per slot (R84, R343). -/
  | mbDropNext
  /-- A micro-batch is in recompute mode, per cell * 16 + slot (R84). -/
  | mbRecompute
  /-- Clk a cell's sequencer was held in the current beat, per cell (R137). -/
  | cellStall
  /-- Clk requesters of a Tarn waited in the current beat, per Tarn (R77). -/
  | tarnStall
  /-- Clk a cell's array operations waited for the tile in the current beat, per cell (R121). -/
  | tileWait
  /-- Busy clk of a cell's array in the current beat, per cell (R120). -/
  | arrayBusy
  /-- TAG and status of the last array operation, per cell: status in [34:32], TAG in [31:0] (R143). -/
  | lastAopTag
  /-- Fills begun by a weight stream, which fix the layer of the next one, per stream (R92). -/
  | streamPos
  /-- Layer a weight-stream slot holds, per stream * 8 + slot (R90). -/
  | slotLayer
  /-- Bytes filled into a weight-stream slot, per stream * 8 + slot (R91). -/
  | slotFilled
  /-- A release waits for its boundary, per stream * 8 + slot (R91). -/
  | slotRelease
  /-- How many free values have been taken (notes/assumptions/4.md). -/
  | freeCount
  /-- The clk at which the timer froze or the module stopped (R429). -/
  | frozenAt
  /-- A restarted sequencer resumes when the beat timer next runs, per cell (R154). -/
  | seqRestart
  /-- Discards that a COLLECTIVE queue owes, per queue (R343). -/
  | qOwed
  /-- Requester of a Tarn that the rotation favours, per Tarn (R78). -/
  | bankPtr
  /-- Dequeues of a cross-module queue that no QCREDIT has reported, per queue (R395). -/
  | qReport
  /-- Tokens that a cell consumer's buffer has taken in, per queue: the next one goes to that place, modulo the depth (R36). -/
  | qPlace
  /-- clk, plus one, since which a unit holds a slice for a queue's credit, or since the last latch, per queue (R37). -/
  | qHeldAt
  /-- clk, plus one, since which a cell's instruction holds, or since the last latch, per cell (R137). -/
  | heldAt
  /-- Held clk of a cell's instruction that a latch has counted, per cell (R137). -/
  | heldSeen
  /-- Weight streams that a cell's instruction holds for, as a mask, per cell (R91). -/
  | heldFor
  /-- The request id of the next lookup a unit sends, per die (notes/assumptions/30.md). -/
  | reqNext
  /-- Keys received from a rank since its last end marker, per rank * 2 and 1 for pushes (R349). -/
  | endKeys
  /-- A SKETCH_CLEAR waits for its boundary, per die (R221). -/
  | sketchClear
  /-- BEAT_COUNT plus one at the last halving, per die (R221). -/
  | decayAt
  /-- The last gasp: 0 none, 1 input lost, 2 slices stopped, 3 flushing, 4 ended (R293). -/
  | lgPhase
  /-- The pair that the last gasp flushes to, by its lowest sink, plus one (R293). -/
  | lgPair
  /-- Bytes sent in the last-gasp flush (R293). -/
  | lgSent
  /-- The SEQ of the last record sent in the flush, plus one (R278, R430). -/
  | lgLast
  /-- Corrected symbols of a lane in the current beat, per port * 4 + lane (R363). -/
  | portSym
  /-- Uncorrectable codewords of a port in the current beat (R363). -/
  | portUnc
  /-- BEAT_COUNT at the last valid frame of an endpoint, per endpoint (R397). -/
  | heardAt
  /-- Stream at which the ingest channel halted, plus one (R421). -/
  | ingestHalt
  /-- Lines the scrub pass has still to read (R415). -/
  | scrubLeft
  /-- DPA of the page under retirement, plus one (R426). -/
  | retirePage
  /-- Rows moved by the retirement under way (R428). -/
  | retireRows
  /-- Rows the retirement under way left in place (R428). -/
  | retireLeft
  /-- The retirement's walk has revisited the rows it passed over (R427). -/
  | retireRevisit
  /-- Entries of the error history since manufacture (R430). -/
  | histCount
  /-- A hot flush samples the dirty copies once no lane has an update in flight (R89). -/
  | flushWait
  /-- The current beat is a quiesce beat (R33). -/
  | quiesce
  /-- A boundary has run to its end and the HOLD asked for is due (R28). -/
  | holdDue
  /-- Pad in effect for the current beat (R472). -/
  | padNow
  /-- Stretched beats since the last Sounding (R462). -/
  | stretchSince
  /-- Alert status (R482). -/
  | alert
  /-- THERM_WARN_N is asserted (R471). -/
  | thermWarn
  /-- PWR_OK_OUT is released (R465). -/
  | pwrOk
  /-- A thermal trip keeps the rails off (R474). -/
  | tripped
  /-- The rails are off after a flush (R467). -/
  | railsOff
  /-- All rails have fallen (R467). -/
  | unpowered
  /-- The bulk capacitance is fully charged (R465). -/
  | bulk
  /-- CLIP_SENSE has mated (R486). -/
  | clip
  /-- MOD_RESET_N holds the module in reset (R479). -/
  | pinLow
  /-- Sources of the resets pending, bit per source (R476). -/
  | rstPend
  /-- Level of the resets pending plus one: the lowest-numbered (R476). -/
  | rstLevel
  /-- Level that a RESET message asks for plus one, and the clk at which it is due (R449). -/
  | rstAsk
  /-- Clk at which the reset of a RESET message follows its reply (R449). -/
  | rstDueAt
  /-- Profile that the PROFILE_SEL strap selects (R480). -/
  | strap
  /-- BEAT_COUNT plus one of the last Sounding in RUNNING (R462). -/
  | soundAt
  /-- A FW_UPDATE programs the image area (R439). -/
  | fwBusy
  /-- A reset has left retained sinks without connections (R272). -/
  | sinksHeld
  /-- The clk at which the error-history read that ERR_HIST_SEL began completes (R431). -/
  | histReady
  /-- The pad that firmware has reached, before the floor (R473). -/
  | padP
  /-- Why that pad last grew: 1 temperature, 2 power (R473). -/
  | padWhy
  /-- The STATUS_LED code that a reset at level 2 holds until READY, plus one (R484). -/
  | ledHeld
  deriving DecidableEq, Repr

/-- What leaves the module. -/
inductive OutKind where
  /-- A GT frame to an endpoint: opcode, channel, FLAGS, INCARNATION, SEQ, ACK, CREDIT, GEN, STEP, ARG0, ARG1, VERSION,
  LENGTH, HCRC; then the payload (R381). -/
  | gt
  /-- A RoCEv2 packet to a sink: operation, PSN, destination queue pair, remote address, remote key, length, immediate,
  P_Key, ICRC; then the data (R401). -/
  | roce
  /-- A frame forwarded: the IPv6 destination's endpoint id (65,536 outside the prefix), Hop Limit, Traffic Class and 1
  for a stomped FCS; then its other bytes (R370 to R373). -/
  | transit
  /-- An alignment codeword of a port, as the number its field block spells, or with no number a change marker (R361, R364). -/
  | align
  /-- An FMP frame to an address and UDP port: 0 management port, 1 data port; then header, fragment and tag (R442). -/
  | fmp
  /-- A frame of the management port that is not FMP: a Neighbor Advertisement (R441). -/
  | mgmt
  /-- Bytes that an SMBus read returns, with their packet error code; or, from the alert address, the target's own (R482). -/
  | smbus
  deriving DecidableEq, Repr


/-- A credited queue (R34 to R42): its depth and generation tag, the producer's credits, the tokens on their way and in
the consumer's buffer, the credits on their way back, and what the probe counts. -/
structure Queue where
  /-- Depth in tokens, 0 for a queue the image does not declare. -/
  depth   : Nat := 0
  /-- Generation tag of the queue (R39). -/
  gen     : Nat := 0
  /-- Credits the producer holds. -/
  credits : Nat := 0
  /-- Tokens waiting at the consumer, oldest first. -/
  buf     : List Token := []
  /-- Tokens in flight with their generation tags, oldest first. -/
  flight  : List (Token × Nat) := []
  /-- Generation tags of credits in flight, oldest first. -/
  back    : List Nat := []
  /-- Tokens sent since START (48 bits). -/
  sent    : Nat := 0
  /-- clk the producer held a slice for lack of credit in this beat. -/
  stall   : Nat := 0
  /-- The probe's latch of clk 3: DEPTH, CREDITS, OCCUPANCY, GEN, STALL_CLK, SENT and VALID (R42). -/
  latch   : List Nat := []
  deriving DecidableEq, Repr

/-- What happens to one queue. Every change of a queue is one of these, so that R42 can be shown once for each. -/
inductive QOp where
  /-- A new generation re-credits the queue; `home` says that its producer is in this module (R36, R39, R188). -/
  | recredit (depth gen : Nat) (home keepFlight : Bool)
  /-- The image no longer declares the queue. -/
  | remove (keepFlight : Bool)
  /-- A send inside the module takes a credit and the token departs (R37). -/
  | send (t : Token)
  /-- A send to another module takes a credit; the token leaves in a frame (R41). -/
  | sendOut
  /-- The oldest token in flight arrives (R35) and is kept if its tag is the queue's (R39). -/
  | arrive
  /-- The consumer dequeues a token and a credit departs on the same clk (R38). -/
  | deq
  /-- The consumer dequeues a token of another module; the credit leaves in a frame (R41). -/
  | deqOut
  /-- The oldest credit in flight arrives (R38, R39). -/
  | creditArrive
  /-- A token of another module arrives in a frame and finds room (R41, R491). -/
  | recvRemote (t : Token)
  /-- A credit of another module arrives in a frame (R41). -/
  | creditRemote
  /-- Held clk of the producer (R37). -/
  | stalled (n : Nat)
  /-- The latch of clk 3 (R42), which also starts the next beat's stall count. -/
  | latch
  /-- START begins the count of tokens sent (R43). -/
  | zero
  deriving DecidableEq, Repr

/-- One slice of the current beat (R19, R161). `st`: 0 listed, 1 issued, 2 ended by SLEND, 3 retired. `ops`: operations
it has started that have not completed. -/
structure Slice where
  kind   : Nat
  index  : Nat
  target : Nat
  slot   : Nat
  st     : Nat := 0
  ops    : Nat := 0
  deriving DecidableEq, Repr

/-- One level of a sequencer's loop state (R145): body length, iterations remaining (the current one among them), body
start and the index of the current iteration. -/
structure Loop where
  body  : Nat
  left  : Nat
  start : Nat
  iter  : Nat := 0
  deriving DecidableEq, Repr

/-- A 4 KiB stash block (R84): its cell, micro-batch slot and tag, its age, whether it is spilled, and its 4 KiB frame
in STASH_T or STASH_H. -/
structure StashBlk where
  cell    : Nat
  slot    : Nat
  tag     : Nat
  age     : Nat
  spilled : Bool
  frame   : Nat
  deriving DecidableEq, Repr

/-- One WFILL whose bytes are on their way: the cell that issued it, the stream, slot and the bytes of the layer, and the
DPA of the layer's first element in the bank that the shard's header named when it issued, or that the header could not be
read (R264, R418). -/
structure Fill where
  cell   : Nat
  stream : Nat
  slot   : Nat
  lo     : Nat
  len    : Nat
  src    : Nat
  bad    : Bool
  deriving DecidableEq, Repr

/-- An array operation not yet retired (R100, R120): its descriptor's Tarn offset, the descriptor as read when it
issued, whether it holds the tile token, whether its slice's micro-batch is dropped (R84), and whether its descriptor could
not be read (R123). -/
structure ArrOp where
  off  : Nat
  desc : Nat
  tile : Bool := false
  drop : Bool := false
  lost : Bool := false
  deriving DecidableEq, Repr

/-- The cells' register files and engines beyond their control registers (R127, R98, R105, R145). -/
structure Cells where
  /-- V registers, keyed cell * 64 + register. -/
  v : SMap Token := []
  /-- S registers, keyed cell * 32 + register. -/
  s : SMap Word := []
  /-- M registers, keyed cell * 16 + register. -/
  m : SMap Word := []
  /-- A registers, keyed cell * 16 + register. -/
  a : SMap (BitVec 48) := []
  /-- Loop stacks, innermost first, per cell. -/
  loops : SMap (List Loop) := []
  /-- The held instruction of a cell: its opcode and fields. -/
  held : SMap (Option (Nat × CellWord)) := []
  /-- Stash blocks. -/
  stash : List StashBlk := []
  /-- Weight fills on their way. -/
  fills : List Fill := []
  /-- Values a keeping operation left in a tile, as A patterns (R109), keyed cell * 2^32 + i * 2^16 + j (R122). -/
  tiles : SMap Nat := []
  /-- Array operations not yet retired, oldest first, per cell. -/
  aops : SMap (List ArrOp) := []
  deriving DecidableEq, Repr

/-- An event entry (R429). -/
structure Event where
  code   : Nat
  unit   : Nat
  store  : Nat
  index  : Nat
  d0     : Nat
  d1     : Nat
  beat   : Nat
  phase  : Nat
  deriving DecidableEq, Repr

/-- The event log and the error history (R429, R430). -/
structure Logs where
  /-- Events of the current beat, oldest first. -/
  pend : List Event := []
  /-- The event log, keyed by entry. -/
  log  : SMap (Option Event) := []
  /-- Events posted in the current window of R429, keyed by code * 65,536 + index. -/
  win  : SMap Nat := []
  /-- The number of the current 4,096 clk window of R429, in HOLD and STOPPED. -/
  winNo : Nat := 0
  /-- What the error history still has to append: code, unit, store, index, DETAIL0, DETAIL1. -/
  owed : List Event := []
  /-- The error history as 64 B records, keyed by entry. -/
  hist : SMap Nat := []
  deriving DecidableEq, Repr

/-- A Clay image in effect after clamping (R155 to R171): header record, section records in record order, the joined
SCHEDULE lists, the program of each cell, and what the load found. Records are little-endian byte strings held as
numbers. -/
structure Image where
  hdr    : Nat := 0
  /-- Records of each section, keyed by section type. -/
  secs   : SMap (List Nat) := []
  /-- SCHEDULE: kind, index, entries; ascending (R161, R190). -/
  sched  : List (Nat × Nat × List Nat) := []
  /-- PROGRAMS in effect: cell, base, length. -/
  progs  : List (Nat × Nat × Nat) := []
  /-- How PROGRAMS gives a cell its program: 0 a body of its own, 1 + c the body of cell c, 0x200 no record (R158, R162). -/
  progSrc : SMap Nat := []
  /-- Layer entries (R165), keyed by LAYER_TABLE. -/
  layers : SMap (List Nat) := []
  /-- The 32 B header of OPTIMISERS, and whether the image carries the section. -/
  optHdr : Nat := 0
  hasOpts : Bool := false
  /-- The measurement (R173, R176). -/
  meas   : Nat := 0
  wide   : Bool := false
  /-- Dies whose SEQ_CFG preset was rejected (R311). -/
  rejected : List Nat := []
  deriving DecidableEq, Repr

/-- The command engine's planes (R175) and the load in progress (R172). -/
structure Clay where
  active : Option Image := none
  shadow : Option Image := none
  /-- The staged bytes as the first pass reads them, while a load is in progress, and the clk at which it began. -/
  staged : List Nat := []
  began  : Nat := 0
  /-- The measurement the first pass formed. -/
  meas   : Nat := 0
  /-- Register fields that a commit has set at the boundary under way (R181). -/
  landed : List Nat := []
  /-- Errors in the planes, keyed by cell and 144 for the module plane: 1 correctable, 2 uncorrectable (R410, R422). -/
  planeBad : SMap Nat := []
  deriving DecidableEq, Repr

/-- A frame sent and not yet acknowledged (R391, R393): its SEQ, what it carries, its timer retransmissions, how many
frames above it the last SACK that resent it showed, and the error that the retransmit store holds in it: 1 correctable, 2
uncorrectable (R410). -/
structure Sent where
  seq   : Nat
  body  : GtBody
  tries : Nat := 0
  above : Nat := 0
  ecc   : Nat := 0
  deriving DecidableEq, Repr

/-- One GT connection (R387 to R393, R400). Its state, silence count and counters are register fields. -/
structure Conn where
  /-- Next SEQ to send, and the CREDIT last received. -/
  next    : Nat := 0
  credit  : Nat := 0
  unacked : List Sent := []
  /-- Frames held for credit or for the connection, oldest first. -/
  wait    : List GtBody := []
  /-- Next SEQ to deliver: the ACK this side sends. -/
  rcv     : Nat := 0
  /-- Frames held ahead of a gap, in SEQ order. -/
  ahead   : List GtFrame := []
  /-- Frames received in order that their unit has not taken, oldest first (R391). -/
  ready   : List GtFrame := []
  /-- Frames received that no ACK has yet covered. -/
  owe     : Bool := false
  /-- RX_WINDOW at opening. -/
  win     : Nat := 0
  /-- clk of the latest 64 violations, newest first. -/
  viol    : List Nat := []
  /-- clk of the last NAK and of the last immediate ACK, plus one. -/
  nakAt   : Nat := 0
  ackAt   : Nat := 0
  /-- GT_UDP_PORT and CHANNELS at opening (R409). -/
  udp     : Nat := 0
  chans   : Nat := 0
  deriving DecidableEq, Repr

/-- A RoCEv2 packet sent and not acknowledged (R401): PSN, operation, remote address, immediate, data, and the length of
the whole write that it begins. -/
structure RocePkt where
  psn  : Nat
  op   : Nat
  va   : Nat
  imm  : Nat
  data : List Nat
  dma  : Nat
  deriving DecidableEq, Repr

/-- A queue pair beside its registers (R401, R402): packets outstanding, oldest first, retries since progress, RNR
retries since progress, and whether it waits for an RNR timer. -/
structure Qp where
  out  : List RocePkt := []
  tries : Nat := 0
  rnr  : Nat := 0
  wait : Bool := false
  deriving DecidableEq, Repr

/-- A stream of the ingest engine (R403 to R407): the offset it expects, bytes of the record under way and their offset,
whether it skips to a record start, whether DMA_RESTART_SKIP discards the record under way, the last SAMPLE taken plus one
by micro-batch, a record on its way to its targets (per target the queue and the tokens left), its connection plus one,
and the SEQ of the frame that brought the last bytes. -/
structure GsrStream where
  expect : Nat := 0
  buf    : List Nat := []
  skip   : Bool := false
  drop   : Bool := false
  samples : SMap Nat := []
  going  : List (Nat × List Token) := []
  conn   : Nat := 0
  seq    : Nat := 0
  deriving DecidableEq, Repr

/-- Something the module sends to the outside: its kind, where it goes, its numeric fields and its bytes. `wire`: for a
frame of a port, the port, the destination and source MAC, Hop Limit, Traffic Class, UDP source and destination port, and
for one of this module the UDP length and checksum. -/
structure Out where
  kind  : OutKind
  dest  : Nat
  args  : List Nat
  data  : List Nat := []
  wire  : List Nat := []
  deriving DecidableEq, Repr

/-- A frame at an egress port (R374): whether it is of the CTRL class, whether this module sends it, its length, the
forwarding entry of its one lookup (R375) with what the choice between its alternatives takes (R371), and the frame, whose
`wire` begins behind the MAC addresses. -/
structure Waiting where
  ctrl  : Bool
  own   : Bool
  len   : Nat
  entry : Nat
  id    : Nat
  udp   : Nat
  from' : Nat
  out   : Out
  deriving DecidableEq, Repr

/-- What a port keeps beside its registers (R361 to R366, R374): a width change that it asks of its partner (0 none, 1
requested, 2 the marker has come) and the map it asks for; a change its partner asks of it (0 none, 1 decoded, 2 the
marker has gone) and that map; lanes that trained; lanes without signal; lanes excluded by flapping and the beats of
lane failures; alignment codewords sent, and when the next is due in its turn, in 1/5 clk; the clk at which the bring-up
under way began, and by lane at which its retrain did; the map whose width its frames take; the frames that wait, oldest
first, how long the one on its way takes, in 1/200 clk, and whether the last one of CTRL and of DATA was this module's. -/
structure PortSt where
  ask     : Nat := 0
  askMap  : Nat := 0
  peer    : Nat := 0
  peerMap : Nat := 0
  trained : Nat := 0
  dark    : Nat := 0
  flap    : Nat := 0
  fails   : List (Nat × Nat) := []
  words   : Nat := 0
  wordAt  : Nat := 0
  began   : Nat := 0
  laneAt  : SMap Nat := []
  rateMap : Nat := 0
  waiting : List Waiting := []
  busy    : Nat := 0
  ownCtrl : Bool := false
  ownData : Bool := false
  deriving DecidableEq, Repr

/-- The transport and what the module's units have on its way to each other. -/
structure Xport where
  /-- Connections, keyed endpoint * 4 + channel. -/
  conns  : SMap Conn := []
  /-- clk of the last NO_CONN NAK of a port, plus one (R398). -/
  nakPort : SMap Nat := []
  /-- Violation log entries as 32 B numbers (R399). -/
  vlog   : SMap Nat := []
  /-- Frames that found the retransmit store of their die full and hold their units: endpoint, channel and frame, oldest
  first (R391). -/
  parked : List (Nat × Nat × GtBody) := []
  /-- Messages between units of this module, oldest first. -/
  noc    : List GtBody := []
  /-- Tokens that a unit holds for credit, oldest first, per queue (R37), and the unit whose slice waits for them, by kind and
  index (R161). -/
  outbox : SMap (List (Token × Option (Nat × Nat))) := []
  /-- Queue pairs, per sink. -/
  qps    : SMap Qp := []
  /-- Ingest streams. -/
  gsr    : SMap GsrStream := []
  /-- The ports. -/
  ports  : SMap PortSt := []
  deriving DecidableEq, Repr

/-- A lookup request or a push that waits at a stack for a row (R212, R227, R256): its step, its entry of R384, and
whether it is a push. -/
structure HeldReq where
  stack : Nat
  key   : Nat
  push  : Bool
  step  : Nat
  entry : List Nat
  deriving DecidableEq, Repr

/-- An in-flight log entry (R259): the stack, lane, key, slot address and step, whether it serves a refill, the place the
row takes (a way of its bucket, 16 and above a Drift-area slot plus 16), and whether it creates the row. -/
structure LogEnt where
  stack  : Nat
  lane   : Nat
  key    : Nat
  dpa    : Nat
  step   : Nat
  place  : Nat
  create : Bool
  deriving DecidableEq, Repr

/-- A torn row (R260): its stack, key and slot. -/
structure TornRow where
  stack : Nat
  key   : Nat
  dpa   : Nat
  deriving DecidableEq, Repr

/-- A move of a row at its source (R226, R227): where it goes, its place here, how far it is (0 accepted, 1 LEAVING and
copied, 2 acknowledged, 3 switched, 4 installed), the beat of its LEAVING and its
boundary for the next stage, and what issued it: 0 a GO, 1 the permutation, 2 a retirement; and whether its copy read has
met an update of the row (R256). Stage 9 is an abandoned move that keeps its LEAVING mark until the next boundary (R229). -/
structure DriftSrc where
  stack  : Nat
  key    : Nat
  rank   : Nat
  dest   : Nat
  place  : Nat
  stage  : Nat
  beat   : Nat := 0
  free   : Nat := 0
  cause  : Nat := 0
  met    : Bool := false
  deriving DecidableEq, Repr

/-- A move of a row at its destination (R227): where it comes from, its Drift-area slot, the parts received of how many,
whether its copy is placed (COPY_ACK has left), whether SWITCH has come, the LOCATION that its entry displaced, and
whether the permutation or a retirement issued it. -/
structure DriftDst where
  stack  : Nat
  key    : Nat
  rank   : Nat
  src    : Nat
  slot   : Nat
  parts  : Nat
  got    : List (List Nat)
  acked  : Bool := false
  switch : Bool := false
  old    : Nat := 0
  cause  : Nat := 0
  deriving DecidableEq, Repr

/-- What the stacks' base dies and HBM controllers hold beside DPA (R203, R212, R221 to R224, R259, R260, R426). -/
structure Rows where
  /-- Drift Map ways, keyed (stack * 2^18 + set) * 8 + way: key and LOCATION (R203). -/
  dmap     : SMap (Nat × Nat) := []
  /-- Drift Map sets that hold an uncorrectable error, keyed stack * 2^18 + set (R420). -/
  dmapBad  : SMap Nat := []
  /-- Errors in the lists that a base die holds in two copies, keyed 2 * stack for its torn list and plus 1 for its in-flight
  log: 1 in one copy of a word, 2 in both copies of one (R410, R411). -/
  listBad  : SMap Nat := []
  /-- Count sketch, keyed stack * 2^18 + row * 2^16 + counter (R221). A counter whose parity fails reads 0 and has no other
  effect (R410, R418): it is a counter at 0. -/
  sketch   : SMap Nat := []
  /-- Heavy-row list, keyed stack * 64 + entry: key and estimate plus one (R224). -/
  heavy    : SMap (Nat × Nat) := []
  /-- In-flight logs (R259). -/
  log      : List LogEnt := []
  /-- Torn lists (R260). -/
  torn     : List TornRow := []
  /-- Rows that the sweeps under way will put there, as a reset left them (R260). -/
  sweep    : List TornRow := []
  /-- Deferral lists, oldest first (R212). -/
  deferred : List HeldReq := []
  /-- Requests held for an install or an update, oldest first (R227, R256). -/
  held     : List HeldReq := []
  drifts   : List DriftSrc := []
  arrivals : List DriftDst := []
  /-- Forwarded updates that wait for their step's norm, oldest first (R228). -/
  fwds     : List GtBody := []
  /-- Entries gathered for the frames in which this module forwards them: rank, opcode, step and entry (R384). -/
  forward  : List (Nat × Nat × Nat × List Nat) := []
  /-- Lookups and updates of the running window, keyed (stack * 4,097 + table) * 2 and plus 1; 4,096 totals (R223). -/
  load     : SMap Nat := []
  /-- Retired pages of a stack, in order of listing (R426). -/
  retired  : SMap (List Nat) := []
  /-- Rows that the retirement under way has passed over (R427). -/
  revisit  : List Nat := []
  /-- Copies that the hot flush under way covers: die and key (R89). -/
  flush    : List (Nat × Nat) := []
  /-- The steps whose updates pin a hot copy, keyed die * 2^64 + key (R85, R246, R256). -/
  pins     : SMap (List Nat) := []
  deriving DecidableEq, Repr

/-- An item of an emitter's link to Spring: a record of `len` bytes, or a notice that a step has ended, skipped or not,
with the records it counts (R267, R270). -/
inductive LinkItem where
  | record (len val : Nat)
  | notice (step : Nat) (skip : Bool) (count : Nat)
  deriving DecidableEq, Repr

/-- What a step's mark needs (R277, R279): notices, SKIP notices, end tokens, records and counts of the step. -/
structure Cut where
  notes   : Nat := 0
  skips   : Nat := 0
  ends    : Nat := 0
  rows    : Nat := 0
  dense   : Nat := 0
  drift   : Nat := 0
  lateAdd : Nat := 0
  lateDrop : Nat := 0
  /-- Contributions that the step adds late, to be counted once its norm is known (R342, R344). -/
  lateHeld : Nat := 0
  mbDrop  : Nat := 0
  gHi     : Nat := 0
  norm    : Nat := 0
  deriving DecidableEq, Repr

/-- A record in the retention ring (R272): its SEQ, address, length, type and header STEP. -/
structure RingRec where
  seq  : Nat
  addr : Nat
  len  : Nat
  type : Nat
  step : Nat
  deriving DecidableEq, Repr

/-- A record held in the coalescing buffer (R284): key, first element for DENSE, whether it replaced another, and the
record. -/
structure Coal where
  key  : Nat
  first : Nat
  newer : Bool
  len  : Nat
  val  : Nat
  deriving DecidableEq, Repr

/-- What Spring keeps for one sink beside its registers (R286 to R292). -/
structure Sink where
  /-- SPRING_SINKS record in effect plus 2^512, 0 for none. -/
  decl   : Nat := 0
  /-- SEQ of the next record to send, and one past the highest sent. -/
  next   : Nat := 0
  sent   : Nat := 0
  /-- BEAT_COUNT at the last advance of its acknowledgement. -/
  beat   : Nat := 0
  /-- Its full incarnation plus one, 0 for none, and the highest SEQ plus one that it has acknowledged in it. -/
  inc    : Nat := 0
  incAck : Nat := 0
  /-- RoCEv2: offset in its region of the next record, bytes written since the last immediate, and the records written
  and not acknowledged: SEQ, offset and length, a PAD in front of a record under that record's SEQ. -/
  off    : Nat := 0
  since  : Nat := 0
  wrote  : List (Nat × Nat × Nat) := []
  /-- Waits for the next boundary: 1 declared failed, 2 SWAP. -/
  due    : Nat := 0
  /-- Its pair has been enabled: streaming starts from the oldest retained record (R301). -/
  whole  : Bool := false
  deriving DecidableEq, Repr

/-- A dense owner's record under way at Spring (R271): tokens still due, bytes so far, and whether it is discarded. -/
structure DenseIn where
  left  : Nat := 0
  bytes : List Nat := []
  drop  : Bool := false
  deriving DecidableEq, Repr

/-- A refill record under way on a connection: its number and bytes so far (R298, R383). -/
structure RefillIn where
  number : Nat := 0
  bytes  : List Nat := []
  /-- SEQ and header bytes 0 to 7 of the frame that brought the last bytes (R398, R399). -/
  seq    : Nat := 0
  hdr    : Nat := 0
  deriving DecidableEq, Repr

/-- Spring (R270 to R299). -/
structure Spring where
  /-- Links of the Silt engines, oldest first, per stack; 16 holds Spring's own records that found no room. -/
  link  : SMap (List LinkItem) := []
  /-- Cuts in progress, keyed by step. -/
  cuts  : SMap Cut := []
  ring  : List RingRec := []
  /-- DPA at which the next record goes (R272). -/
  head  : Nat := 0
  held  : List Coal := []
  sinks : SMap Sink := []
  /-- Dense records under way, per queue. -/
  dense : SMap DenseIn := []
  /-- Emitters held for ring space: 1 (R82). -/
  stuck : SMap Nat := []
  /-- Pairs that are disabled, and pairs whose state changes at the next boundary: 1 enabled, 2 disabled; keyed by the
  pair's lowest sink (R288, R301). -/
  off   : SMap Nat := []
  turn  : SMap Nat := []
  /-- The next step to close; SEQ of the previous mark plus one; the step whose end closes the window plus one, and why
  (R277, R281, R283). -/
  markNext : Nat := 0
  prevCut  : Nat := 0
  closeAt  : Nat := 0
  closeWhy : Nat := 0
  /-- Cuts whose records the ring has released: SEQ and STEP (R282, R288). -/
  past : List (Nat × Nat) := []
  /-- Unsent bytes above LG_BUDGET as last seen (R294). -/
  risk     : Bool := false
  /-- SEQ plus one of the record at which the emit channel halted (R421). -/
  emitHalt : Nat := 0
  /-- The connection whose record halted the refill channel, plus one (R421). -/
  refHalt  : Nat := 0
  /-- Refill records under way, per connection, and DENSE fragments received, per shard: FIRST, E and STEP (R299). -/
  refill : SMap RefillIn := []
  frags  : SMap (List (Nat × Nat × Nat)) := []
  deriving DecidableEq, Repr

/-- A contribution held in a merge (R246, R247): its stack, the step of its gradient and the step whose merge holds it,
its key, its origin (rank * 2 + die), its group (0 handoff, 1 carried in, 2 on time), its count, its FP32C pairs, and
whether it carries CREATE (R232). -/
structure Contrib where
  stack  : Nat
  step   : Nat
  merge  : Nat
  key    : Nat
  origin : Nat
  group  : Nat
  count  : Nat
  pairs  : List (Nat × Nat)
  create : Bool
  deriving DecidableEq, Repr

/-- A row of an apply list (R247, R253): its combined gradient and count; `st`: 0 waits, 1 in flight, 2 done. -/
structure Comb where
  stack  : Nat
  step   : Nat
  key    : Nat
  count  : Nat
  g      : List Nat
  handoff : Bool
  create : Bool
  st     : Nat := 0
  deriving DecidableEq, Repr

/-- What the Silt engines hold beside registers and base-die tables (R245 to R268). -/
structure Silt where
  contribs : List Contrib := []
  combs    : List Comb := []
  /-- Step whose merge is open, per stack (R267). -/
  openStep : SMap Nat := []
  /-- The last step closed, with LAST APPLY begun, and with LAST APPLY ended, each plus one, per stack (R267). -/
  closed   : SMap Nat := []
  lastAt   : SMap Nat := []
  ended    : SMap Nat := []
  /-- Rows left for the APPLY slice under way, and records passed in the step, per stack (R267). -/
  quota    : SMap Nat := []
  passed   : SMap Nat := []
  /-- bc1 and bc2 of an optimiser record in the current step (R238). -/
  bias     : SMap (Nat × Nat) := []
  /-- What an update in flight writes: the new slot, then the new body of a hot copy, keyed stack * 2^64 + key. -/
  writing  : SMap (List Nat) := []
  /-- n of the global norm of a step, plus one; one past FP32 for a skipped step (R251, R252). -/
  norms    : SMap Nat := []
  deriving DecidableEq, Repr

/-- A sample's part of an ingest record (R404): SAMPLE and its sections: KIND, TABLE, indices or values, weights. -/
structure GsrRec where
  sample : Nat
  secs   : List (Nat × Nat × List Nat × List Nat)
  deriving DecidableEq, Repr

/-- A micro-batch at a die's Coalescer (R207, R406): the records taken in, and whether LAST has come. -/
structure EmbMb where
  die  : Nat
  slot : Nat
  step : Nat
  recs : List GsrRec := []
  last : Bool := false
  deriving DecidableEq, Repr

/-- A sub-batch (R208, R209): how many occurrences its pass has taken in, whether the pass is complete, and then its keys
with their occurrence counts, ascending; or whether a FETCH abandoned it, and how many of its keys OVERFLOW has counted. -/
structure SubBatch where
  die  : Nat
  slot : Nat
  step : Nat
  sub  : Nat
  pos  : Nat := 0
  done : Bool := false
  keys : List (Nat × Nat) := []
  dropped : Bool := false
  counted : Nat := 0
  deriving DecidableEq, Repr

/-- A key that FETCH has asked for (R210): its request id, and once answered or timed out its status and encoded row;
255 waits. -/
structure Fetched where
  die  : Nat
  slot : Nat
  step : Nat
  sub  : Nat
  key  : Nat
  req  : Nat
  st   : Nat := 255
  body : List Nat := []
  deriving DecidableEq, Repr

/-- A Basin entry (R217). -/
structure BasinRow where
  die   : Nat
  step  : Nat
  key   : Nat
  count : Nat
  pairs : List (Nat × Nat)
  deriving DecidableEq, Repr

/-- The embedding units (R206 to R218). -/
structure Emb where
  mbs     : List EmbMb := []
  subs    : List SubBatch := []
  fetched : List Fetched := []
  basin   : List BasinRow := []
  /-- Bags that the GRAD slice under way has taken, per die. -/
  bag     : SMap Nat := []
  deriving DecidableEq, Repr

/-- A copy-on-write entry that waits for its boundary (R315): history, layer, index, page, and the beat of the copy. -/
structure KvPend where
  hist  : Nat
  layer : Nat
  idx   : Nat
  page  : Nat
  beat  : Nat
  deriving DecidableEq, Repr

/-- A page whose count reached zero (R316), and in which beat. -/
structure KvZero where
  die  : Nat
  page : Nat
  beat : Nat
  deriving DecidableEq, Repr

/-- A move of a page to a frame of the other tier (R318). -/
structure KvMove where
  die   : Nat
  page  : Nat
  tier  : Nat
  frame : Nat
  deriving DecidableEq, Repr

/-- A frame that a move has vacated (R316, R318), and in which beat. -/
structure KvVac where
  die   : Nat
  tier  : Nat
  frame : Nat
  beat  : Nat
  deriving DecidableEq, Repr

/-- An APPEND under way on a queue (R306, R310): its header, data tokens still due, events still to write, bytes received
and not yet used, its status so far, and whether a copy of its page read an uncorrectable line (R325). -/
structure KvApp where
  hdr    : Nat := 0
  left   : Nat := 0
  events : Nat := 0
  bytes  : List Nat := []
  status : Nat := 0
  ue     : Bool := false
  deriving DecidableEq, Repr

/-- The history units beside the tables in KV_T (R302, R305). -/
structure Kv where
  /-- Lengths, keyed history * 8 + layer. -/
  lens   : SMap Nat := []
  /-- Pages that are not FREE: die, page, layer; and frames in use by pages and moves: die, tier, frame. -/
  used   : List (Nat × Nat × Nat) := []
  frames : List (Nat × Nat × Nat) := []
  pend   : List KvPend := []
  zeros  : List KvZero := []
  moves  : List KvMove := []
  vac    : List KvVac := []
  /-- APPENDs under way, per queue. -/
  apps   : SMap KvApp := []
  deriving DecidableEq, Repr

/-- A chain hop of one segment (R334 to R337): its directory entry, shard key, first element, step, class and the beat at
whose boundary its deadline closes; whether it has completed, and whether its result stays in the owner's Basin. -/
structure ChainHop where
  entry : Nat
  key   : Nat
  first : Nat
  step  : Nat
  cls   : Nat
  due   : Nat
  done  : Bool := false
  kept  : Bool := false
  deriving DecidableEq, Repr

/-- A chain segment that came before its receiver's hop (R335). -/
structure ChainSeg where
  key   : Nat
  first : Nat
  step  : Nat
  pairs : List (Nat × Nat)
  deriving DecidableEq, Repr

/-- A root reduction of an item and a step (R338 to R340): what it is, whether this module's item has issued, the beat at
whose boundary its deadline closes, the shard partials received on QIN, this module's own contribution, the
contributions received (rank and words), and whether it is closed here and its result used. -/
structure RootHop where
  item   : Nat
  step   : Nat
  func   : Nat := 0
  words  : Nat := 1
  issued : Bool := false
  due    : Nat := 0
  shards : List (Nat × Nat × Nat) := []
  own    : Option (List Nat) := none
  got    : List (Nat × List Nat) := []
  closed : Bool := false
  used   : Bool := false
  deriving DecidableEq, Repr

/-- A fetch of a shard's working copy under way (R345): entry, key, owner, micro-batch slot, class, the buffer, its
length, bytes received, and whether a backward version was named. -/
structure Fetch where
  entry : Nat
  key   : Nat
  owner : Nat
  slot  : Nat
  cls   : Nat
  bwd   : Bool
  dpa   : Nat
  len   : Nat
  got   : Nat := 0
  deriving DecidableEq, Repr

/-- A lease (R346): the other rank, the shard and the version. -/
structure Lease where
  rank    : Nat
  key     : Nat
  version : Nat
  deriving DecidableEq, Repr

/-- A stack's part of the permutation (R350, R351): the table (its place in ascending id) and position its walk has
reached, rows passed over, and how far it is: 0 walks, 1 revisits, 2 has ended. -/
structure PermWalk where
  table : Nat := 0
  pos   : Nat := 0
  again : List Nat := []
  phase : Nat := 0
  deriving DecidableEq, Repr

/-- The collective engines (R330 to R352). -/
structure Coll where
  chains : List ChainHop := []
  early  : List ChainSeg := []
  /-- Segments held in late Basins, one for each that came: entry, first element, and the step of the hop that adds them
  (R335, R342). -/
  late   : List (Nat × Nat × Nat) := []
  roots  : List RootHop := []
  /-- Version recorded by a fetch plus one, keyed slot * 65,536 + entry (R345). -/
  versions : SMap Nat := []
  fetches  : List Fetch := []
  /-- Leases this module holds at owners, and leases on its own versions (R346). -/
  borrowed : List Lease := []
  lent     : List Lease := []
  /-- Leases released while frames of their fetch still wait to depart (R346). -/
  ended    : List Lease := []
  /-- Versions of lent shards that have a successor: key, version, and the beat whose boundary found it active (R347). -/
  old      : List (Nat × Nat × Nat) := []
  /-- Micro-batch slots and entries whose accumulation tokens are discarded until the step ends (R348). -/
  stale    : List (Nat × Nat) := []
  /-- The walks of the permutation, by stack, and whether PERM_ABORT stopped them. -/
  walks    : List PermWalk := []
  aborted  : Bool := false
  deriving DecidableEq, Repr

/-- An FMP message whose fragments have all come (R442): its type, session, SEQ, where it came from (the IPv6 address and
UDP port as one number; 0 management port, 1 data port), its payload, and whether it is longer than its type allows. -/
structure FmpMsg where
  type    : Nat
  session : Nat
  seq     : Nat
  src     : Nat
  via     : Nat
  data    : List Nat := []
  long    : Bool := false
  deriving DecidableEq, Repr

/-- A message under reassembly (R443): its length, and its fragments with their offsets. -/
structure FmpPart where
  msg : FmpMsg
  len : Nat
  got : List (Nat × List Nat)
  deriving DecidableEq, Repr

/-- A command ring beside its registers (R455 to R457). `stage`: 0 nothing under way, 1 a descriptor read issued, 2 a check
failed, 3 a command is due, 4 it has begun and its completion is due. `tries`: re-reads issued; `rung`: a doorbell landed
during them. `desc`: the bytes read, none from a line in error; `left`: register writes of the command that have not landed;
`status`: how the command will complete; `wait`: it waits for its beat, or for its load. -/
structure Ring where
  stage  : Nat := 0
  tries  : Nat := 0
  rung   : Bool := false
  desc   : Option (List Nat) := none
  left   : List (Nat × Nat) := []
  status : Nat := 0
  wait   : Bool := false
  deriving DecidableEq, Repr

/-- FMP and the command rings (R441 to R463). -/
structure Fmp where
  parts   : List FmpPart := []
  /-- Requests that have not run, in order of arrival. -/
  queue   : List FmpMsg := []
  /-- SEQ of the session's next request, and the ranges above it that are SKIPPED: the first and one past the last (R444). -/
  next    : Nat := 1
  skips   : List (Nat × Nat) := []
  /-- The replies kept: SEQ, type, status, payload, oldest first (R444). -/
  replies : List (Nat × Nat × Nat × List Nat) := []
  /-- Nonces: value and clk of issue, oldest first (R445). -/
  nonces  : List (Nat × Nat) := []
  /-- The session key and transcript, and where the session's latest valid request came from (R446, R462). -/
  key     : List Nat := []
  script  : Nat := 0
  peer    : Nat := 0
  via     : Nat := 0
  /-- A SESSION_OPEN that has passed its checks, with the owner slot, whose accept is due (R445). -/
  opening : Option (FmpMsg × Nat) := none
  /-- A quote being signed: the request and bytes 0 to 255 (R460). -/
  quote   : Option (FmpMsg × List Nat) := none
  /-- SEQ of the next unsolicited message; the index after the last EVENT's entries, and its beat plus one (R462). -/
  out     : Nat := 0
  evNext  : Nat := 0
  evBeat  : Nat := 0
  /-- Completion events that wait for the next EVENT message (R462). -/
  notes   : List Event := []
  /-- The selection and TOTAL of the session's previous STATE_DUMP (R453). -/
  dump    : Option (List Nat × Nat) := none
  /-- The writes of a REG_WRITE that land in the next beat, with the request that owes its reply (R450). -/
  late    : List (Nat × Nat) := []
  lateFor : Option FmpMsg := none
  rings   : SMap Ring := []
  deriving DecidableEq, Repr

/-- The fuses (R434, R475). -/
structure Fuses where
  serial   : Nat := 0
  seed     : Nat := 0
  fwKey    : Nat := 0
  svnMin   : Nat := 0
  owners   : List Nat := [0, 0, 0, 0]
  revoke   : Nat := 0
  claySig  : Bool := false
  dataOff  : Bool := false
  romOff   : Bool := false
  levels   : List Nat := [0, 2, 1, 2, 1, 1, 2]
  deriving DecidableEq, Repr

/-- The system controller's boot and stores (R433 to R440). `phase`: 0 held in reset, 1 the ROM is due, 2 the firmware
starts, 3 it runs, 4 the ROM loader, 5 halted. -/
structure Boot where
  phase  : Nat := 1
  /-- Fuses as programmed and as sensed. -/
  burnt  : Fuses := {}
  fuses  : Fuses := {}
  /-- The image area of the module store, its length, and an image being programmed (R439). -/
  image  : List Nat := []
  staged : List Nat := []
  cert   : List Nat := []
  /-- The configuration store (R433): management address as HI and LO, UDP_PORT, IDLE_S, owner keys, and the
  key that opened the last session. The retired lists (R426) stand in `Rows.retired`, which no reset changes. -/
  addrHi : Nat := 0
  addrLo : Nat := 0
  udp    : Nat := 47009
  idle   : Nat := 30
  keys   : List (Nat × List Nat) := []
  opener : List Nat := []
  /-- The module store cannot be read or programmed: it holds more bit errors than its code corrects (R410, R438). -/
  storeBad : Bool := false
  deriving DecidableEq, Repr

/-- The machine's state. -/
structure State where
  /-- Register fields, keyed by name and instance; an unlisted field holds its reset value. -/
  regs    : SMap Nat
  /-- Shadow copies of RWS fields that differ from nothing written: the value plus one (R14). -/
  shadows : SMap Nat
  /-- Internal counts and conditions, keyed by name and index. -/
  vars    : SMap Nat
  /-- HBM and Tarns: the DPA space of R72, in canonical form. -/
  mem     : List Host.Cell
  /-- Code units of HBM and Tarns that hold an error: 1 correctable, 2 uncorrectable, 3 poisoned (R410, R413). -/
  unitErr : SMap Nat
  /-- The queues, by queue id. -/
  queues  : SMap Queue
  /-- The slices of the current beat. -/
  slices  : List Slice
  cells   : Cells
  logs    : Logs
  clay    : Clay
  xport   : Xport
  rows    : Rows
  spring  : Spring
  silt    : Silt
  emb     : Emb
  kv      : Kv
  coll    : Coll
  fmp     : Fmp
  boot    : Boot
  /-- Everything the module has sent, oldest first. -/
  out     : List Out
  /-- The commands that wait, first in, first out. -/
  pending : List Instr
  deriving DecidableEq, Repr

/-- The machine right after reset: no image, nothing in memory, every register field at its reset value. -/
def State.reset : State where
  regs := []
  shadows := []
  vars := []
  mem := []
  unitErr := []
  queues := []
  slices := []
  cells := {}
  logs := {}
  clay := {}
  xport := {}
  rows := {}
  spring := {}
  silt := {}
  emb := {}
  kv := {}
  coll := {}
  fmp := {}
  boot := {}
  out := []
  pending := []

end Sys2Proof.Machine
end

