-- ==== Sys2Proof/Machine/Ops.lean ====
section
/-!
DEFINITION. The named operations over the state. A meaning computes a list of primitive updates (`Upd`) from the state,
and the command's next state is the state with those updates run in order; nothing else changes a state.
-/
namespace Sys2Proof.Machine

/-- The key of a register field's instance. -/
def fkey (f : Fld) (i : Nat) : Nat := i * 1024 + f.ctorIdx

/-- The key of an internal variable's instance. -/
def vkey (v : Var) (i : Nat) : Nat := i * 256 + v.ctorIdx

/-- The value of a register field. -/
def State.get (s : State) (f : Fld) (i : Nat := 0) : Nat := Sparse.get f.reset s.regs (fkey f i)

/-- The value of an internal variable; 0 where nothing has set it. -/
def State.var (s : State) (v : Var) (i : Nat := 0) : Nat := Sparse.get 0 s.vars (vkey v i)

/-- The instances at which a field differs from its reset value, ascending. -/
def State.listed (s : State) (f : Fld) : List Nat :=
  (s.regs.filter (fun p => p.1 % 1024 == f.ctorIdx)).map (fun p => p.1 / 1024)

/-- The indices at which an internal variable is not 0, ascending. -/
def State.listedVar (s : State) (v : Var) : List Nat :=
  (s.vars.filter (fun p => p.1 % 256 == v.ctorIdx)).map (fun p => p.1 / 256)

/-- The shadow copy of an RWS field: what a write left there, else the active value (R14). -/
def State.shadowOf (s : State) (f : Fld) (i : Nat := 0) : Nat :=
  let x := Sparse.get 0 s.shadows (fkey f i)
  if x = 0 then s.get f i else x - 1

/-! The DPA space (R72, R73). -/

/-- The stored address of a DPA: an interleaved-alias address names the byte of a direct address (R73). -/
def canonDpa (a : Nat) : Nat :=
  if 0x010000000000 ≤ a ∧ a < 0x020000000000 then
    let x := a - 0x010000000000
    bits x 12 4 * 0x1000000000 + ((x >>> 16) <<< 12 ||| (x % 4096))
  else a

/-- Whether a DPA lies in a populated part of the map of R72. -/
def populated (a : Nat) : Bool :=
  if a < 0x020000000000 then true
  else if 0x400000000000 ≤ a ∧ a < 0x400000000000 + 144 * 0x200000 then (a - 0x400000000000) % 0x200000 < 0x180000
  else if 0x410000000000 ≤ a ∧ a < 0x410010000000 then (a - 0x410000000000) % 0x8000000 < 0x6000000
  else false

/-- The DPA of byte `o` of a cell's Tarn (R72). -/
def cellTarn (cell o : Nat) : Nat := 0x400000000000 + cell * 0x200000 + o

/-- The DPA of byte `o` of a die's shared Tarn (R72). -/
def sharedTarn (die o : Nat) : Nat := 0x410000000000 + die * 0x8000000 + o

/-- Bytes of a code unit at a stored address: 32 B of an HBM codeword, 8 B of a Tarn word (R410). -/
def unitBytes (a : Nat) : Nat := if a < 0x010000000000 then 32 else 8

/-- The byte at a DPA; a hole reads zero (R74), and so does memory nothing has written (notes/assumptions/2.md). -/
def State.byteAt (s : State) (a : Nat) : Nat :=
  if populated a then (Sparse.get 0#8 s.mem (canonDpa a)).toNat else 0

/-- `n` bytes from a DPA on. -/
def State.bytesAt (s : State) (a : Nat) : Nat → List Nat
  | 0 => []
  | n + 1 => s.byteAt a :: s.bytesAt (a + 1) n

/-- The little-endian number of `n` bytes at a DPA. -/
def State.leAt (s : State) (a n : Nat) : Nat := ofLe (s.bytesAt a n)

/-- One byte written; a write to a hole is discarded (R74). -/
def putByte (m : List Host.Cell) (a v : Nat) : List Host.Cell :=
  if populated a then Sparse.set 0#8 m (canonDpa a) (BitVec.ofNat 8 v) else m

/-- Bytes written from a DPA on. -/
def putBytes (m : List Host.Cell) (a : Nat) : List Nat → List Host.Cell
  | [] => m
  | b :: bs => putBytes (putByte m a b) (a + 1) bs

/-- Whether `n` bytes from `a` on lie in one shared Tarn (R72). -/
def inSharedTarn (a n : Nat) : Bool :=
  decide (0x410000000000 ≤ a ∧ a + n ≤ 0x410010000000 ∧ (a - 0x410000000000) % 0x8000000 + n ≤ 0x6000000)

/-- One value written to each of `n` bytes of a shared Tarn. -/
def fillBytes (m : List Host.Cell) (a n : Nat) (v : BitVec 8) : List Host.Cell :=
  if inSharedTarn a n then
    m.filter (fun p => p.1 < a) ++ (if v = 0 then [] else (List.range n).map (fun i => (a + i, v))) ++
      m.filter (fun p => a + n ≤ p.1)
  else m

/-- Whether `n` bytes written at stored address `a` touch the code unit at `u`, and whether they cover it. -/
def touches (a n u : Nat) : Bool := a < u + unitBytes u && u < a + n
def covers (a n u : Nat) : Bool := a ≤ u && u + unitBytes u ≤ a + n

/-- What a write leaves of the errors: a covered unit is clean, a merge into an uncorrectable one poisons it, a merge
into a correctable one mends it (R412, R413). -/
def errAfterWrite (m : SMap Nat) (a n : Nat) : SMap Nat :=
  (m.filter (fun p => !(touches a n p.1 && (covers a n p.1 || p.2 == 1)))).map
    (fun p => if touches a n p.1 && p.2 == 2 then (p.1, 3) else p)

/-! Queues (R34 to R42). -/

/-- How many tags of a list equal `g`. -/
def tagCount (g : Nat) (l : List Nat) : Nat := (l.filter (· == g)).length

/-- Tokens and credits that a queue accounts for: R42 says that they never exceed its depth. -/
def Queue.held (q : Queue) : Nat :=
  q.credits + q.buf.length + tagCount q.gen (q.flight.map Prod.snd) + tagCount q.gen q.back

/-- The latch of clk 3. -/
def Queue.latched (q : Queue) : List Nat :=
  [q.depth, q.credits, q.buf.length, q.gen, min q.stall 8192, q.sent]

/-- One operation on a queue. -/
def Queue.apply (q : Queue) : QOp → Queue
  | .recredit d g home keep =>
    { q with
      depth := d, gen := g, credits := if home then d else 0, buf := [], stall := 0, sent := q.sent
      flight := if keep then q.flight.filter (fun t => t.2 != g) else []
      back := if keep then q.back.filter (· != g) else [] }
  | .remove keep =>
    { q with
      depth := 0, gen := 0, credits := 0, buf := [], stall := 0, latch := []
      flight := if keep then q.flight.filter (fun t => t.2 != 0) else []
      back := if keep then q.back.filter (· != 0) else [] }
  | .send t =>
    if q.credits = 0 then q
    else { q with credits := q.credits - 1, flight := q.flight ++ [(t, q.gen)], sent := (q.sent + 1) % 2 ^ 48 }
  | .sendOut =>
    if q.credits = 0 then q else { q with credits := q.credits - 1, sent := (q.sent + 1) % 2 ^ 48 }
  | .arrive =>
    match q.flight with
    | [] => q
    | (t, g) :: rest => if g = q.gen then { q with flight := rest, buf := q.buf ++ [t] } else { q with flight := rest }
  | .deq =>
    match q.buf with
    | [] => q
    | _ :: rest => { q with buf := rest, back := q.back ++ [q.gen] }
  | .deqOut =>
    match q.buf with
    | [] => q
    | _ :: rest => { q with buf := rest }
  | .creditArrive =>
    match q.back with
    | [] => q
    | g :: rest => if g = q.gen then { q with back := rest, credits := q.credits + 1 } else { q with back := rest }
  | .recvRemote t => if q.held < q.depth then { q with buf := q.buf ++ [t] } else q
  | .creditRemote => if q.held < q.depth then { q with credits := q.credits + 1 } else q
  | .stalled n => { q with stall := q.stall + n }
  | .latch => { q with latch := if q.depth = 0 then [] else q.latched, stall := 0 }
  | .zero => { q with sent := 0 }

/-! Updates. -/

/-- A primitive update of the state. -/
inductive Upd where
  /-- A register field takes a value, cut to the field's width. -/
  | reg (f : Fld) (i v : Nat)
  /-- The shadow copy of an RWS field takes a value. -/
  | shadow (f : Fld) (i v : Nat)
  /-- The shadow copy agrees with the active one again. -/
  | unshadow (f : Fld) (i : Nat)
  | var (v : Var) (i n : Nat)
  /-- Bytes written at a DPA. -/
  | bytes (a : Nat) (bs : List Nat)
  /-- One value written to each of `n` bytes of a shared Tarn. -/
  | fill (a n : Nat) (v : BitVec 8)
  /-- A code unit's error state. -/
  | unitErr (u e : Nat)
  | queue (q : Nat) (op : QOp)
  | slices (f : List Slice → List Slice)
  | cells (f : Cells → Cells)
  | logs (f : Logs → Logs)
  | clay (f : Clay → Clay)
  | xport (f : Xport → Xport)
  | rows (f : Rows → Rows)
  | spring (f : Spring → Spring)
  | silt (f : Silt → Silt)
  | emb (f : Emb → Emb)
  | kv (f : Kv → Kv)
  | coll (f : Coll → Coll)
  | fmp (f : Fmp → Fmp)
  | boot (f : Boot → Boot)
  /-- A reset: of the register fields and their shadow copies, of the variables, and of memory with its errors, only those
  stay whose key or address `keep` holds; or every queue goes. -/
  | keepRegs (keep : Nat → Bool)
  | keepVars (keep : Nat → Bool)
  | keepMem (keep : Nat → Bool)
  | dropQueues
  | emit (o : Out)

/-- The state after one update. -/
def State.apply (s : State) : Upd → State
  | .reg f i v => { s with regs := Sparse.set f.reset s.regs (fkey f i) (v % 2 ^ f.width) }
  | .shadow f i v => { s with shadows := Sparse.set 0 s.shadows (fkey f i) (v % 2 ^ f.width + 1) }
  | .unshadow f i => { s with shadows := Sparse.set 0 s.shadows (fkey f i) 0 }
  | .var v i n => { s with vars := Sparse.set 0 s.vars (vkey v i) n }
  | .bytes a bs =>
    { s with mem := putBytes s.mem a bs, unitErr := errAfterWrite s.unitErr (canonDpa a) bs.length }
  | .fill a n v => { s with mem := fillBytes s.mem a n v, unitErr := errAfterWrite s.unitErr a n }
  | .unitErr u e => { s with unitErr := Sparse.set 0 s.unitErr u e }
  | .queue q op => { s with queues := Sparse.set {} s.queues q ((Sparse.get {} s.queues q).apply op) }
  | .slices f => { s with slices := f s.slices }
  | .cells f => { s with cells := f s.cells }
  | .logs f => { s with logs := f s.logs }
  | .clay f => { s with clay := f s.clay }
  | .xport f => { s with xport := f s.xport }
  | .rows f => { s with rows := f s.rows }
  | .spring f => { s with spring := f s.spring }
  | .silt f => { s with silt := f s.silt }
  | .emb f => { s with emb := f s.emb }
  | .kv f => { s with kv := f s.kv }
  | .coll f => { s with coll := f s.coll }
  | .fmp f => { s with fmp := f s.fmp }
  | .boot f => { s with boot := f s.boot }
  | .keepRegs p => { s with regs := s.regs.filter (fun x => p x.1), shadows := s.shadows.filter (fun x => p x.1) }
  | .keepVars p => { s with vars := s.vars.filter (fun x => p x.1) }
  | .keepMem p => { s with mem := s.mem.filter (fun x => p x.1), unitErr := s.unitErr.filter (fun x => p x.1) }
  | .dropQueues => { s with queues := [] }
  | .emit o => { s with out := s.out ++ [o] }

/-- The state after a list of updates, in order. -/
def State.run (s : State) : List Upd → State
  | [] => s
  | u :: us => (s.apply u).run us

/-- What a command or an event does, as updates computed from the state. -/
abbrev Plan := State → List Upd

/-- Plans one after the other: each sees the state that those before it leave. -/
def plans : List Plan → Plan
  | [], _ => []
  | p :: ps, s =>
    let us := p s
    us ++ plans ps (s.run us)

/-- A plan for each element of a list, in order. -/
def planEach {α : Type} (xs : List α) (p : α → Plan) : Plan := plans (xs.map p)

/-- A plan that acts only where a condition holds: where it does not, the event does not occur. -/
def planIf (c : State → Bool) (p : Plan) : Plan := fun s => if c s then p s else []

/-- A field takes a value. -/
def setF (f : Fld) (v : Nat) (i : Nat := 0) : Upd := .reg f i v

/-- A saturating counter field counts `n` more. -/
def State.addF (s : State) (f : Fld) (n : Nat) (i : Nat := 0) : Upd := .reg f i (satAdd f.width (s.get f i) n)

/-- A saturating counter field counts `n` more, as a plan. -/
def count (f : Fld) (n : Nat) (i : Nat := 0) : Plan := fun s => [s.addF f n i]

/-- An internal count grows by `n`. -/
def State.addV (s : State) (v : Var) (n : Nat) (i : Nat := 0) : Upd := .var v i (s.var v i + n)

/-- A free value of `w` bits and the update that takes it (notes/assumptions/4.md). -/
def State.free (s : State) (w : Nat) (k : Nat := 0) : Nat := (Config.freeValue w (s.var .freeCount + k)).toNat

/-- A command's outcome: the state its plan leaves. Every meaning of this model answers so. -/
def answer (p : Plan) (s : State) : Host.Outcome State Fault Refusal := .next (s.run (p s))

/-- Something leaves the module by no port. -/
def send (k : OutKind) (dest : Nat) (args : List Nat) (data : List Nat := []) : Upd := .emit ⟨k, dest, args, data, []⟩

/-! The module's state as the rules name it. -/

/-- STATE = STOPPED. -/
def State.stopped (s : State) : Bool := s.get .BEAT_STATUS_STATE == 0
/-- STATE = RUNNING. -/
def State.running (s : State) : Bool := s.get .BEAT_STATUS_STATE == 1
/-- STATE = HOLD. -/
def State.inHold (s : State) : Bool := s.get .BEAT_STATUS_STATE == 2

/-! Events (R429, R430). -/

/-- The event codes of the error history (R430). -/
def historyCode (c : Nat) : Bool := (1 ≤ c ∧ c ≤ 6) || c == 0x10 || c == 0x12 || c == 0x52

/-- Posts an entry to the event log, or counts it as suppressed past 16 of one CODE and INDEX (R429). -/
def postNow (e : Event) : Plan := fun s =>
  let k := e.code * 65536 + e.index
  if Sparse.get 0 s.logs.win k < 16 then
    let h := s.get .ERR_EVLOG_HEAD_HEAD
    [.logs (fun l => { l with
        log := Sparse.set none l.log h (some e)
        win := Sparse.set 0 l.win k (Sparse.get 0 l.win k + 1) }),
     setF .ERR_EVLOG_HEAD_HEAD ((h + 1) % 4096)] ++
    (if (Sparse.get none s.logs.log h).isSome then [setF .ERR_STATUS_EVLOG_WRAPPED 1] else [])
  else [s.addF .ERR_EVLOG_HEAD_SUPPRESSED 1]

/-- PHASE of an event entry: the clk within the beat, which is not known while the module is STOPPED (R429). -/
def State.eventPhase (s : State) : Nat := if s.stopped then 0xFFFFFFFF else s.get .BEAT_STATUS_PHASE

/-- An event occurs: in RUNNING it waits for clk 3 of the next boundary, otherwise it posts at once, under the limit of
its window of 4,096 clk (R429). -/
def postEvent (code unit store index d0 d1 : Nat) : Plan := fun s =>
  let e : Event :=
    { code, unit, store, index, d0, d1
      beat := s.get .BEAT_COUNT_COUNT, phase := s.eventPhase }
  (if historyCode code then [.logs (fun l => { l with owed := l.owed ++ [e] })] else []) ++
  if s.running then [.logs (fun l => { l with pend := l.pend ++ [e] })]
  else
    let w := (s.var .clk - s.var .frozenAt) / 4096
    let fresh : List Upd := if s.logs.winNo = w then [] else [.logs (fun l => { l with win := [], winNo := w })]
    fresh ++ postNow e (s.run fresh)

/-- The events of the closing beat post (R429): at clk 3 of the boundary, or on the clk on which the timer freezes. -/
def postPending : Plan := fun s =>
  let es := s.logs.pend
  let clear : List Upd := [.logs (fun l => { l with pend := [], win := [] })]
  clear ++ planEach es postNow (s.run clear)

/-! Faults and HOLD (R28, R490). -/

/-- A fault of R153, R422 or R423 occurs; `trap` says that it is a cell trap other than FETCH_UE. In RUNNING it waits
for the system controller, in HOLD with cause REQUEST it raises the cause, and a STOPPED module does nothing (R490). -/
def raiseFault (trap : Bool) : Plan := fun s =>
  let kinds := s.var .faultKinds ||| (if trap then 1 else 2)
  if s.running then [.var .faultPending 0 1, .var .faultKinds 0 kinds]
  else if s.inHold then
    .var .faultKinds 0 kinds :: (if s.get .BEAT_STATUS_HOLD_CAUSE = 1 then
      [setF .BEAT_STATUS_HOLD_CAUSE 3, .var .alert 0 (s.var .alert ||| 16)] else [])
  else []

/-- The module enters HOLD with a cause: the timer freezes, and the pending events of the beat post (R27, R429). -/
def enterHold (cause : Nat) : Plan :=
  plans [postPending, fun s =>
    [setF .BEAT_STATUS_STATE 2, setF .BEAT_STATUS_HOLD_CAUSE cause, .var .imageSinceHold 0 0,
     .var .frozenAt 0 (s.var .clk), .var .faultPending 0 0, .var .holdPending 0 0,
     .var .alert 0 (s.var .alert ||| (if cause ≥ 2 then 16 else 0)),
     .logs (fun l => { l with win := [], winNo := 0 })]]

/-! Errors in stores (R410 to R414, R494). -/

/-- KIND and INDEX of the store that holds a stored address (ERR_STORE_SEL). -/
def storeOf (a : Nat) : Nat × Nat :=
  if a < 0x010000000000 then (0, a / 0x1000000000)
  else if a < 0x410000000000 then (1, (a - 0x400000000000) / 0x200000)
  else (2, (a - 0x410000000000) / 0x8000000)

/-- The index of a store in the store registers. -/
def storeIdx (k i : Nat) : Nat := k * 256 + i

/-- The outcome of reading the 64 B line of a DPA: 0 CLEAN, 1 CORRECTED, 2 UE, 3 POISONED (R411). -/
def State.lineOutcome (s : State) (a : Nat) : Nat :=
  let l := canonDpa a / 64 * 64
  (s.unitErr.filter (fun p => l ≤ p.1 && p.1 < l + 64)).foldl (fun m p => max m p.2) 0

/-- Whether a read of the line gives no data (UE or POISONED, R414). -/
def State.lineBad (s : State) (a : Nat) : Bool := s.lineOutcome a ≥ 2

/-- Counts and reports one line read with an error: the store's counters and, for UE and POISONED, one event with the
requester class (R412, R414, R418, R494). -/
def noteRead (cls a : Nat) : Plan := fun s =>
  let l := canonDpa a / 64 * 64
  let (k, i) := storeOf l
  let o := s.lineOutcome a
  if o = 0 then []
  else
    let last := [setF .ERR_STORE_LAST_ADDR l (storeIdx k i), setF .ERR_STORE_LAST_OUTCOME o (storeIdx k i)]
    if o = 1 then s.addF .ERR_STORE_COUNT_CE 1 (storeIdx k i) :: last
    else
      (s.addF (if o = 2 then .ERR_STORE_COUNT_UE else .ERR_STORE_COUNT_POISON) 1 (storeIdx k i) :: last) ++
      postEvent (if o = 2 then 1 else 2) 9 k i l cls s

/-- Counts and reports an error that a read finds in a store outside DPA (R410, R417): the store's kind and instance, 1
corrected or 2 uncorrectable, and the requester class. The byte offset of the word is a free value
(notes/assumptions/106.md). -/
def noteWord (k i level cls : Nat) : Plan := fun s =>
  let offset := s.free 48
  plans [fun _ => [setF .ERR_STORE_LAST_ADDR offset (storeIdx k i), setF .ERR_STORE_LAST_OUTCOME level (storeIdx k i),
      s.addF (if level = 1 then .ERR_STORE_COUNT_CE else .ERR_STORE_COUNT_UE) 1 (storeIdx k i),
      .var .freeCount 0 (s.var .freeCount + 1)],
    if level = 1 then fun _ => [] else postEvent 1 9 k i offset cls] s

/-- A cell's plane, or the module's (144), is read: an uncorrectable word there holds the module (R417, R422). -/
def readPlane (i : Nat) : Plan := fun s =>
  let e := Sparse.get 0 s.clay.planeBad i
  if e = 0 then []
  else plans [noteWord 4 i e 16, if e = 1 then fun _ => [.clay (fun c => { c with planeBad := Sparse.set 0 c.planeBad i 0 })]
    else raiseFault false] s

/-- Reports a line read for a requester that the table of UE responses does not list: its class is a free value (R418,
notes/assumptions/84.md). -/
def noteUnlisted (a : Nat) : Plan := fun s =>
  if s.lineOutcome a < 2 then noteRead 0 a s
  else plans [noteRead (s.free 64) a, fun s' => [.var .freeCount 0 (s'.var .freeCount + 1)]] s

/-- Bytes written at addresses that are stored in one run, with the poisoned writes they cause counted (R413). -/
def writeRun (a : Nat) (bs : List Nat) : Plan := fun s =>
  let c := canonDpa a
  let bad := s.unitErr.filter (fun p => p.2 == 2 && touches c bs.length p.1 && !covers c bs.length p.1)
  .bytes a bs :: planEach bad (fun p s' =>
    let (k, i) := storeOf p.1
    [s'.addF .ERR_STORE_COUNT_POISON 1 (storeIdx k i), setF .ERR_STORE_LAST_ADDR (p.1 / 64 * 64) (storeIdx k i),
     setF .ERR_STORE_LAST_OUTCOME 3 (storeIdx k i)]) s

/-- Bytes written from a DPA on, by runs: an interleaved alias goes from stack to stack every 4 KiB (R73). -/
def writeMem (a : Nat) (bs : List Nat) : Plan :=
  if canonDpa a = a then writeRun a bs
  else
    let first := 4096 - a % 4096
    plans (writeRun a (bs.take first) :: (List.range ((bs.length - first + 4095) / 4096)).map (fun i =>
      writeRun (a + first + 4096 * i) (((bs.drop first).drop (4096 * i)).take 4096)))

/-- The 64 B lines that bytes a .. a + n - 1 lie in. -/
def linesOf (a n : Nat) : List Nat :=
  if n = 0 then [] else (List.range ((a + n - 1) / 64 - a / 64 + 1)).map (fun j => (a / 64 + j) * 64)

/-! The active image (R155 to R170). -/

/-- The active image, or an empty one. -/
def State.img (s : State) : Image := s.clay.active.getD {}

/-- The records of a section of an image. -/
def Image.sec (i : Image) (t : Nat) : List Nat := Sparse.get [] i.secs t

/-- Whether the image uses a cell (CELL_MASK). -/
def Image.usesCell (i : Image) (c : Nat) : Bool := (recGet i.hdr 84 18).testBit c

/-- STEP_BEATS of the active image (R30). -/
def State.stepBeats (s : State) : Nat := max 1 (recGet s.img.hdr 72 4)

/-- RANK of the active image. -/
def State.rank (s : State) : Nat := recGet s.img.hdr 78 2

/-- The QUEUES record of a queue id in an image. -/
def Image.queueRec (i : Image) (q : Nat) : Option Nat := (i.sec 3).find? (fun r => recGet r 0 2 == q)

/-- The region of a use class: base and size in the class's units, as active now (R80, R83). -/
def State.region (s : State) (cls inst : Nat) : Nat × Nat :=
  (s.get .TIER_CLASS_REGION_BASE (cls * 256 + inst), s.get .TIER_CLASS_REGION_SIZE (cls * 256 + inst))

/-- Whether a use class lies in HBM (R80). -/
def hbmClass (cls : Nat) : Bool := [1, 3, 6, 7, 8, 11, 13, 14].contains cls

/-- Classes that fill and empty; of every other the whole region is in use (R97). -/
def fillsClass (cls : Nat) : Bool := [0, 1, 4, 5, 6, 7, 8].contains cls

/-- IN_USE of a class instance whose whole region is in use reads the SIZE in effect (R97). -/
def noteFixed (i size : Nat) : Plan := fun s =>
  if fillsClass (i / 256) then []
  else [setF .TIER_CLASS_USE_IN_USE size i, setF .TIER_CLASS_USE_PEAK (max size (s.get .TIER_CLASS_USE_PEAK i)) i]

/-- Bytes of one unit of a class: 64 KiB in HBM, 4 KiB in a Tarn (R80). -/
def classUnit (cls : Nat) : Nat := if hbmClass cls then 65536 else 4096

/-- A policy of the active image: its value for a scope, or the default (R170). -/
def State.policy (s : State) (id scope dflt : Nat) : Nat :=
  match (s.img.sec 0x0D).find? (fun r => recGet r 0 2 == id && (id ≥ 4 || recGet r 2 2 == scope)) with
  | some r => recGet r 8 8
  | none => dflt

end Sys2Proof.Machine
end

