-- ==== Sys2Proof/Machine/Slices.lean ====
section
/-!
DEFINITION. The slices of the current beat: which one a unit issues next, and which one it runs (R19, R31, R144, R161).
-/
namespace Sys2Proof.Machine

/-- The timer's clk within the beat moves on to `p`. -/
def phaseTo (p : Nat) : Plan := fun s =>
  [.var .clk 0 (s.var .clk + (p - s.get .BEAT_STATUS_PHASE)), setF .BEAT_STATUS_PHASE p]

/-- The first slice of a list that satisfies `c` changes. -/
def mapFirst (c : Slice → Bool) (g : Slice → Slice) : List Slice → List Slice
  | [] => []
  | x :: xs => if c x then g x :: xs else x :: mapFirst c g xs

/-- Slices issue in RUNNING, but not in a quiesce beat and not from clk 64 of a loss of input (R19, R27, R33, R293). -/
def State.issuing (s : State) : Bool := s.running && s.var .lgPhase < 2 && s.var .quiesce == 0 && s.var .holdDue == 0

/-- The first slice listed for a unit and not yet issued, while slices issue. -/
def State.nextSlice (s : State) (kind index : Nat) : Option Slice :=
  if !s.issuing then none
  else s.slices.find? (fun x => x.kind == kind && x.index == index && x.st == 0)

/-- The slice a unit runs: issued and not ended. -/
def State.curSlice (s : State) (kind index : Nat) : Option Slice :=
  s.slices.find? (fun x => x.kind == kind && x.index == index && x.st == 1)

/-- The first listed slice of a unit issues (R31 counts it). -/
def startSlice (kind index : Nat) : Plan := fun s =>
  match s.nextSlice kind index with
  | some x =>
    .slices (mapFirst (fun y => y.kind == kind && y.index == index && y.st == 0) (fun y => { y with st := 1 })) ::
    (if x.slot < 8 then [s.addV .mbIssued 1 x.slot] else [])
  | none => []

/-- A unit's running slice has issued all its work and waits for `n` operations; at 0 it may retire (R19). -/
def endSlice (kind index n : Nat) : Upd :=
  .slices (mapFirst (fun y => y.kind == kind && y.index == index && y.st == 1)
    (fun y => { y with st := 2, ops := y.ops + n }))

/-- A link item is a record. -/
def LinkItem.isRecord : LinkItem → Bool
  | .record _ _ => true
  | .notice _ _ _ => false

/-- A step's late or lost contributions count toward its mark (R277, R344). -/
def cutAdd (step : Nat) (f : Cut → Cut) : Upd :=
  .spring (fun x => { x with cuts := Sparse.set {} x.cuts step (f (Sparse.get {} x.cuts step)) })

/-! Dense shards (R263, R299). -/

/-- The shard index of the MASTER region (R299): its DPA, its count, and the DPA of the header that entry `i` names. -/
def State.shardIndex (s : State) : Nat := (s.region 14 0).1 * 65536
def State.shardCount (s : State) : Nat := if s.region 14 0 = (0, 0) then 0 else s.leAt s.shardIndex 8
def State.shardAt (s : State) (i : Nat) : Nat := s.leAt (s.shardIndex + 24 + 16 * i) 8

/-- The active bank of a shard header at `h`, the length of a bank, and where a bank begins (R263). -/
def State.activeBank (s : State) (h : Nat) : Nat := s.byteAt (h + 13) % 2
def State.bankBytes (s : State) (h : Nat) : Nat := s.leAt (h + 32) 8
def State.bankAddr (s : State) (h b : Nat) : Nat := h + 64 + b * s.bankBytes h

/-- The header of the shard in whose banks a DPA lies. -/
def State.shardOver (s : State) (a : Nat) : Option Nat :=
  ((List.range (min s.shardCount 65536)).map s.shardAt).find? (fun h => decide (h + 64 ≤ a ∧ a < s.bankAddr h 2))

end Sys2Proof.Machine
end

