-- ==== Sys2Proof/Machine/Cell.lean ====
section
/-!
DEFINITION. The sequencer of a cell (R126 to R131, R137, R144, R145, R153): its register files, how an instruction
issues, holds, traps and moves the PC, and how slices begin and end.
-/
namespace Sys2Proof

/-- The value of IMM as a signed number of its low `n` bits. -/
def CellWord.simm (w : CellWord) (n : Nat) : Int := Machine.sext n w.imm.toNat
/-- Bits of IMM. -/
def CellWord.im (w : CellWord) (lo n : Nat) : Nat := Machine.bits w.imm.toNat lo n

/-- The 64-bit instruction word (R129). -/
def CellWord.word (opc : Nat) (w : CellWord) : Nat :=
  opc * 2 ^ 56 + w.dst.toNat * 2 ^ 50 + w.sa.toNat * 2 ^ 44 + w.sb.toNat * 2 ^ 38 + w.sc.toNat * 2 ^ 32 +
  w.msk.toNat * 2 ^ 28 + Machine.b2n w.mmode * 2 ^ 27 + w.fmt.toNat * 2 ^ 23 + w.imm.toNat

/-- The opcode and the fields of an instruction word, each from its bits (R129). -/
def CellWord.ofWord (x : Nat) : Nat × CellWord :=
  let f := fun lo n => BitVec.ofNat n (Machine.bits x lo n)
  (Machine.bits x 56 8, ⟨f 50 6, f 44 6, f 38 6, f 32 6, f 28 4, x.testBit 27, f 23 4, f 0 23⟩)

end Sys2Proof

namespace Sys2Proof.Machine

/-- The instruction at `pc` of a cell's program: 8 little-endian bytes of its Tarn (R129, R154). -/
def State.insnAt (s : State) (cell pc : Nat) : Nat × CellWord :=
  CellWord.ofWord (s.leAt (cellTarn cell (s.get .CELL_SEQ_PROG_BASE cell * 64 + pc * 8)) 8)

/-! Register files (R127). -/

def State.vReg (s : State) (cell r : Nat) : Nat := (Sparse.get 0 s.cells.v (cell * 64 + r % 64)).toNat
def State.sReg (s : State) (cell r : Nat) : Nat :=
  if r % 32 = 0 then 0 else (Sparse.get 0 s.cells.s (cell * 32 + r % 32)).toNat
def State.mReg (s : State) (cell r : Nat) : Nat :=
  if r % 16 = 0 then 2 ^ 64 - 1 else (Sparse.get 0 s.cells.m (cell * 16 + r % 16)).toNat
def State.aReg (s : State) (cell r : Nat) : Nat :=
  if r % 16 = 0 then 0 else (Sparse.get 0 s.cells.a (cell * 16 + r % 16)).toNat

def setV (cell r v : Nat) : List Upd :=
  [.cells (fun c => { c with v := Sparse.set 0 c.v (cell * 64 + r % 64) (BitVec.ofNat 2048 v) })]
/-- A write of S0 is discarded (R127). -/
def setS (cell r v : Nat) : List Upd :=
  if r % 32 = 0 then []
  else [.cells (fun c => { c with s := Sparse.set 0 c.s (cell * 32 + r % 32) (BitVec.ofNat 64 v) })]
/-- A write of M0 is discarded (R127). -/
def setM (cell r v : Nat) : List Upd :=
  if r % 16 = 0 then []
  else [.cells (fun c => { c with m := Sparse.set 0 c.m (cell * 16 + r % 16) (BitVec.ofNat 64 v) })]
/-- A write of A0 is discarded (R127). -/
def setA (cell r v : Nat) : List Upd :=
  if r % 16 = 0 then []
  else [.cells (fun c => { c with a := Sparse.set 0 c.a (cell * 16 + r % 16) (BitVec.ofNat 48 v) })]

/-- The 64 lanes of a vector register (R128). -/
def State.lanes (s : State) (cell r : Nat) : List Nat := unpack 32 64 (s.vReg cell r)

/-- Lanes written under a write mask: a masked lane keeps its value, or is written zero under MMODE 1 (R129). -/
def blend (mask : Nat) (zero : Bool) (old new : List Nat) : List Nat :=
  (old.zip new).zipIdx.map (fun (p, i) => if mask.testBit i then p.2 else if zero then 0 else p.1)

/-- The conversion-invalid condition of a cell (R53, R154). -/
def noteInvalid (cell n : Nat) : Plan := fun s =>
  if n = 0 then [] else [setF .CELL_SEQ_FLAGS_CVT_INVALID 1 cell, s.addF .CELL_SEQ_FLAGS_CVT_COUNT n cell]

/-- Writes the lanes of a vector register under the instruction's write mask. -/
def setLanes (cell : Nat) (w : CellWord) (new : List Nat) (s : State) : List Upd :=
  setV cell w.dst.toNat (pack 32 (blend (s.mReg cell w.msk.toNat) w.mmode (s.lanes cell w.dst.toNat) new))

/-! Issue (R130, R137, R144). -/

/-- What an instruction does when the sequencer comes to issue it: it completes with updates and a number of replaced
fields (R130), moving the PC itself unless `seq`; it holds for a reason of CELL_SEQ_STATUS; or it traps with a cause, a
code and a detail (R153). -/
inductive CellRes where
  | done (us : List Upd) (clamps : Nat := 0) (seq : Bool := true)
  | hold (reason : Nat) (us : List Upd := [])
  | trap (cause code detail : Nat) (us : List Upd := [])

/-- The meaning of one opcode, before issue. -/
abbrev CellFn := Nat → CellWord → State → CellRes

def State.loopsOf (s : State) (cell : Nat) : List Loop := Sparse.get [] s.cells.loops cell

def setLoops (cell : Nat) (ls : List Loop) : List Upd :=
  [.cells (fun c => { c with loops := Sparse.set [] c.loops cell ls }), setF .CELL_SEQ_STATUS_LOOP_DEPTH ls.length cell]

/-- Where the sequencer goes when it reaches `pc` by falling through: the end of a loop's body wraps to its start while
iterations remain, and ends the loop otherwise (R145). -/
def settle (pc : Nat) : List Loop → Nat × List Loop
  | [] => (pc, [])
  | l :: rest =>
    if l.start + l.body = pc then
      if l.left > 1 then (l.start, { l with left := l.left - 1, iter := l.iter + 1 } :: rest)
      else settle pc rest
    else (pc, l :: rest)

/-- The loops a taken branch leaves: a loop whose body does not hold the target ends, with every loop inside it (R145). -/
def keepLoops (target : Nat) (ls : List Loop) : List Loop :=
  ls.foldr (fun l keep => if keep.1 && l.start ≤ target && target < l.start + l.body then (true, l :: keep.2)
    else (false, keep.2)) (true, []) |>.2

/-- A sequencer stops with a trap (R153). DESIGN CHOICE (notes/assumptions/90.md): where a PC_RANGE trap stops at a place
that holds no instruction, CELL_TRAP_INSN takes the word of the command that issues there, or 0 where the sequencer only
reaches it. -/
def trapCell (cell cause code detail pc insn : Nat) : Plan :=
  plans [fun s =>
    [setF .CELL_SEQ_STATUS_STATE 3 cell, setF .CELL_SEQ_STATUS_HOLD_REASON 0 cell,
     setF .CELL_TRAP_CAUSE cause cell, setF .CELL_TRAP_CODE code cell, setF .CELL_TRAP_PC pc cell,
     setF .CELL_TRAP_BEAT (s.get .BEAT_COUNT_COUNT) cell, setF .CELL_TRAP_INSN_INSN insn cell,
     setF .CELL_TRAP_ADDR_DETAIL detail cell,
     .cells (fun c => { c with held := Sparse.set none c.held cell none })],
    fun s => postEvent 0x11 0 0 cell
      (cause + code * 2 ^ 8 + pc * 2 ^ 32 + (s.get .BEAT_COUNT_COUNT % 65536) * 2 ^ 48) detail s,
    raiseFault (cause != 3)]

/-- The sequencer falls through to `pc`. Past the last instruction a program can have it traps at once: PC names none
(R126, R144). -/
def fallTo (cell pc : Nat) (ls : List Loop) : Plan := fun s =>
  let r := settle pc ls
  setF .CELL_SEQ_STATUS_PC r.1 cell :: setLoops cell r.2 ++
    (if r.1 < 32768 then [] else trapCell cell 4 0 r.1 r.1 0 s)

/-- The result of an instruction acts on the sequencer. `n` native instructions are counted, and `macs` macro-operations. -/
def retireOp (opc cell : Nat) (w : CellWord) (n macs : Nat) (r : CellRes) (s : State) : List Upd :=
  let pc := s.get .CELL_SEQ_STATUS_PC cell
  match r with
  | .done us clamps seq =>
    us ++ [s.addF .CELL_SEQ_ISSUED_COUNT n cell, s.addF .CELL_SEQ_ISSUED_MACROS macs cell] ++
    (if clamps = 0 then []
     else [s.addF .CELL_SEQ_CLAMP_COUNT clamps cell, setF .CELL_SEQ_CLAMP_LAST_OPCODE opc cell]) ++
    (if seq then fallTo cell (pc + 1) (s.loopsOf cell) s else [])
  | .hold reason us =>
    us ++ [setF .CELL_SEQ_STATUS_STATE 2 cell, setF .CELL_SEQ_STATUS_HOLD_REASON reason cell,
     .cells (fun c => { c with held := Sparse.set none c.held cell (some (opc, w)) }),
     .var .heldAt cell (s.var .clk + 1), .var .heldSeen cell 0]
  | .trap cause code detail us => us ++ trapCell cell cause code detail pc (w.word opc) (s.run us)

/-- A running sequencer issues an instruction: one past the program's end traps PC_RANGE instead (R144). A sequencer in
another state issues nothing. -/
def issueN (n macs opc cell : Nat) (w : CellWord) (f : CellFn) : Plan := fun s =>
  let pc := s.get .CELL_SEQ_STATUS_PC cell
  if cell < 144 ∧ s.get .CELL_SEQ_STATUS_STATE cell = 1 then
    if pc ≥ s.get .CELL_SEQ_PROG_LENGTH cell then trapCell cell 4 0 pc pc (w.word opc) s
    else retireOp opc cell w n macs (f cell w s) s
  else []

/-- A native instruction issues. -/
def issue (opc cell : Nat) (w : CellWord) (f : CellFn) : Plan := issueN 1 0 opc cell w f

/-! Slices (R144, R161). -/

/-- A sequencer begins its next listed slice, or idles (R144). -/
def beginSlice (cell : Nat) : Plan := fun s =>
  match s.nextSlice 0 cell with
  | some x =>
    plans [readPlane cell, startSlice 0 cell, fun s' =>
      [setF .CELL_SEQ_STATUS_STATE 1 cell, setF .CELL_SEQ_STATUS_PC x.target cell,
       setF .CELL_SEQ_STATUS_SLOT x.slot cell, setF .CELL_SEQ_STATUS_HOLD_REASON 0 cell,
       setF .CELL_SEQ_STATUS_DROPPED (if x.slot < 8 then s'.var .mbDropped x.slot else 0) cell],
      fun s' => if x.target ≥ s'.get .CELL_SEQ_PROG_LENGTH cell then trapCell cell 4 0 x.target x.target 0 s' else []] s
  | none =>
    [setF .CELL_SEQ_STATUS_STATE 0 cell, setF .CELL_SEQ_STATUS_SLOT 15 cell, setF .CELL_SEQ_STATUS_DROPPED 0 cell,
     setF .CELL_SEQ_STATUS_HOLD_REASON 0 cell]

/-- The current slice of a cell starts an operation that it must see complete before it retires (R19, R143). -/
def sliceOp (cell : Nat) : Upd :=
  .slices (mapFirst (fun y => y.kind == 0 && y.index == cell && y.st == 1) (fun y => { y with ops := y.ops + 1 }))

/-- An operation of a cell completes: the oldest slice that waits for one is relieved of it. -/
def sliceOpDone (cell : Nat) : Upd :=
  .slices (mapFirst (fun y => y.kind == 0 && y.index == cell && y.ops > 0) (fun y => { y with ops := y.ops - 1 }))

/-- Whether the current slice's micro-batch is dropped (R84). -/
def State.dropped (s : State) (cell : Nat) : Bool := s.get .CELL_SEQ_STATUS_DROPPED cell == 1

end Sys2Proof.Machine
end

