-- ==== Sys2Proof/Machine/CellVec.lean ====
section
/-!
DEFINITION. The vector opcodes (R131, R132, R134 to R136, R138).
-/
namespace Sys2Proof.Machine

/-! Operands (R130, R131). -/

/-- The format of an instruction: an FMT not among the legal ones is replaced by 0x0 and counted (R130). -/
def legalFmt (w : CellWord) (ok : List Nat) : Nat × Nat :=
  if ok.contains w.fmt.toNat then (w.fmt.toNat, 0) else (0, 1)

/-- A code above the defined ones is replaced by `d` and counted (R130). -/
def legalCode (c limit d : Nat) : Nat × Nat := if c < limit then (c, 0) else (d, 1)

/-- The absolute value and the negation of R131 on one element of format `fmt`. -/
def elemAbs (fmt a : Nat) : Nat :=
  if fmt = 9 then (if a.testBit 31 then (2 ^ 32 - a) % 2 ^ 32 else a) else a % 2 ^ (fmtWidth fmt - 1)
def elemNeg (fmt a : Nat) : Nat :=
  if fmt = 9 then (2 ^ 32 - a) % 2 ^ 32 else a ^^^ 2 ^ (fmtWidth fmt - 1)

/-- The elements of source a, after ABS_A and NEG_A (R131). -/
def srcA (fmt cell : Nat) (w : CellWord) (s : State) : List Nat :=
  let n := fmtWidth fmt
  (unpack n (2048 / n) (s.vReg cell w.sa.toNat)).map (fun x =>
    let y := if w.imm.toNat.testBit 3 then elemAbs fmt x else x
    if w.imm.toNat.testBit 0 then elemNeg fmt y else y)

/-- The elements of source b or c: a vector register, or the low bits of a scalar to every element (R131). -/
def srcBC (fmt cell r : Nat) (scalar neg : Bool) (s : State) : List Nat :=
  let n := fmtWidth fmt
  let xs := if scalar then List.replicate (2048 / n) (s.sReg cell r % 2 ^ n) else unpack n (2048 / n) (s.vReg cell r)
  if neg then xs.map (elemNeg fmt) else xs

def srcB (fmt cell : Nat) (w : CellWord) (s : State) : List Nat :=
  srcBC fmt cell w.sb.toNat (w.imm.toNat.testBit 4) (w.imm.toNat.testBit 1) s
def srcC (fmt cell : Nat) (w : CellWord) (s : State) : List Nat :=
  srcBC fmt cell w.sc.toNat (w.imm.toNat.testBit 5) (w.imm.toNat.testBit 2) s

/-- Elements of format `fmt` as the 64 lanes they fill. -/
def asLanes (fmt : Nat) (xs : List Nat) : List Nat := unpack 32 64 (pack (fmtWidth fmt) xs)

/-- A source b of 32-bit lanes without modifiers beside B_SCALAR. -/
def laneB (cell : Nat) (w : CellWord) (s : State) : List Nat :=
  srcBC 0 cell w.sb.toNat (w.imm.toNat.testBit 4) false s

/-! One element of each operation (R134). -/

/-- An operation on exact values rounded once to the element's format. -/
def viaFV (fmt : Nat) (f : FV → FV → FV) (a b : Nat) : Nat :=
  (encodeElem fmt (f (decodeElem fmt a) (decodeElem fmt b))).1

def elemAdd (fmt a b : Nat) : Nat := if fmt = 9 then (a + b) % 2 ^ 32 else viaFV fmt FV.add a b
def elemMul (fmt a b : Nat) : Nat := if fmt = 9 then a * b % 2 ^ 32 else viaFV fmt FV.mul a b
def elemFma (fmt a b c : Nat) : Nat :=
  (encodeElem fmt (((decodeElem fmt a).mul (decodeElem fmt b)).add (decodeElem fmt c))).1
def elemMin (fmt a b : Nat) : Nat := if fmt = 9 then (if sext 32 a ≤ sext 32 b then a else b) else fmin a b
def elemMax (fmt a b : Nat) : Nat := if fmt = 9 then (if sext 32 a ≤ sext 32 b then b else a) else fmax a b

/-- The condition of VCMP on one lane (R135). -/
def elemCmp (fmt cond a b : Nat) : Bool :=
  if cond = 8 then decide (a < b)
  else if cond = 9 then decide (b ≤ a)
  else if fmt = 9 then
    let x := sext 32 a
    let y := sext 32 b
    match cond with
    | 0 => x == y | 1 => x != y | 2 => decide (x < y) | 3 => decide (x ≤ y) | 4 => decide (y < x)
    | 5 => decide (y ≤ x) | 6 => false | _ => true
  else match cond with
    | 0 => feq a b | 1 => !feq a b | 2 => flt a b | 3 => fle a b | 4 => flt b a | 5 => fle b a
    | 6 => fIsNan a || fIsNan b | _ => fFinite a

/-! The opcodes. -/

/-- A two-operand vector operation in one of its legal formats. -/
def vecBin (ok : List Nat) (f : Nat → Nat → Nat → Nat) : CellFn := fun cell w s =>
  let (fmt, c) := legalFmt w ok
  .done (setLanes cell w (asLanes fmt (List.zipWith (f fmt) (srcA fmt cell w s) (srcB fmt cell w s))) s) c

/-- A bitwise operation on lanes; FMT is ignored. -/
def vecBits (f : Nat → Nat → Nat) : CellFn := fun cell w s =>
  .done (setLanes cell w (List.zipWith f (s.lanes cell w.sa.toNat) (laneB cell w s)) s)

def opVfma : CellFn := fun cell w s =>
  let (fmt, c) := legalFmt w [0, 2, 3]
  let bc := (srcB fmt cell w s).zip (srcC fmt cell w s)
  .done (setLanes cell w (asLanes fmt (List.zipWith (fun a p => elemFma fmt a p.1 p.2) (srcA fmt cell w s) bc)) s) c

/-- Mask bits written under the write mask: MMODE 1 writes 0 to the bits it does not select (R135). -/
def maskWrite (cell : Nat) (w : CellWord) (new : Nat) (s : State) : List Upd :=
  let m := s.mReg cell w.msk.toNat
  let old := if w.mmode then 0 else s.mReg cell w.dst.toNat
  setM cell w.dst.toNat ((new &&& m) ||| (old &&& (2 ^ 64 - 1 - m)))

def opVcmp : CellFn := fun cell w s =>
  let (fmt, c1) := legalFmt w [0, 9]
  let (cond, c2) := legalCode (w.im 6 4) 10 0
  let res := List.zipWith (elemCmp fmt cond) (srcA fmt cell w s) (srcB fmt cell w s)
  .done (maskWrite cell w (pack 1 (res.map b2n)) s) (c1 + c2)

def opVsel : CellFn := fun cell w s =>
  let m := s.mReg cell w.sc.toNat
  let new := ((s.lanes cell w.sa.toNat).zip (laneB cell w s)).zipIdx.map
    (fun (p, i) => if m.testBit i then p.1 else p.2)
  .done (setLanes cell w new s)

/-- The number of 64-element parts of a register at an element width (R136). -/
def partsOf (width : Nat) : Nat := 2048 / width / 64

/-- A part beyond the range is replaced by the highest legal part (R136). -/
def legalPart (p width : Nat) : Nat × Nat :=
  if p < partsOf width then (p, 0) else (partsOf width - 1, 1)

/-- A register with the 64 elements of one part written under a mask; the bits outside the part stay (R136). -/
def writePart (old width part mask : Nat) (zero : Bool) (new : List Nat) : Nat :=
  new.zipIdx.foldl (fun v (x, i) =>
    if mask.testBit i then putBits v (width * (64 * part + i)) width x
    else if zero then putBits v (width * (64 * part + i)) width 0 else v) old

def opVcvt : CellFn := fun cell w s =>
  let (sf, c1) := legalFmt w [0, 2, 3, 4, 5, 6, 7, 8, 9, 10, 11, 15]
  let d := w.im 0 4
  let (df, c2) := if [0, 2, 3, 4, 5, 9, 10, 11].contains d then (d, 0) else (0, 1)
  let (sp, c3) := legalPart (w.im 4 3) (fmtWidth sf)
  let (dp, c4) := legalPart (w.im 7 3) (fmtWidth df)
  let m := s.mReg cell w.msk.toNat
  let v := s.vReg cell w.sa.toNat
  let rs := (List.range 64).map (fun i =>
    encodeElem df (decodeElem sf (bits v (fmtWidth sf * (64 * sp + i)) (fmtWidth sf))))
  let bad := (rs.zipIdx.filter (fun (r, i) => r.2 && m.testBit i)).length
  .done (setV cell w.dst.toNat (writePart (s.vReg cell w.dst.toNat) (fmtWidth df) dp m w.mmode (rs.map Prod.fst)) ++
    noteInvalid cell bad s)
    (c1 + c2 + c3 + c4)

/-- One level of the reduction tree: neighbours meet, the lower node on the left (R138). -/
def treeLevel {α : Type} (f : α → α → α) : List α → List α
  | a :: b :: rest => f a b :: treeLevel f rest
  | l => l

/-- The six levels of the reduction tree over 64 lanes (R138). -/
def tree64 {α : Type} (d : α) (f : α → α → α) (l : List α) : α :=
  (treeLevel f (treeLevel f (treeLevel f (treeLevel f (treeLevel f (treeLevel f l)))))).headD d

/-- Lanes whose mask bit is 0 enter a reduction as its identity (R138). -/
def reduceIn (m e : Nat) (xs : List Nat) : List Nat := xs.zipIdx.map (fun (x, i) => if m.testBit i then x else e)

/-- The scalar that VRED gives for an operation code below 5 (R138). -/
def reduce (op m : Nat) (xs : List Nat) : Nat :=
  match op with
  | 0 => tree64 0 fadd (reduceIn m 0 xs)
  | 1 => wrapInt 64 (sext 32 (tree64 0 (fun a b => (a + b) % 2 ^ 32) (reduceIn m 0 xs)))
  | 2 => tree64 0 fmax (reduceIn m 0xFF800000 xs)
  | 3 => tree64 0 fmin (reduceIn m 0x7F800000 xs)
  | _ =>
    let p := tree64 (0, 0) fp32cAdd ((reduceIn m 0 xs).map (fun x => (x, 0)))
    p.1 + p.2 * 2 ^ 32

def opVred : CellFn := fun cell w s =>
  let (op, c) := legalCode (w.im 0 3) 5 0
  .done (setS cell w.dst.toNat (reduce op (s.mReg cell w.msk.toNat) (s.lanes cell w.sa.toNat))) c

/-- Lanes shifted by k: toward higher lanes for direction 0, toward lower lanes for 1, with a fill (R132). -/
def laneShift (up : Bool) (k fill : Nat) (xs : List Nat) : List Nat :=
  if up then (List.replicate k fill ++ xs).take 64 else xs.drop k ++ List.replicate (min k 64) fill

def opVlsh : CellFn := fun cell w s =>
  .done (setLanes cell w (laneShift (!w.imm.toNat.testBit 6) (w.im 0 6) (s.sReg cell w.sb.toNat % 2 ^ 32)
    (s.lanes cell w.sa.toNat)) s)

def opVbcast : CellFn := fun cell w s =>
  .done (setLanes cell w (List.replicate 64 (s.sReg cell w.sa.toNat % 2 ^ 32)) s)

def opVext : CellFn := fun cell w s =>
  .done (setS cell w.dst.toNat (bits (s.vReg cell w.sa.toNat) (32 * w.im 0 6) 32))

/-- VINS writes only the lane named, under that lane's mask bit (R132). -/
def opVins : CellFn := fun cell w s =>
  let l := w.im 0 6
  let old := s.vReg cell w.dst.toNat
  let new := if (s.mReg cell w.msk.toNat).testBit l then putBits old (32 * l) 32 (s.sReg cell w.sa.toNat)
    else if w.mmode then putBits old (32 * l) 32 0 else old
  .done (setV cell w.dst.toNat new)

/-- VADD (R132). -/
def execVadd (cell : Nat) (w : CellWord) := answer (issue 0x10 cell w (vecBin [0, 2, 3, 9] elemAdd))
/-- VMUL (R132). -/
def execVmul (cell : Nat) (w : CellWord) := answer (issue 0x11 cell w (vecBin [0, 2, 3, 9] elemMul))
/-- VFMA (R132). -/
def execVfma (cell : Nat) (w : CellWord) := answer (issue 0x12 cell w opVfma)
/-- VMIN (R132, R134). -/
def execVmin (cell : Nat) (w : CellWord) := answer (issue 0x13 cell w (vecBin [0, 9] elemMin))
/-- VMAX (R132, R134). -/
def execVmax (cell : Nat) (w : CellWord) := answer (issue 0x14 cell w (vecBin [0, 9] elemMax))
/-- VCMP (R135). -/
def execVcmp (cell : Nat) (w : CellWord) := answer (issue 0x15 cell w opVcmp)
/-- VSEL (R132). -/
def execVsel (cell : Nat) (w : CellWord) := answer (issue 0x16 cell w opVsel)
/-- VCVT (R136). -/
def execVcvt (cell : Nat) (w : CellWord) := answer (issue 0x17 cell w opVcvt)
/-- VRED (R138). -/
def execVred (cell : Nat) (w : CellWord) := answer (issue 0x18 cell w opVred)
/-- VAND (R132). -/
def execVand (cell : Nat) (w : CellWord) := answer (issue 0x20 cell w (vecBits (· &&& ·)))
/-- VOR (R132). -/
def execVor (cell : Nat) (w : CellWord) := answer (issue 0x21 cell w (vecBits (· ||| ·)))
/-- VXOR (R132). -/
def execVxor (cell : Nat) (w : CellWord) := answer (issue 0x22 cell w (vecBits (· ^^^ ·)))
/-- VSHL (R132). -/
def execVshl (cell : Nat) (w : CellWord) := answer (issue 0x23 cell w (vecBits (fun a b => (a <<< (b % 32)) % 2 ^ 32)))
/-- VSHR (R132). -/
def execVshr (cell : Nat) (w : CellWord) := answer (issue 0x24 cell w (vecBits (fun a b => a >>> (b % 32))))
/-- VSRA (R132). -/
def execVsra (cell : Nat) (w : CellWord) :=
  answer (issue 0x25 cell w (vecBits (fun a b => wrapInt 32 (sext 32 a >>> (b % 32)))))
/-- VLSH (R132). -/
def execVlsh (cell : Nat) (w : CellWord) := answer (issue 0x26 cell w opVlsh)
/-- VBCAST (R132). -/
def execVbcast (cell : Nat) (w : CellWord) := answer (issue 0x27 cell w opVbcast)
/-- VEXT (R132). -/
def execVext (cell : Nat) (w : CellWord) := answer (issue 0x28 cell w opVext)
/-- VINS (R132). -/
def execVins (cell : Nat) (w : CellWord) := answer (issue 0x29 cell w opVins)

end Sys2Proof.Machine
end

