-- ==== Sys2Proof/Machine/CellExpand.lean ====
section
/-!
DEFINITION. The macro-operations of the sequencer (R147 to R150), each by the expansion its rule gives. MSK is ignored.
-/
namespace Sys2Proof.Machine

/-! Scans (R147). -/

/-- The operation of a scan and its identity. -/
def scanOp : Nat → Nat → Nat → Nat
  | 0 => fadd
  | 1 => fun a b => (a + b) % 2 ^ 32
  | 2 => fmax
  | _ => fmin
def scanId : Nat → Nat
  | 2 => 0xFF800000
  | 3 => 0x7F800000
  | _ => 0

/-- The six doubling rounds of a scan; with `seg`, `f` marks lanes that a segment start reaches (R147). -/
def scanRounds (op : Nat) (seg : Bool) : List Nat → Nat → List Nat → List Nat
  | [], _, v => v
  | k :: ks, f, v =>
    let t := laneShift true k (scanId op) v
    let v' := (t.zip v).zipIdx.map (fun (p, i) => if seg && f.testBit i then p.2 else scanOp op p.1 p.2)
    scanRounds op seg ks (f ||| (((f <<< k) % 2 ^ 64) ||| (2 ^ k - 1))) v'

/-- A scan of 64 lanes with an optional carry into lane 0, and the segment starts (none for SCAN). -/
def scanLanes (op : Nat) (starts : Option Nat) (carry : Option Nat) (a : List Nat) : List Nat :=
  let f := starts.getD 0
  let v0 := match carry, a with
    | some c, x :: xs => if starts.isSome && f.testBit 0 then a else scanOp op c x :: xs
    | _, _ => a
  scanRounds op starts.isSome [1, 2, 4, 8, 16, 32] f v0

def opScan (seg : Bool) : CellFn := fun cell w s =>
  let op := w.im 0 2
  let carry := w.sc.toNat % 32 ≠ 0
  let v := scanLanes op (if seg then some (s.mReg cell w.sb.toNat) else none)
    (if carry then some (s.sReg cell w.sc.toNat % 2 ^ 32) else none) (s.lanes cell w.sa.toNat)
  .done (setV cell w.dst.toNat (pack 32 v) ++ setS cell w.sc.toNat (v.getD 63 0))

/-! Elementary functions (R148, R149). -/

/-- p ← fma(x, f, c) for each constant in turn. -/
def horner (f : Nat) (p : Nat) (cs : List Nat) : Nat := cs.foldl (fun p c => ffma p f c) p

/-- 2^x (R148). -/
def exp2Lane (x : Nat) : Nat :=
  let u := fIsNan x
  let t := if u then 0 else fmin (fmax x 0xC3160000) 0x43000000
  let n := (encodeInt 32 (fdec t)).1
  let nf := cvtTo32 9 n
  let n1 := wrapInt 32 (sext 32 n >>> 1)
  let n2 := (n + 2 ^ 32 - n1) % 2 ^ 32
  let f := fsub t nf
  let e1 := ((n1 + 127) <<< 23) % 2 ^ 32
  let e2 := ((n2 + 127) <<< 23) % 2 ^ 32
  let p := horner f 0x377FE5FE [0x39218489, 0x3AAEC3FF, 0x3C1D955B, 0x3D635847, 0x3E75FDF0, 0x3F317218, 0x3F800000]
  if u then fNaN else fmul (fmul p e1) e2

/-- The seed and the three iterations of RCP on a positive value (R149). -/
def rcpCore (a : Nat) : Nat :=
  let it : Nat → Nat := fun y => ffma y (ffma (fneg a) y 0x3F800000) y
  it (it (it ((0x7EF311C3 + 2 ^ 32 - a) % 2 ^ 32)))

/-- 1/x (R149). -/
def rcpLane (x : Nat) : Nat :=
  let sgn := x - fabs x
  let a := fabs x
  let sc := if fle 0x5F800000 a then 0x1F800000 else if flt a 0x00800000 then 0x5F800000 else 0x3F800000
  let y := fmul (rcpCore (fmul a sc)) sc
  if fIsNan x then fNaN
  else if a = 0 then 0x7F800000 + sgn
  else if a = 0x7F800000 then sgn
  else fabs y + sgn

/-- 1/sqrt(x) (R149). -/
def rsqrtLane (x : Nat) : Nat :=
  let small := flt x 0x00800000
  let a := if small then fmul x 0x5F800000 else x
  let h := fmul 0xBF000000 a
  let it : Nat → Nat := fun y => fmul y (ffma h (fmul y y) 0x3FC00000)
  let y := it (it (it ((0x5F375A86 + 2 ^ 32 - (a >>> 1)) % 2 ^ 32)))
  if fIsNan x then fNaN
  else if fabs x = 0 then 0x7F800000 + (x - fabs x)
  else if x.testBit 31 then fNaN
  else if x = 0x7F800000 then 0
  else if small then fmul y 0x4F800000 else y

/-- log2 x (R149). -/
def log2Lane (x : Nat) : Nat :=
  let small := flt x 0x00800000
  let a := if small then fmul x 0x4B800000 else x
  let m0 := bits a 0 23 + 0x3F800000
  let big := flt 0x3FB504F3 m0
  let m := if big then fmul m0 0x3F000000 else m0
  let e : Int := (bits a 23 8 : Int) - 127 + (if big then 1 else 0) - (if small then 24 else 0)
  let t := fmul (fsub m 0x3F800000) (rcpCore (fadd m 0x3F800000))
  let z := fmul t t
  let p := [0x3ED30BB1, 0x3F13BB63, 0x3F76384F, 0x4038AA3B].foldl (fun p c => ffma z p c) 0x3EA4258A
  if fIsNan x then fNaN
  else if fabs x = 0 then 0xFF800000
  else if x.testBit 31 then fNaN
  else if x = 0x7F800000 then x
  else ffma t p (fenc (FV.ofInt e))

/-- A lane function on SA into DST. -/
def opLaneFn (f : Nat → Nat) : CellFn := fun cell w s =>
  .done (setV cell w.dst.toNat (pack 32 ((s.lanes cell w.sa.toNat).map f)))

/-! Pairs and Microscaling (R150). -/

/-- The even register of a pair field, and whether the field named an odd one (R130). -/
def evenReg (r : Nat) : Nat × Nat := (r / 2 * 2, r % 2)

def opCadd : CellFn := fun cell w s =>
  let (d, c1) := evenReg w.dst.toNat
  let (a, c2) := evenReg w.sa.toNat
  let (b, c3) := evenReg w.sb.toNat
  let xs := (s.lanes cell a).zip (s.lanes cell (a + 1))
  let ys := (s.lanes cell b).zip (s.lanes cell (b + 1))
  let rs := List.zipWith fp32cAdd xs ys
  .done (setV cell d (pack 32 (rs.map Prod.fst)) ++ setV cell (d + 1) (pack 32 (rs.map Prod.snd))) (c1 + c2 + c3)

def opMxenc : CellFn := fun cell w s =>
  let (fmt, c1) := if [4, 5, 6, 7, 8].contains w.fmt.toNat then (w.fmt.toNat, 0) else (4, 1)
  let (p, c2) := legalPart (w.im 0 3) (fmtWidth fmt)
  let xs := (s.lanes cell w.sa.toNat).map fdec
  let (e0, b0) := mxEncode fmt (xs.take 32)
  let (e1, b1) := mxEncode fmt (xs.drop 32)
  .done (setV cell w.dst.toNat
      (writePart (s.vReg cell w.dst.toNat) (fmtWidth fmt) p (2 ^ 64 - 1) false (b0 ++ b1)) ++
    setS cell w.sc.toNat (e0 + 256 * e1)) (c1 + c2)

/-- SCAN (R147). -/
def execScan (cell : Nat) (w : CellWord) :=
  answer (issueN (if w.sc.toNat % 32 = 0 then 12 else 15) 1 0x80 cell w (opScan false))
/-- SEGSCAN (R147). -/
def execSegscan (cell : Nat) (w : CellWord) :=
  answer (issueN (if w.sc.toNat % 32 = 0 then 28 else 32) 1 0x81 cell w (opScan true))
/-- EXP2 (R148). -/
def execExp2 (cell : Nat) (w : CellWord) := answer (issueN 23 1 0x82 cell w (opLaneFn exp2Lane))
/-- LOG2 (R149). -/
def execLog2 (cell : Nat) (w : CellWord) := answer (issueN 38 1 0x83 cell w (opLaneFn log2Lane))
/-- RCP (R149). -/
def execRcp (cell : Nat) (w : CellWord) := answer (issueN 22 1 0x84 cell w (opLaneFn rcpLane))
/-- RSQRT (R149). -/
def execRsqrt (cell : Nat) (w : CellWord) := answer (issueN 27 1 0x85 cell w (opLaneFn rsqrtLane))
/-- CADD (R150). -/
def execCadd (cell : Nat) (w : CellWord) := answer (issueN 18 1 0x86 cell w opCadd)
/-- MXENC (R150). Its count of native instructions is a free value: the spec states none. -/
def execMxenc (cell : Nat) (w : CellWord) := answer (issueN Config.mxencCount 1 0x87 cell w opMxenc)

end Sys2Proof.Machine
end

