-- ==== Sys2Proof/Machine/Array.lean ====
section
/-!
DEFINITION. The matrix array (R98 to R125): descriptors and their clamping, operand preparation, the accumulation order,
output conversion, the tile and its token, and the rescale table.
-/
namespace Sys2Proof.Machine

/-! Descriptors (R100 to R102). -/

/-- The fields of a descriptor in effect after R102, with what was replaced: how many fields and the last one's byte
offset. -/
structure Desc where
  m : Nat
  n : Nat
  k : Nat
  fx : Nat
  fw : Nat
  fo : Nat
  fa : Nat
  stat : Nat
  accIn : Nat
  keep : Bool
  transX : Bool
  transW : Bool
  mx : Bool
  had : Nat
  rsX : Nat
  rsW : Nat
  rsO : Nat
  aX : Nat
  aW : Nat
  aO : Nat
  aA : Nat
  ldX : Nat
  ldW : Nat
  ldO : Nat
  ldA : Nat
  aSX : Nat
  aSW : Nat
  tag : Nat
  clamps : Nat
  lastField : Nat
  deriving DecidableEq, Repr

/-- The instance of a rescale entry's fields. -/
def rsIdx (cell e : Nat) : Nat := cell * 64 + e

/-- Whether an entry is declared by the active image (CELL_RS_CFG.ACTIVE). -/
def State.rsActive (s : State) (cell e : Nat) : Bool := e < 64 && s.get .CELL_RS_CFG_ACTIVE (rsIdx cell e) == 1

/-- EXP of an entry as a signed number. -/
def State.rsExp (s : State) (cell e : Nat) : Int := sext 8 (s.get .CELL_RS_CFG_EXP (rsIdx cell e))

/-- The format an entry quantises to (R105). -/
def State.rsFmt (s : State) (cell e : Nat) : Nat := if s.get .CELL_RS_CFG_FMT (rsIdx cell e) = 0 then 4 else 5

/-- The rotation size in elements (R104). -/
def hadSize (h : Nat) : Nat := if h = 1 then 32 else if h = 2 then 64 else if h = 3 then 128 else 0

/-- Whether an operand of a format reads block scales (R102). -/
def usesScale (mx : Bool) (f : Nat) : Bool := (6 ≤ f ∧ f ≤ 8) || (mx && 4 ≤ f && f ≤ 8)

/-- K after padding for rotation (R104). -/
def Desc.kPad (d : Desc) : Nat := if d.had = 0 then d.k else roundUp d.k (hadSize d.had)

/-- Whether the output fits the tile of a mode (R114): 1 WS, 2 AS, 3 OS. -/
def fitsTile (mode m n : Nat) : Bool :=
  if mode = 1 then m ≤ 512 && n ≤ 96 else if mode = 2 then m ≤ 96 && n ≤ 512 else m ≤ 96 && n ≤ 96

/-- Whether an operand is quantised by its rescale entry (R103). -/
def quantises (f rs : Nat) : Bool := rs < 64 && (f == 0 || f == 2 || f == 3)

/-- The format in which an operand enters the path selection (R98). -/
def State.pathFmt (s : State) (cell f rs : Nat) : Nat := if quantises f rs then s.rsFmt cell rs else f

/-- The path: 0 standard, 1 FP8, 2 FP32 (R98). -/
def pathOf (fx fw : Nat) : Nat :=
  let fp8 : Nat → Bool := fun f => [4, 5, 6, 7, 8, 11].contains f
  if fx = 0 ∨ fw = 0 then 2 else if fp8 fx ∧ fp8 fw then 1 else 0

/-- The longest pass of a path in k (R109). -/
def passLen (path : Nat) : Nat := if path = 1 then 192 else 96

/-- ceil. -/
def cdiv (a b : Nat) : Nat := (a + b - 1) / b

/-- The feeder addition F of R116 and R117. -/
def feederAdd (d : Desc) : Nat :=
  (if d.had = 0 then 0 else 4 + d.had) + (if quantises d.fx d.rsX || quantises d.fw d.rsW then 1 else 0)

/-- Chunks of at most 512. -/
def chunks512 : Nat → Nat → List Nat
  | 0, _ => []
  | n + 1, m => if m = 0 then [] else min m 512 :: chunks512 n (m - min m 512)

/-- The time of a mode without bank stalls (R117). -/
def modeTime (path mode : Nat) (d : Desc) : Nat :=
  let r := if path = 2 then 3 else 1
  let passes := cdiv d.kPad (passLen path)
  let streamed : Nat → Nat → Nat := fun rows blocks =>
    let cs := chunks512 (rows / 512 + 1) rows
    let each := r * passes * cdiv blocks 96
    let total := cs.foldl (fun t m => t + each * max m 96) 0
    let last := cs.getLastD 0
    96 + (if each = 0 then 0 else total - max last 96 + last) + 203 + feederAdd d
  if mode = 1 then streamed d.m d.n
  else if mode = 2 then streamed d.n d.m
  else
    let k2 := if path = 1 then cdiv d.kPad 2 else if path = 2 then 3 * d.kPad else d.kPad
    12 + feederAdd d + cdiv d.m 96 * cdiv d.n 96 * (k2 + 288)

/-- The mode AUTO selects among those that may run: the least time, ties to WS, then AS, then OS (R115). -/
def autoMode (path : Nat) (d : Desc) (ok : Nat → Bool) : Nat :=
  let better : Nat → Nat → Nat := fun best m =>
    if !ok m then best else if best = 0 then m else if modeTime path m d < modeTime path best d then m else best
  [1, 2, 3].foldl better 0

/-- The fields of a descriptor as stored. -/
def rawDesc (r : Nat) : Desc :=
  let a : Nat → Nat := fun o => recGet r o 4 / 4 * 4
  { m := recGet r 0 2, n := recGet r 2 2, k := bits (recGet r 4 4) 0 20
    fx := bits r 64 4, fw := bits r 68 4, fo := bits r 72 4, fa := bits r 76 4
    stat := bits r 80 2, accIn := bits r 82 2, keep := r.testBit 84, transX := r.testBit 85, transW := r.testBit 86
    mx := r.testBit 87, had := bits r 88 2, rsX := recGet r 12 1, rsW := recGet r 13 1, rsO := recGet r 14 1
    aX := a 16, aW := a 20, aO := a 24, aA := a 28, ldX := a 32, ldW := a 36, ldO := a 40, ldA := a 44
    aSX := a 48, aSW := a 52, tag := recGet r 56 4, clamps := 0, lastField := 0 }

/-- A check of R102: where it fails, the replacement applies and the field counts. -/
def clampIf (bad : Bool) (field : Nat) (fix : Desc → Desc) (d : Desc) : Desc :=
  if bad then let d' := fix d
    { d' with clamps := d'.clamps + 1, lastField := field } else d

/-- The mode an operation runs in, before a clamp of OUT_KEEP (R113, R115). -/
def State.modeFor (s : State) (cell : Nat) (d : Desc) : Nat :=
  let path := pathOf (s.pathFmt cell d.fx d.rsX) (s.pathFmt cell d.fw d.rsW)
  if d.stat ≠ 0 then d.stat
  else
    let kept := autoMode path d (fun m => fitsTile m d.m d.n)
    if d.keep && kept != 0 then kept else autoMode path d (fun _ => true)

/-- The descriptor in effect after R102, in the order of its table. -/
def State.clampDesc (s : State) (cell : Nat) (d0 : Desc) : Desc :=
  let d := clampIf (! [0, 2, 3, 4, 5, 6, 7, 8, 10, 11].contains d0.fx) 8 (fun d => { d with fx := 2 }) d0
  let d := clampIf (! [0, 2, 3, 4, 5, 6, 7, 8, 10, 11].contains d.fw) 8 (fun d => { d with fw := 2 }) d
  let d := clampIf (! [0, 1, 2, 3, 4, 5, 9].contains d.fo) 9 (fun d => { d with fo := 0 }) d
  let d := clampIf (d.accIn == 3) 10 (fun d => { d with accIn := 0 }) d
  let d := clampIf (d.accIn == 1 && ! [0, 1, 2, 9].contains d.fa) 9 (fun d => { d with fa := 0 }) d
  let scalable : Nat → Bool := fun f => 4 ≤ f && f ≤ 8
  let d := clampIf (d.mx && !scalable d.fx && !scalable d.fw) 10 (fun d => { d with mx := false }) d
  let wide : Nat → Bool := fun f => f == 0 || f == 2 || f == 3
  let d := clampIf (d.had != 0 && !(wide d.fx && wide d.fw)) 11 (fun d => { d with had := 0 }) d
  let rsOk : Nat → Nat → Bool := fun rs f => s.rsActive cell rs && [0, 2, 3, 4, 5].contains f
  let d := clampIf (d.rsX != 0xFF && !rsOk d.rsX d.fx) 12 (fun d => { d with rsX := 0xFF }) d
  let d := clampIf (d.rsW != 0xFF && !rsOk d.rsW d.fw) 13 (fun d => { d with rsW := 0xFF }) d
  let d := clampIf (d.rsO != 0xFF && !(s.rsActive cell d.rsO && (d.fo == 4 || d.fo == 5))) 14
    (fun d => { d with rsO := 0xFF }) d
  let d := clampIf (d.keep && !fitsTile (s.modeFor cell d) d.m d.n) 10 (fun d => { d with keep := false }) d
  clampIf (d.fo == 9 && !(d.fx == 10 && d.fw == 10)) 9 (fun d => { d with fo := 0 }) d

/-- Bytes of a row of n elements of a format (R48, R101). -/
def rowBytes (f n : Nat) : Nat := cdiv (n * fmtWidth f) 8

/-- The byte runs (offset, length) of a matrix of `rows` stored rows. -/
def matrixRuns (a ld rows len : Nat) : List (Nat × Nat) := (List.range rows).map (fun i => (a + i * ld, len))

/-- The byte runs an operation reads, in the order descriptor operands X, W, block scales, ACC_IN (R101). -/
def Desc.reads (d : Desc) : List (Nat × Nat) :=
  if d.m = 0 ∨ d.n = 0 then []
  else
    let x := if d.transX then matrixRuns d.aX d.ldX d.k (rowBytes d.fx d.m) else matrixRuns d.aX d.ldX d.m (rowBytes d.fx d.k)
    let w := if d.transW then matrixRuns d.aW d.ldW d.n (rowBytes d.fw d.k) else matrixRuns d.aW d.ldW d.k (rowBytes d.fw d.n)
    (if d.k = 0 then [] else x ++ w) ++
    (if usesScale d.mx d.fx then [(d.aSX, d.m * cdiv d.k 32)] else []) ++
    (if usesScale d.mx d.fw then [(d.aSW, d.n * cdiv d.k 32)] else []) ++
    (if d.accIn = 1 then matrixRuns d.aA d.ldA d.m (rowBytes d.fa d.n) else [])

/-- The byte runs an operation writes (R101). -/
def Desc.writes (d : Desc) : List (Nat × Nat) :=
  if d.m = 0 ∨ d.n = 0 ∨ d.keep then [] else matrixRuns d.aO d.ldO d.m (rowBytes d.fo d.n)

/-- Whether a run of bytes leaves the cell Tarn. -/
def beyondTarn (r : Nat × Nat) : Bool := r.2 > 0 && r.1 + r.2 > 0x180000

/-! Operand preparation (R103 to R106, R110). -/

def fmtA : FFmt := ⟨8, 39, 127, .ieee⟩
/-- The multiplier input of the standard path (R98). -/
def fmtStd : FFmt := ⟨8, 10, 127, .ieee⟩

/-- One RNE rounding into A (R109). -/
def toA (v : FV) : FV := fmtA.decode (fmtA.encode v)

/-- The element of `width` bits at bit `b` of a row at Tarn offset `o`; none where a bad line supplies any of it (R123). -/
def State.element (s : State) (cell o b width : Nat) : Option Nat :=
  let lo := cellTarn cell (o + b / 8)
  let n := (b % 8 + width + 7) / 8
  if (linesOf lo n).any s.lineBad then none else some (bits (s.leAt lo n) (b % 8) width)

/-- The exact value of element (r, c) of a stored matrix (R101). -/
def State.stored (s : State) (cell a ld f r c : Nat) : FV :=
  match s.element cell (a + r * ld) (c * fmtWidth f) (fmtWidth f) with
  | some b => decodeElem f b
  | none => .nan

/-- The unnormalised Sylvester transform of one block, each step an FP32 operation (R104). -/
def hadStage (h : Nat) (v : List Nat) : List Nat :=
  v.zipIdx.map (fun (x, i) =>
    if i / h % 2 = 0 then fadd x (v.getD (i + h) 0) else fsub (v.getD (i - h) 0) x)
def hadamard (n : Nat) (v : List Nat) : List Nat :=
  ([1, 2, 4, 8, 16, 32, 64].filter (· < n)).foldl (fun v h => hadStage h v) v

/-- Consecutive blocks of n. -/
def blocksOf {α : Type} (n : Nat) : Nat → List α → List (List α)
  | 0, _ => []
  | f + 1, l => if l.isEmpty then [] else l.take n :: blocksOf n f (l.drop n)

/-- One operand vector along k, rotated: the padded FP32 values (R104). -/
def rotated (n : Nat) (v : List FV) : List FV :=
  if n = 0 then v
  else
    let p := v.map fenc ++ List.replicate (roundUp v.length n - v.length) 0
    ((blocksOf n (p.length + 1) p).map (hadamard n)).flatten.map fdec

/-- x × 2^EXP rounded to an entry's format (R106). -/
def quantise (f : Nat) (exp : Int) (v : FV) : Nat := (encodeElem f (v.scale (-exp))).1

/-- An operand vector along k as it enters the multiplier, and the values (before scaling) that its entry folds (R103). -/
def State.prepare (s : State) (cell path f rs had : Nat) (v : List FV) : List FV :=
  let r := rotated (hadSize had) v
  if quantises f rs then r.map (fun x => decodeElem (s.rsFmt cell rs) (quantise (s.rsFmt cell rs) (s.rsExp cell rs) x))
  else if path = 0 then r.map (fun x => fmtStd.decode (fmtStd.encode x)) else r

/-- The split of R110: v1 and v2. -/
def split32 (v : FV) : FV × FV :=
  let v1 := fmtStd.decode (fmtStd.encode v)
  if v1.isFin then (v1, fmtStd.decode (fmtStd.encode (v.add v1.neg))) else (v1, .fin false 0 0)

/-- The operand of the FP32 path: the split of an FP32 operand, and any other operand with v2 = +0 (R110). -/
def fp32Parts (fp32 : Bool) (v : FV) : FV × FV := if fp32 then split32 v else ((split32 v).1, .fin false 0 0)

/-- One chain of R109 over a block. -/
def chain (xs ws : List FV) : FV := (xs.zip ws).foldl (fun t p => toA (t.add (p.1.mul p.2))) (.fin false 0 0)

/-- The block sum t of R109, or of R110 on the FP32 path; `x32` and `w32` say which operands are FP32. -/
def blockSum (path : Nat) (x32 w32 : Bool) (xs ws : List FV) : FV :=
  if path = 2 then
    let x := xs.map (fp32Parts x32)
    let w := ws.map (fp32Parts w32)
    let t1 := chain (x.map Prod.snd) (w.map Prod.fst)
    let t2 := chain (x.map Prod.fst) (w.map Prod.snd)
    let t3 := chain (x.map Prod.fst) (w.map Prod.fst)
    toA ((toA (t1.add t2)).add t3)
  else chain xs ws

/-- A block's scale exponent from its UE8M0 byte; none for NaN (R109). -/
def State.scaleExp (s : State) (cell o : Nat) : Option Int :=
  match s.element cell o 0 8 with
  | some b => if b = 255 then none else some ((b : Int) - 127)
  | none => none

/-- The accumulator of output element (i, j) (R109). `x` and `w` are the prepared vectors, `acc0` the start value. -/
def State.accumulate (s : State) (cell path : Nat) (d : Desc) (i j : Nat) (x w : List FV) (acc0 : FV) : FV :=
  let kp := passLen path
  let exW : Int := if d.rsW < 64 then s.rsExp cell d.rsW else 0
  let exX : Int := if d.rsX < 64 then s.rsExp cell d.rsX else 0
  let sh : Int := exX + exW + (if d.had = 0 then 0 else 4 + (d.had : Int))
  let sx := usesScale d.mx d.fx
  let sw := usesScale d.mx d.fw
  let nb := cdiv d.k 32
  let passes := blocksOf kp (x.length + 1) ((x.zip w).zipIdx)
  passes.foldl (fun acc p =>
    let groups := if sx || sw then blocksOf 32 (p.length + 1) p else [p]
    let sum := groups.foldl (fun s' g =>
      let t := blockSum path (d.fx == 0) (d.fw == 0) (g.map (fun q => q.1.1)) (g.map (fun q => q.1.2))
      let gi := (g.headD ((.nan, .nan), 0)).2 / 32
      let t' := if !(sx || sw) then t
        else
          let e1 := if sx then s.scaleExp cell (d.aSX + i * nb + gi) else some 0
          let e2 := if sw then s.scaleExp cell (d.aSW + j * nb + gi) else some 0
          match e1, e2 with
          | some a, some b => toA (t.scale (-(a + b)))
          | _, _ => .nan
      toA (s'.add t')) (.fin false 0 0)
    toA (acc.add (toA (sum.scale sh)))) acc0

/-- The start value of the accumulator (R109, R122). -/
def State.accStart (s : State) (cell : Nat) (d : Desc) (i j : Nat) : FV :=
  if d.accIn = 1 then
    if d.fa = 1 then
      match s.element cell (d.aA + i * d.ldA) (64 * j) 64 with
      | some b => toA ((toA (fdec (b % 2 ^ 32))).add (fdec (b / 2 ^ 32)))
      | none => .nan
    else toA ((toA (s.stored cell d.aA d.ldA d.fa i j)).add (.fin false 0 0))
  else if d.accIn = 2 then fmtA.decode (Sparse.get 0 s.cells.tiles (cell * 2 ^ 32 + i * 2 ^ 16 + j))
  else .fin false 0 0

/-- The output conversion of R111: the element's bits and, with a rescale entry, the value it folds. -/
def State.outElem (s : State) (cell : Nat) (d : Desc) (acc : FV) : Nat :=
  if d.fo = 1 then
    let p := pairOf acc
    p.1 + p.2 * 2 ^ 32
  else if d.rsO < 64 then quantise d.fo (s.rsExp cell d.rsO) acc
  else (encodeElem d.fo acc).1

/-- How many output elements meet R53's invalid case (R111). -/
def Desc.invalidOut (d : Desc) (accs : List FV) : Nat :=
  if d.fo = 9 ∧ !d.keep then (accs.filter (fun a => (encodeElem d.fo a).2)).length else 0

/-- Folds values into a rescale entry: CUR_AMAX, INF_AMAX and OVF (R106). -/
def foldAmax (cell e f : Nat) (exp : Int) (vs : List FV) : Plan := fun s =>
  let i := rsIdx cell e
  let amax := vs.foldl (fun m v =>
    let a := fabs (fenc v)
    if fFinite a && flt m a then a else m) (s.get .CELL_RS_AMAX_CUR_AMAX i)
  let infs := (vs.filter (fun v => fabs (fenc v) == 0x7F800000)).length
  let ovf := (vs.filter (fun v => !(decodeElem f (quantise f exp v)).isFin)).length
  [setF .CELL_RS_AMAX_CUR_AMAX amax i, s.addF .CELL_RS_OVF_OVF ovf i, s.addF .CELL_RS_OVF_INF_AMAX infs i]

/-- The vector of X's row i along k, and of W's column j along k, as stored (R101). -/
def State.rowX (s : State) (cell : Nat) (d : Desc) (i : Nat) : List FV :=
  (List.range d.k).map (fun k =>
    if d.transX then s.stored cell d.aX d.ldX d.fx k i else s.stored cell d.aX d.ldX d.fx i k)
def State.colW (s : State) (cell : Nat) (d : Desc) (j : Nat) : List FV :=
  (List.range d.k).map (fun k =>
    if d.transW then s.stored cell d.aW d.ldW d.fw j k else s.stored cell d.aW d.ldW d.fw k j)

/-- What an operation computes: its accumulators in row order, and the values that its operands' entries fold. -/
structure ArrResult where
  accs  : List (List FV)
  foldX : List FV
  foldW : List FV

def State.compute (s : State) (cell : Nat) (d : Desc) : ArrResult :=
  let path := pathOf (s.pathFmt cell d.fx d.rsX) (s.pathFmt cell d.fw d.rsW)
  let rawX := (List.range d.m).map (s.rowX cell d)
  let rawW := (List.range d.n).map (s.colW cell d)
  let xs := rawX.map (s.prepare cell path d.fx d.rsX d.had)
  let ws := rawW.map (s.prepare cell path d.fw d.rsW d.had)
  { accs := xs.zipIdx.map (fun (x, i) => ws.zipIdx.map (fun (w, j) =>
      s.accumulate cell path d i j x w (s.accStart cell d i j)))
    foldX := if quantises d.fx d.rsX then (rawX.map (rotated (hadSize d.had))).flatten else []
    foldW := if quantises d.fw d.rsW then (rawW.map (rotated (hadSize d.had))).flatten else [] }

/-! The tile and the operations in flight (R120 to R123, R143). -/

/-- An operation that its descriptor line leaves without a size: M or N is 0, or the line could not be read (R119, R123). -/
def ArrOp.empty (o : ArrOp) : Bool := recGet o.desc 0 2 == 0 || recGet o.desc 2 2 == 0

def State.aopsOf (s : State) (cell : Nat) : List ArrOp := Sparse.get [] s.cells.aops cell
def setAops (cell : Nat) (l : List ArrOp) : Upd := .cells (fun c => { c with aops := Sparse.set [] c.aops cell l })

/-- A cell's tile at +0. -/
def clearTile (cell : Nat) : List Upd :=
  [.cells (fun c => { c with tiles := c.tiles.filter (fun p => p.1 / 2 ^ 32 != cell) }),
   setF .CELL_ARRAY_STATUS_KEPT 0 cell]

/-- BUSY and WAITING as the list of operations gives them. -/
def arrayFlags (cell : Nat) (l : List ArrOp) : List Upd :=
  [setF .CELL_ARRAY_STATUS_BUSY (b2n (l.any (·.tile))) cell,
   setF .CELL_ARRAY_STATUS_WAITING
     (b2n (l.any (fun o => !o.tile && !o.empty))) cell]

/-- An operation is recorded as the last retired one (R120, R143). -/
def recordLast (cell off mode path status tag : Nat) (s : State) : List Upd :=
  [setF .CELL_ARRAY_STATUS_LAST_MODE mode cell, setF .CELL_ARRAY_STATUS_LAST_PATH path cell,
   setF .CELL_ARRAY_STATUS_LAST_STATUS status cell, setF .CELL_ARRAY_STATUS_LAST_DESC off cell,
   s.addF .CELL_ARRAY_OPS_RETIRED 1 cell, .var .lastAopTag cell (tag + status * 2 ^ 32)]

/-- What an operation replaced counts (R102). -/
def noteClamps (cell : Nat) (d : Desc) : Plan := fun s =>
  if d.clamps = 0 then []
  else [s.addF .CELL_ARRAY_CLAMP_COUNT d.clamps cell, setF .CELL_ARRAY_CLAMP_LAST_FIELD d.lastField cell]

/-- Bad lines among those an operation reads count in CELL_ARRAY_UE and post their events; corrected ones count (R123). DESIGN
CHOICE (notes/assumptions/94.md): the last of several is the last in the order of `Desc.reads`, after the descriptor's. -/
def noteArrayReads (cell : Nat) (lines : List Nat) : Plan :=
  planEach (lines) (fun a => plans [noteRead 1 a, fun s =>
    if s.lineBad a then [s.addF .CELL_ARRAY_UE_COUNT 1 cell, setF .CELL_ARRAY_UE_LAST_OFFSET (a - cellTarn cell 0) cell]
    else []])

/-- A free value of 32 bits stands for a TAG that no descriptor gives (notes/assumptions/93.md). -/
def freeTag (f : Nat → Plan) : Plan := fun s =>
  plans [fun s' => [.var .freeCount 0 (s'.var .freeCount + 1)], f (s.free 32)] s

/-- Bits of the streams whose slots a cell's byte runs touch while they are not READY (R91). -/
def State.streamsHeld (s : State) (cell : Nat) (runs : List (Nat × Nat)) : Nat :=
  let base := (s.region 2 cell).1 * 4096
  let waits : Nat → Bool := fun r =>
    (recGet r 16 18).testBit cell &&
    (List.range (recGet r 1 1)).any (fun k =>
      let lo := base + recGet r 12 4 + k * recGet r 8 4
      !(s.get .TIER_STREAM_READY (recGet r 0 1)).testBit k &&
        runs.any (fun x => decide (lo < x.1 + x.2 ∧ x.1 < lo + recGet r 8 4)))
  (((s.img.sec 8).filter waits).map (fun r => recGet r 0 1)).eraseDups.foldl (fun m k => m + 2 ^ k) 0

/-- An address condition of R101: the operation ends at once with status 3, and the sequencer, which has gone on past the
AOP, stops where it is (R143). DESIGN CHOICE (notes/assumptions/93.md): the condition is found on the clk on which the AOP
issues, and the TAG of a descriptor that lies beyond the Tarn is a free value. -/
def arrayTrap (cell off : Nat) (w : CellWord) (d : Option Desc) : Plan := fun s =>
  let pc := s.get .CELL_SEQ_STATUS_PC cell
  plans [match d with
      | some d => plans [noteClamps cell d, recordLast cell off 0 3 3 d.tag]
      | none => freeTag (recordLast cell off 0 3 3),
    trapCell cell 8 0 off pc (w.word 0x68)] s

/-- AOP (R143): the operation issues, holding while a slot that it reads is not READY (R91), and traps ARRAY_ADDRESS where a
byte it names lies beyond the Tarn. -/
def opAop : CellFn := fun cell w s =>
  let ea := wrapInt 48 ((s.aReg cell w.sa.toNat : Int) + w.simm 23)
  let off := ea / 64 * 64
  if beyondTarn (off, 64) then .done (arrayTrap cell off w none s)
  else
    let lost := s.lineBad (cellTarn cell off)
    let raw := s.leAt (cellTarn cell off) 64
    let d := s.clampDesc cell (rawDesc raw)
    let wait := if lost then 0 else s.streamsHeld cell d.reads
    let note := noteArrayReads cell [cellTarn cell off]
    if !lost && (d.reads ++ d.writes).any beyondTarn then .done (plans [note, arrayTrap cell off w (some d)] s)
    else if wait ≠ 0 then .hold 4 [.var .heldFor cell wait]
    else
      let op : ArrOp := ⟨off, if lost then 0 else raw, false, s.dropped cell, lost⟩
      let l := s.aopsOf cell ++ [{ op with tile := !op.empty && (s.aopsOf cell).all ArrOp.empty }]
      .done (note s ++ [setAops cell l, sliceOp cell] ++ arrayFlags cell l)

/-- AWAIT (R143). -/
def opAwait : CellFn := fun cell w s =>
  if (s.aopsOf cell).isEmpty then .done (setS cell w.dst.toNat (s.var .lastAopTag cell)) else .hold 6

/-- The waiting operation takes the token after `wait` clk (R121). -/
def planTileGrant (cell wait : Nat) : Plan := fun s =>
  let l := s.aopsOf cell
  match l with
  | o :: rest =>
    if o.tile ∨ o.empty ∨ rest.any (·.tile) then []
    else
      let l' := { o with tile := true } :: rest
      [setAops cell l', s.addF .CELL_TILE_WAIT_TOTAL wait cell, s.addV .tileWait wait cell] ++ arrayFlags cell l'
  | [] => []

/-- Lines of a list of runs, each once, in order. -/
def runLines (cell : Nat) (rs : List (Nat × Nat)) : List Nat :=
  (rs.map (fun r => linesOf (cellTarn cell r.1) r.2)).flatten.eraseDups

/-- Bytes stored into a cell's Tarn by a slice; those of a dropped micro-batch that fall into the stash are suppressed
(R84). -/
def storeRow (drop : Bool) (cell o : Nat) (bs : List Nat) : Plan := fun s =>
  let lo := (s.region 0 cell).1 * 4096
  let hi := lo + (s.region 0 cell).2 * 4096
  if drop then
    plans [writeMem (cellTarn cell o) (bs.take (lo - o)), writeMem (cellTarn cell (max o hi)) (bs.drop (hi - o))] s
  else writeMem (cellTarn cell o) bs s

/-- The outputs of an operation are written, or kept in the tile (R111, R122). -/
def storeOut (cell : Nat) (drop : Bool) (d : Desc) (accs : List (List FV)) : Plan := fun s =>
  if d.keep then
    clearTile cell ++ [setF .CELL_ARRAY_STATUS_KEPT 1 cell, .cells (fun c => { c with
      tiles := accs.zipIdx.foldl (fun t (row, i) => row.zipIdx.foldl (fun t (v, j) =>
        Sparse.set 0 t (cell * 2 ^ 32 + i * 2 ^ 16 + j) (fmtA.encode v)) t) c.tiles })]
  else
    clearTile cell ++ planEach accs.zipIdx (fun (row, i) =>
      storeRow drop cell (d.aO + i * d.ldO)
        (leBytes (rowBytes d.fo d.n) (pack (fmtWidth d.fo) (row.map (s.outElem cell d))))) s

/-- The oldest operation completes after holding the token for `busy` clk (R109 to R123). -/
def planArrayRetire (cell busy : Nat) : Plan := fun s =>
  match s.aopsOf cell with
  | [] => []
  | o :: rest =>
    let d := s.clampDesc cell (rawDesc o.desc)
    let none' := d.m = 0 ∨ d.n = 0
    let gone : List Upd := [setAops cell rest, sliceOpDone cell] ++ arrayFlags cell rest
    let held : Plan := fun s' =>
      if o.tile then [s'.addF .CELL_ARRAY_BUSY_TOTAL busy cell, s'.addV .arrayBusy busy cell] else []
    if o.lost then plans [fun _ => gone, freeTag (recordLast cell o.off 0 3 2)] s
    else
      let clampUs := noteClamps cell d
      let stOk := if d.clamps = 0 then 0 else 1
      if none' then
        plans [clampUs, fun s' => s'.addF .CELL_ARRAY_OPS_NOOP 1 cell :: gone,
          fun s' => recordLast cell o.off 0 3 stOk d.tag s'] s
      else if !o.tile then []
      else
        let lines := runLines cell d.reads
        let st := if lines.any s.lineBad then 2 else stOk
        let path := pathOf (s.pathFmt cell d.fx d.rsX) (s.pathFmt cell d.fw d.rsW)
        let r := s.compute cell d
        plans [noteArrayReads cell lines, clampUs, held,
          (if d.rsX < 64 then foldAmax cell d.rsX (s.rsFmt cell d.rsX) (s.rsExp cell d.rsX) r.foldX else fun _ => []),
          (if d.rsW < 64 then foldAmax cell d.rsW (s.rsFmt cell d.rsW) (s.rsExp cell d.rsW) r.foldW else fun _ => []),
          (if d.rsO < 64 ∧ !d.keep then foldAmax cell d.rsO d.fo (s.rsExp cell d.rsO) r.accs.flatten else fun _ => []),
          noteInvalid cell (d.invalidOut r.accs.flatten), storeOut cell o.drop d r.accs, fun _ => gone,
          fun s' => recordLast cell o.off (s.modeFor cell d) path st d.tag s'] s

/-! The rescale table (R107, R124, R169). -/

/-- The step-start update of one declared entry (R107). -/
def rescaleEntry (i : Nat) : Plan := fun s =>
  let next := s.get .CELL_RS_HIST_NEXT i
  let hist := (List.range 16).map (fun j =>
    if j = next then s.get .CELL_RS_AMAX_CUR_AMAX i else s.get .CELL_RS_HIST_VALUE (i * 16 + j))
  let h := hist.foldl fmax 0
  let e5 := s.get .CELL_RS_CFG_FMT i = 1
  let eh : Int := (fdec h).log2
  let big := flt 0x3FE00000 (fenc ((fdec h).scale eh))
  let exp := (if e5 then 15 else 8) - eh - (if big then 1 else 0) - (s.get .CELL_RS_CFG_MARGIN i : Int)
  [setF .CELL_RS_HIST_VALUE (s.get .CELL_RS_AMAX_CUR_AMAX i) (i * 16 + next), setF .CELL_RS_HIST_NEXT (next + 1) i,
   setF .CELL_RS_AMAX_CUR_AMAX 0 i, setF .CELL_RS_AMAX_H h i] ++
  (if s.get .CELL_RS_CFG_HOLD_EXP i = 0 ∧ h ≠ 0 then [setF .CELL_RS_CFG_EXP (wrapInt 8 (max (-64) (min 63 exp))) i]
   else [])

/-- The declared entries of every cell, as their fields' instances. -/
def State.rsEntries (s : State) : List Nat := s.listed .CELL_RS_CFG_ACTIVE

/-- R107 at a step start, for every declared entry. -/
def planRescale : Plan := fun s => planEach s.rsEntries rescaleEntry s

/-- ARRAY_TILE_GRANT (R121): `wait` is the clk that the operation waited. -/
def execArrayTileGrant (cell wait : Nat) := answer (planTileGrant cell wait)
/-- ARRAY_OP_RETIRE (R120): `busy` is the clk for which the operation held the token. -/
def execArrayOpRetire (cell busy : Nat) := answer (planArrayRetire cell busy)
/-- AOP (R143). -/
def execAop (cell : Nat) (w : CellWord) := answer (issue 0x68 cell w opAop)
/-- AWAIT (R143). -/
def execAwait (cell : Nat) (w : CellWord) := answer (issue 0x69 cell w opAwait)
/-- CELL_COMMIT (R125): the commit waits for its boundary. -/
def execCellCommit (cell : Nat) := answer (planIf (fun _ => cell < 144) (fun _ => [.var .cellCommit cell 1]))

end Sys2Proof.Machine
end

