-- ==== Sys2Proof/Machine/CellScalar.lean ====
section
/-!
DEFINITION. The mask, scalar and address opcodes (R133) and SGET (R146).
-/
namespace Sys2Proof.Machine

def mask64 : Nat := 2 ^ 64 - 1

/-- A mask operation of two sources. -/
def maskBin (f : Nat → Nat → Nat) : CellFn := fun cell w s =>
  .done (setM cell w.dst.toNat (f (s.mReg cell w.sa.toNat) (s.mReg cell w.sb.toNat)))

/-- Mask bits shifted in the manner of VLSH: by k toward higher bits for direction 0, with a fill bit (R133). -/
def maskShift (down : Bool) (k : Nat) (fill : Bool) (a : Nat) : Nat :=
  if down then a >>> k ||| (if fill then mask64 - (mask64 >>> k) else 0)
  else ((a <<< k) &&& mask64) ||| (if fill then 2 ^ k - 1 else 0)

def opMshl : CellFn := fun cell w s =>
  .done (setM cell w.dst.toNat
    (maskShift (w.imm.toNat.testBit 6) (w.im 0 6) (w.imm.toNat.testBit 7) (s.mReg cell w.sa.toNat)))

/-- The second operand of a scalar opcode: S[SB], or the signed immediate in [21:0] where bit 22 is set (R133). -/
def scalarB (cell : Nat) (w : CellWord) (s : State) : Nat :=
  if w.imm.toNat.testBit 22 then wrapInt 64 (w.simm 22) else s.sReg cell w.sb.toNat

/-- A scalar operation of two sources, modulo 2^64. -/
def scalarBin (f : Nat → Nat → Nat) : CellFn := fun cell w s =>
  .done (setS cell w.dst.toNat (f (s.sReg cell w.sa.toNat) (scalarB cell w s) % 2 ^ 64))

/-- The conditions of SCMP (R133). -/
def scalarCmp (cond a b : Nat) : Bool :=
  match cond with
  | 0 => a == b | 1 => a != b | 2 => decide (sext 64 a < sext 64 b) | 3 => decide (sext 64 a ≤ sext 64 b)
  | 4 => decide (sext 64 b < sext 64 a) | 5 => decide (sext 64 b ≤ sext 64 a) | 6 => decide (a < b)
  | _ => decide (b ≤ a)

def opScmp : CellFn := fun cell w s =>
  let (cond, c) := legalCode (w.im 18 4) 8 0
  let b := if w.imm.toNat.testBit 22 then wrapInt 64 (w.simm 18) else s.sReg cell w.sb.toNat
  .done (setS cell w.dst.toNat (b2n (scalarCmp cond (s.sReg cell w.sa.toNat) b))) c

/-- The values of SGET (R146). DESIGN CHOICE (notes/assumptions/95.md): the iteration index reads 0 outside any loop. -/
def sgetValue (cell src : Nat) (s : State) : Nat :=
  let slot := s.get .CELL_SEQ_STATUS_SLOT cell
  match src with
  | 0 => s.get .BEAT_COUNT_COUNT
  | 1 => s.get .BEAT_STEP_STEP
  | 2 => s.get .BEAT_STEP_OFFSET
  | 3 => s.get .BEAT_STATUS_PHASE
  | 4 => slot
  | 5 => s.get .CELL_SEQ_STATUS_DROPPED cell + 2 * s.var .mbRecompute (cell * 16 + slot)
  | 6 => cell
  | 7 => s.get .CLAY_GEN_ACTIVE
  | 8 => match s.loopsOf cell with
    | l :: _ => l.iter
    | [] => 0
  | _ => 0

def opSget : CellFn := fun cell w s => .done (setS cell w.dst.toNat (sgetValue cell (w.im 0 5) s))

/-- MAND (R133). -/
def execMand (cell : Nat) (w : CellWord) := answer (issue 0x30 cell w (maskBin (· &&& ·)))
/-- MOR (R133). -/
def execMor (cell : Nat) (w : CellWord) := answer (issue 0x31 cell w (maskBin (· ||| ·)))
/-- MXOR (R133). -/
def execMxor (cell : Nat) (w : CellWord) := answer (issue 0x32 cell w (maskBin (· ^^^ ·)))
/-- MNOT (R133). -/
def execMnot (cell : Nat) (w : CellWord) := answer (issue 0x33 cell w (maskBin (fun a _ => mask64 - a)))
/-- MSHL (R133). -/
def execMshl (cell : Nat) (w : CellWord) := answer (issue 0x34 cell w opMshl)
/-- MPOP (R133). -/
def execMpop (cell : Nat) (w : CellWord) := answer (issue 0x35 cell w (fun cell w s =>
  .done (setS cell w.dst.toNat (popCount 64 (s.mReg cell w.sa.toNat)))))
/-- MSET (R133). -/
def execMset (cell : Nat) (w : CellWord) := answer (issue 0x36 cell w (fun cell w s =>
  .done (setM cell w.dst.toNat (s.sReg cell w.sa.toNat))))
/-- MGET (R133). -/
def execMget (cell : Nat) (w : CellWord) := answer (issue 0x37 cell w (fun cell w s =>
  .done (setS cell w.dst.toNat (s.mReg cell w.sa.toNat))))
/-- SADD (R133). -/
def execSadd (cell : Nat) (w : CellWord) := answer (issue 0x40 cell w (scalarBin (· + ·)))
/-- SSUB (R133). -/
def execSsub (cell : Nat) (w : CellWord) := answer (issue 0x41 cell w (scalarBin (fun a b => a + 2 ^ 64 - b)))
/-- SMUL (R133). -/
def execSmul (cell : Nat) (w : CellWord) := answer (issue 0x42 cell w (scalarBin (· * ·)))
/-- SAND (R133). -/
def execSand (cell : Nat) (w : CellWord) := answer (issue 0x43 cell w (scalarBin (· &&& ·)))
/-- SOR (R133). -/
def execSor (cell : Nat) (w : CellWord) := answer (issue 0x44 cell w (scalarBin (· ||| ·)))
/-- SXOR (R133). -/
def execSxor (cell : Nat) (w : CellWord) := answer (issue 0x45 cell w (scalarBin (· ^^^ ·)))
/-- SSHL (R133). -/
def execSshl (cell : Nat) (w : CellWord) := answer (issue 0x46 cell w (scalarBin (fun a b => a <<< (b % 64))))
/-- SSHR (R133). -/
def execSshr (cell : Nat) (w : CellWord) := answer (issue 0x47 cell w (scalarBin (fun a b => a >>> (b % 64))))
/-- SSRA (R133). -/
def execSsra (cell : Nat) (w : CellWord) :=
  answer (issue 0x48 cell w (scalarBin (fun a b => wrapInt 64 (sext 64 a >>> (b % 64)))))
/-- SLI (R133). -/
def execSli (cell : Nat) (w : CellWord) := answer (issue 0x49 cell w (fun cell w _ =>
  .done (setS cell w.dst.toNat (wrapInt 64 (w.simm 23)))))
/-- SLIU (R133). -/
def execSliu (cell : Nat) (w : CellWord) := answer (issue 0x4A cell w (fun cell w s =>
  .done (setS cell w.dst.toNat (((s.sReg cell w.dst.toNat <<< 23) ||| w.imm.toNat) % 2 ^ 64))))
/-- SCMP (R133). -/
def execScmp (cell : Nat) (w : CellWord) := answer (issue 0x4B cell w opScmp)
/-- SGET (R146). -/
def execSget (cell : Nat) (w : CellWord) := answer (issue 0x4C cell w opSget)
/-- AMOV (R133). -/
def execAmov (cell : Nat) (w : CellWord) := answer (issue 0x4D cell w (fun cell w s =>
  .done (setA cell w.dst.toNat (s.sReg cell w.sa.toNat))))
/-- AADD (R133). -/
def execAadd (cell : Nat) (w : CellWord) := answer (issue 0x4E cell w (fun cell w s =>
  .done (setA cell w.dst.toNat ((s.aReg cell w.sa.toNat + scalarB cell w s) % 2 ^ 48))))
/-- ATOS (R133). -/
def execAtos (cell : Nat) (w : CellWord) := answer (issue 0x4F cell w (fun cell w s =>
  .done (setS cell w.dst.toNat (s.aReg cell w.sa.toNat))))

end Sys2Proof.Machine
end

