-- ==== Sys2Proof/Machine/Route.lean ====
section
/-!
DEFINITION. Forwarding: which port a frame leaves by and what it carries on the wire (R370 to R372, R386, R387).
-/
namespace Sys2Proof.Machine

/-- A port is selected for egress only while it is UP and not stopped by a width change (R371). -/
def State.portUsable (s : State) (p : Nat) : Bool := s.get .PORT_STATUS_STATE p == 4 && s.get .PORT_STATUS_STOPPED p == 0

def State.portSt (s : State) (p : Nat) : PortSt := Sparse.get {} s.xport.ports p

/-- A port's own state changes. -/
def setPort (p : Nat) (f : PortSt → PortSt) : Upd :=
  .xport (fun x => { x with ports := Sparse.set {} x.ports p (f (Sparse.get {} x.ports p)) })

/-- PORT_STATUS.STATE: 0 DOWN, 1 DETECT, 2 TRAIN, 3 ALIGN, 4 UP, 5 DISABLED. -/
def State.portState (s : State) (p : Nat) : Nat := s.get .PORT_STATUS_STATE p
def State.e200 (s : State) (p : Nat) : Bool := s.get .PORT_CFG_MODE p == 1

/-- The MAC rate of a port in units of 200 Gb/s: of the lanes of a map in N400, and 800 Gb/s in E200 (R358). -/
def State.macRate (s : State) (p map : Nat) : Nat := if s.e200 p then 4 else 2 * (bitsSet 4 map).length

/-- The port that a forwarding entry gives a frame of UDP source port `udp`, of an endpoint id, that came in by port
`from'` (16 and above: from this module) (R371). -/
def State.choose (s : State) (entry id udp from' : Nat) : Option Nat :=
  let ok := fun (p : Nat) (v : Bool) => v && s.portUsable p && p != from'
  let a0 := bits entry 0 4
  let a1 := bits entry 8 4
  let u0 := ok a0 (entry.testBit 4)
  let u1 := ok a1 (entry.testBit 12)
  if u0 && u1 then some (if entry.testBit 13 && (udp ^^^ id) % 2 == 1 then a1 else a0)
  else if u0 then some a0
  else if u1 then some a1
  else none

/-- The forwarding entry of an endpoint: of the table for a job endpoint, the default for a service entry (R370, R386). -/
def State.fwdEntry (s : State) (ep : Nat) : Nat :=
  if ep < 65536 then s.get .PORT_FWD_TABLE_ENTRY ep else s.get .PORT_FWD_DEFAULT_ENTRY

/-- The UDP source port of a connection (R387); a service entry's id is its index (R386). -/
def udpSource (ep ch : Nat) : Nat :=
  let id := ep % 65536
  0xC000 ||| ((ch % 4) <<< 12) ||| (id % 2048 * 2) ||| ((ch ^^^ id) % 2)

/-! The egress ports (R374). -/

/-- The frame that a port sends next: CTRL before DATA, and within a class transit frames and those of this module in
turn. -/
def PortSt.nextFrame (x : PortSt) : Option Waiting :=
  let ctrl := x.waiting.any (·.ctrl)
  let mine := x.waiting.filter (fun w => w.ctrl == ctrl)
  let last := if ctrl then x.ownCtrl else x.ownData
  match mine.find? (fun w => w.own != last) with
  | some w => some w
  | none => mine.head?

/-- A frame starts on a port (R372), which it occupies for its length at the port's rate. -/
def startFrame (p : Nat) (w : Waiting) : Plan := fun s =>
  let now := 200 * s.var .clk
  let rate := s.macRate p (s.portSt p).rateMap
  let time := if rate = 0 then 0 else (12 * w.len + rate - 1) / rate
  [setPort p (fun x => { x with
      waiting := x.waiting.erase w, busy := max x.busy now + time
      ownCtrl := if w.ctrl then w.own else x.ownCtrl, ownData := if w.ctrl then x.ownData else w.own }),
   .emit { w.out with wire := [p, s.get .PORT_NEIGHBOR_MAC_MAC p, s.get .PORT_MAC_MAC p] ++ w.out.wire },
   s.addF .PORT_FRAMES_TX 1 p]

/-- Frames that wait at a port start while it is free. -/
def pumpPort (p : Nat) : Plan := fun s =>
  planEach (s.portSt p).waiting (fun _ s' =>
    let x := s'.portSt p
    match x.nextFrame with
    | some w => if s'.portUsable p ∧ x.busy ≤ 200 * s'.var .clk then startFrame p w s' else []
    | none => []) s

/-- A frame goes to the egress port that its entry gives, or is discarded: for want of one, or a transit frame for want of
room among the 256 KiB of those that wait there (R371, R374). -/
def handFrame (w : Waiting) : Plan := fun s =>
  match s.choose w.entry w.id w.udp w.from' with
  | none => [s.addF .PORT_FWD_STATS_NO_ROUTE 1]
  | some p => plans [pumpPort p, fun s' =>
      let used := (((s'.portSt p).waiting.filter (fun x => !x.own)).map (·.len)).foldl (· + ·) 0
      if !w.own ∧ used + w.len > 262144 then [s'.addF .PORT_DROPS_BUF_FULL 1 p]
      else [setPort p (fun x => { x with waiting := x.waiting ++ [w] })],
    pumpPort p] s

/-- A port is no longer selected: the frames that wait there take another egress (R364). -/
def reselect (p : Nat) : Plan := fun s =>
  plans [fun _ => [setPort p (fun x => { x with waiting := [] })], planEach (s.portSt p).waiting handFrame] s

/-! What the module sends (R372, R380, R387, R401). -/

/-- The IPv6 address of an endpoint, as a number whose byte k is byte k in network order (R370, R386). -/
def State.addrOf (s : State) (ep : Nat) : Nat :=
  if ep < 65536 then s.get .PORT_FWD_PREFIX_HI_PREFIX + s.get .PORT_FWD_PREFIX_LO_PREFIX * 2 ^ 64 +
    ep / 256 * 2 ^ 112 + ep % 256 * 2 ^ 120
  else s.get .XPORT_SVC_ADDR_HI_ADDR ep + s.get .XPORT_SVC_ADDR_LO_ADDR ep * 2 ^ 64

/-- The bytes of a number in network order. -/
def netBytes (n v : Nat) : List Nat := (leBytes n v).reverse

/-- The sum of the 16-bit words of a byte string in network order, and the Internet checksum of such a sum. -/
def wordSum : List Nat → Nat
  | [] => 0
  | [a] => 256 * a
  | a :: b :: r => 256 * a + b + wordSum r
def checksum (sum : Nat) : Nat :=
  let c := 65535 - (if sum = 0 then 0 else (sum - 1) % 65535 + 1)
  if c = 0 then 65535 else c

/-- The UDP header of a frame of this module to an endpoint, its checksum left 0. -/
def udpHeader (udp dport len : Nat) : List Nat := netBytes 2 udp ++ netBytes 2 dport ++ netBytes 2 (8 + len) ++ [0, 0]

/-- The UDP checksum that the module fills (R380). -/
def State.udpSum (s : State) (ep udp dport : Nat) (payload : List Nat) : Nat :=
  checksum (wordSum (leBytes 16 (s.addrOf (s.get .PORT_FWD_CFG_OWN_ID)) ++ leBytes 16 (s.addrOf ep)) +
    8 + payload.length + 17 + wordSum (udpHeader udp dport payload.length ++ payload))

/-- A frame of this module goes to its port (R371, R372, R374): `payload` is what its UDP datagram holds. -/
def localFrame (k : OutKind) (ep udp dport tc : Nat) (args data payload : List Nat) : Plan := fun s =>
  handFrame ⟨tc == s.get .PORT_FWD_CFG_CTRL_TC, true, 14 + 40 + 8 + payload.length + 4, s.fwdEntry ep, ep % 65536, udp, 16,
    ⟨k, ep, args, data, [max 1 (s.get .PORT_FWD_CFG_HOP_LIMIT), tc, udp, dport, 8 + payload.length,
      s.udpSum ep udp dport payload]⟩⟩ s

/-- One step of the IEEE 802.3 CRC over the low bit, which an ICRC uses. -/
def icrcBit (c : Nat) : Nat := if c % 2 = 1 then (c / 2) ^^^ 0xEDB88320 else c / 2

/-- The ICRC of a packet without its last four bytes: eight bytes of ones, then the packet from its IPv6 header with
Traffic Class, Flow Label, Hop Limit, UDP checksum and the reserved byte of the transport header read as ones. PRESUMED
(notes/assumptions/66.md). -/
def icrc (p : List Nat) : Nat :=
  let mask := (p.getD 0 0 ||| 0x0F) :: [255, 255, 255] ++ (p.drop 4).take 3 ++ [255] ++ (p.drop 8).take 38 ++ [255, 255] ++
    (p.drop 48).take 4 ++ [255] ++ p.drop 53
  (List.replicate 8 255 ++ mask).foldl (fun c b => (List.range 8).foldl (fun x _ => icrcBit x) (c ^^^ b)) 0xFFFFFFFF ^^^ 0xFFFFFFFF

/-- The endpoint that an IPv6 address of 16 bytes in network order names: an id under the job prefix, 65,536 plus a
service entry's index, or none (R370, R386). `addr` holds byte k at bits [8k + 7 : 8k]. -/
def State.epOf (s : State) (addr : Nat) : Option Nat :=
  if bits addr 0 64 = s.get .PORT_FWD_PREFIX_HI_PREFIX ∧ bits addr 64 48 = s.get .PORT_FWD_PREFIX_LO_PREFIX then
    some (bits addr 112 8 * 256 + bits addr 120 8)
  else (List.range 256).findSome? (fun i =>
    let e := 65536 + i
    if s.get .XPORT_EP_CFG_KIND e ≠ 0 ∧ s.get .XPORT_SVC_ADDR_HI_ADDR e = bits addr 0 64 ∧
        s.get .XPORT_SVC_ADDR_LO_ADDR e = bits addr 64 64 then some e else none)

end Sys2Proof.Machine
end

