-- ==== Sys2Proof/Machine/Gt.lean ====
section
/-!
DEFINITION. The sending side of Garnis Transport (R381 to R395) and the ways between the module's own units: frames and
their sequence numbers, NAKs, messages to a rank, and the tokens a unit sends on a queue.
-/
namespace Sys2Proof.Machine

/-! Connections (R381, R387). -/

/-- `a` precedes `b` as 32-bit serial numbers (R381). -/
def serialBefore (a b : Nat) : Bool :=
  let d := (b % 2 ^ 32 + 2 ^ 32 - a % 2 ^ 32) % 2 ^ 32
  1 ≤ d && d < 2 ^ 31

/-- The index of a connection: endpoint and channel. -/
def connIdx (ep ch : Nat) : Nat := ep * 4 + ch % 4

def State.conn (s : State) (ep ch : Nat) : Conn := Sparse.get {} s.xport.conns (connIdx ep ch)

def setConn (ep ch : Nat) (c : Conn) : Upd :=
  .xport (fun x => { x with conns := Sparse.set {} x.conns (connIdx ep ch) c })

/-- XPORT_EP_STATE.CONN: 0 CLOSED, 1 OPENING, 2 OPEN, 3 QUARANTINED, 4 FAILED. -/
def State.connState (s : State) (ep ch : Nat) : Nat := s.get .XPORT_EP_STATE_CONN (connIdx ep ch)

/-- Channels that an endpoint's connections open on (R386, R387). -/
def State.newChannels (s : State) (ep : Nat) : Nat :=
  if s.get .XPORT_EP_CFG_KIND ep = 1 ∧ ep < 65536 then s.get .XPORT_CFG_CHANNELS_M1 + 1 else 2

/-- Channels of an endpoint, as its first connection found them (R387, R409). -/
def State.channels (s : State) (ep : Nat) : Nat :=
  if s.connState ep 0 = 0 ∨ (s.conn ep 0).chans = 0 then s.newChannels ep else (s.conn ep 0).chans

/-! What a journal sink's record declares (R168). -/

/-- SPRING_SINK_STATE.STATE: 0 UNUSED, 1 CONNECTING, 2 ACTIVE, 3 STANDBY, 4 FAILED, 5 DISABLED. -/
def State.sinkSt (s : State) (k : Nat) : Nat := s.get .SPRING_SINK_STATE_STATE k
def State.sink (s : State) (k : Nat) : Sink := Sparse.get {} s.spring.sinks k
def State.sinkDecl (s : State) (k : Nat) : Nat := (s.sink k).decl % 2 ^ 512
def State.sinkRoce (s : State) (k : Nat) : Bool := s.get .SPRING_SINK_STATE_PROTOCOL k == 1

/-- The endpoint of a sink; past the service entries where none holds it, so that the default entry routes it. -/
def State.sinkEp (s : State) (k : Nat) : Nat := (s.epOf (recGet (s.sinkDecl k) 8 16)).getD (65536 + 256)

/-- The sink of an endpoint. -/
def State.epSink (s : State) (ep : Nat) : Option Nat :=
  (List.range 8).find? (fun k => s.sinkSt k != 0 && s.sinkEp k == ep)

/-- The UDP port that new connections of an endpoint use: UDP_PORT of a GT sink's record (R168), else GT_UDP_PORT. DEDUCED
(notes/assumptions/104.md). -/
def State.newPort (s : State) (ep : Nat) : Nat :=
  match s.epSink ep with
  | some k => if s.sinkRoce k then s.get .XPORT_CFG_GT_UDP_PORT else recGet (s.sinkDecl k) 24 2
  | none => s.get .XPORT_CFG_GT_UDP_PORT

/-- The CREDIT this side grants (R391): ACK plus the window, less the frames held that units have not taken. -/
def Conn.grant (c : Conn) : Nat := (c.rcv + c.win + 2 ^ 32 - c.ready.length) % 2 ^ 32

/-- Bytes 0 to 43 of a GT header (R381), of the fields from OPCODE on. -/
def gtHeader (op ch flags inc seq ack credit : Nat) (b : GtBody) : List Nat :=
  [1, op, ch, flags] ++ leBytes 4 inc ++ leBytes 4 seq ++ leBytes 4 ack ++ leBytes 4 credit ++
    leBytes 2 b.payload.length ++ [b.gen % 16, 0] ++ leBytes 8 b.step ++ leBytes 8 b.arg0 ++ leBytes 4 b.arg1

/-- The frame as it leaves (R380, R381): FLAGS.HOLD says that the sender is in HOLD or STOPPED. -/
def State.frame (s : State) (ep ch flags seq : Nat) (c : Conn) (b : GtBody) : List Upd :=
  let flags' := flags + (if s.running then 0 else 2)
  let inc := s.get .XPORT_STATUS_INCARNATION
  let h := gtHeader b.op ch flags' inc seq c.rcv c.grant b
  localFrame .gt ep (udpSource ep ch) (if c.udp = 0 then s.newPort ep else c.udp)
    (if flags % 2 = 1 then s.get .PORT_FWD_CFG_CTRL_TC else 0)
    [b.op, ch, flags', inc, seq, c.rcv, c.grant, b.gen, b.step, b.arg0, b.arg1, 1, b.payload.length, crc32c h]
    b.payload (h ++ leBytes 4 (crc32c h) ++ b.payload) s

/-- An unsequenced frame leaves: KEEPALIVE, ACK, NAK, HELLO or HELLO_ACK (R383). -/
def sendUnseq (ep ch : Nat) (ackValid : Bool) (b : GtBody) : Plan := fun s =>
  s.frame ep ch (1 + (if ackValid then 8 else 0)) 0 (s.conn ep ch) { b with gen := s.get .CLAY_GEN_ACTIVE % 16 } ++
  [s.addF .XPORT_TOTALS_TX 1]

/-- The next frame of a connection takes its SEQ and leaves, carrying the acknowledgement (R391, R392). -/
def transmit (ep ch : Nat) (b : GtBody) : Plan := fun s =>
  let c := s.conn ep ch
  s.frame ep ch 8 c.next c b ++ [s.addF .XPORT_TOTALS_TX 1,
   setConn ep ch { c with next := (c.next + 1) % 2 ^ 32, unacked := c.unacked ++ [{ seq := c.next, body := b }], owe := false }]

/-- Whether a connection carries frames: OPEN, or QUARANTINED on the peer's side only (R400). -/
def State.connUp (s : State) (ep ch : Nat) : Bool := s.connState ep ch == 2 || s.connState ep ch == 3

/-- Whether frames of fetched data of a lease still wait to depart (R346). -/
def State.serving (s : State) (l : Lease) : Bool :=
  (s.conn l.rank 0).wait.any (fun b => b.op == 0x34 && b.arg0 == l.key && b.step == l.version)

/-- Leases released while their fetch was served go with its last frame (R346). -/
def endLeases : Plan := fun s =>
  if s.coll.ended.all s.serving then []
  else
    let gone : Lease → Bool := fun l => s.coll.ended.contains l && !s.serving l
    [.coll (fun c => { c with lent := c.lent.filter (fun l => !gone l), ended := c.ended.filter s.serving })]

/-- Frames that wait leave while the peer's CREDIT allows (R391). -/
def drainConn (ep ch : Nat) : Plan := plans [
  fun s => planEach (s.conn ep ch).wait (fun b s' =>
    let c := s'.conn ep ch
    if s'.connUp ep ch && serialBefore c.next c.credit then
      plans [fun _ => [setConn ep ch { c with wait := c.wait.drop 1 }], transmit ep ch b] s'
    else []) s,
  endLeases]

/-- The die in whose retransmit store an endpoint's frames stand: that of the port of its first alternative (ports 0 to 7
are on die W). DESIGN CHOICE (notes/assumptions/105.md). -/
def State.storeDie (s : State) (ep : Nat) : Nat := bits (s.fwdEntry ep) 0 4 / 8

/-- Bytes in the retransmit store of a die (R391). -/
def State.storeBytes (s : State) (die : Nat) : Nat :=
  (s.xport.conns.filter (fun p => s.storeDie (p.1 / 4) == die)).foldl (fun t p =>
    t + p.2.unacked.foldl (fun t x => t + 48 + x.body.payload.length) 0 +
      p.2.wait.foldl (fun t b => t + 48 + b.payload.length) 0) 0

/-- The retransmit store that an endpoint's frames take has room for one of a payload, and no frame waits for it: a frame
that finds the store full holds its unit (R391). -/
def State.storeRoom (s : State) (ep len : Nat) : Bool :=
  s.storeBytes (s.storeDie ep) + 48 + len ≤ 2 ^ 24 &&
  !s.xport.parked.any (fun x => s.storeDie x.1 == s.storeDie ep)

/-- Both stores have room for a whole frame. -/
def State.storesRoom (s : State) : Bool := (List.range 2).all (fun d =>
  s.storeBytes d + 48 + 8960 ≤ 2 ^ 24 && !s.xport.parked.any (fun x => s.storeDie x.1 == d))

/-- A frame joins those that wait for the connection's turn and the peer's credit (R391). -/
def gtQueue (ep ch : Nat) (b : GtBody) : Plan := plans [
  fun s => let c := s.conn ep ch; [setConn ep ch { c with wait := c.wait ++ [b] }], drainConn ep ch]

/-- A unit hands a frame to the transport, or is held with it for want of room in the store (R391). -/
def gtSend (ep ch : Nat) (b : GtBody) : Plan := fun s =>
  let b' := { b with gen := s.get .CLAY_GEN_ACTIVE % 16 }
  if s.storeRoom ep b.payload.length then gtQueue ep ch b' s
  else [.xport (fun x => { x with parked := x.parked ++ [(ep, ch, b')] })]

/-- Frames that waited for room in their store go into it, oldest first (R391). -/
def unpark : Plan := fun s =>
  planEach s.xport.parked (fun x s' =>
    let first := (s'.xport.parked.find? (fun y => s'.storeDie y.1 == s'.storeDie x.1)) == some x
    if first && s'.storeBytes (s'.storeDie x.1) + 48 + x.2.2.payload.length ≤ 2 ^ 24 then
      plans [fun _ => [.xport (fun y => { y with parked := y.parked.erase x })], gtQueue x.1 x.2.1 x.2.2] s'
    else []) s

/-- Whether a connection may send a NAK now: one per 256 clk (R398). -/
def State.nakFree (s : State) (ep ch : Nat) : Bool :=
  (s.conn ep ch).nakAt == 0 || s.var .clk + 1 ≥ (s.conn ep ch).nakAt + 256

/-- A NAK leaves for a connection. -/
def nakFrame (ep ch : Nat) (ackValid : Bool) (reason sub op seq detail : Nat) : Plan := plans [
  fun s => [setConn ep ch { s.conn ep ch with nakAt := s.var .clk + 1 }],
  sendUnseq ep ch ackValid { op := 2, payload := [reason, sub, op, ch] ++ leBytes 4 seq ++ leBytes 8 detail }]

/-- One NAK of a connection per 256 clk (R398). -/
def sendNak (ep ch reason sub op seq detail : Nat) : Plan := fun s =>
  if s.nakFree ep ch then nakFrame ep ch true reason sub op seq detail s else [s.addF .XPORT_VIOL_NAK_SUPPRESSED 1]

/-- One NO_CONN NAK of a port, and one NAK of a connection, per 256 clk (R398). -/
def sendNoConn (port ep ch op seq : Nat) : Plan := fun s =>
  let last := Sparse.get 0 s.xport.nakPort port
  if (last = 0 ∨ s.var .clk + 1 ≥ last + 256) ∧ s.nakFree ep ch then
    plans [fun _ => [.xport (fun x => { x with nakPort := Sparse.set 0 x.nakPort port (s.var .clk + 1) })],
      nakFrame ep ch false 4 0 op seq 0] s
  else [s.addF .XPORT_VIOL_NAK_SUPPRESSED 1]

/-- Bytes 0 to 7 of a frame's header as a number (R399). -/
def gtHeader8 (f : GtFrame) : Nat :=
  ofLe ([1, f.body.op, f.ch + f.rsv % 64 * 4, f.flags + f.rsv / 64 * 16] ++ leBytes 4 f.inc)

/-- An endpoint's id as events and logs show it (R386): a service entry is 0x1_0000 and its index. -/
def epShown (ep : Nat) : Nat := ep

/-- A protocol violation (R398 to R400): NAK, log entry, counts, and quarantine when 64 others came less than
1,500,000 clk before. `hdr` is bytes 0 to 7 of the header. -/
def violation (ep ch reason op seq hdr : Nat) (detail : Nat := 0) : Plan := fun s =>
  let c := s.conn ep ch
  let now := s.var .clk
  let quar := match c.viol.getD 63 (now + 1) with
    | t => decide (c.viol.length ≥ 64) && decide (now < t + 1500000) && s.connState ep ch != 3
  let h := s.get .XPORT_VIOL_HEAD
  let entry := ofLe (leBytes 6 (s.get .BEAT_COUNT_COUNT) ++ leBytes 2 (ep % 65536) ++ [reason, op, ch] ++
    [b2n quar + (if ep ≥ 65536 then 2 else 0)] ++ leBytes 4 seq ++ leBytes 4 (s.get .BEAT_STATUS_PHASE) ++
    leBytes 4 0 ++ leBytes 8 hdr) + 2 ^ 256
  plans [fun _ =>
      [.xport (fun x => { x with vlog := Sparse.set 0 x.vlog h entry }),
       setF .XPORT_VIOL_HEAD ((h + 1) % 512), s.addF .XPORT_VIOL_COUNT 1,
       s.addF .XPORT_CONN_STATS_VIOLATIONS 1 (connIdx ep ch),
       setConn ep ch { c with viol := (now :: c.viol).take 64 }] ++
      (if Sparse.get 0 s.xport.vlog h ≠ 0 then [setF .XPORT_STATUS_VLOG_WRAPPED 1] else []),
    sendNak ep ch reason 0 op seq detail,
    fun s' => if quar then
        setF .XPORT_EP_STATE_CONN 3 (connIdx ep ch) :: s'.addF .XPORT_VIOL_QUARANTINES 1 ::
          postEvent 0x34 6 0 ((epShown ep) % 65536) (epShown ep) ch s'
      else []] s

/-! Opening and closing (R388, R389, R394). -/

/-- A HELLO or HELLO_ACK of this module (R388). -/
def helloBody (s : State) (op : Nat) : GtBody :=
  let p := leBytes 2 (s.get .PORT_FWD_CFG_OWN_ID) ++ [1, 0] ++ leBytes 4 (s.get .XPORT_CFG_RX_WINDOW) ++ leBytes 8 0
  { op := op, payload := p }

/-- A closed connection opens: HELLO leaves (R388). Frames that a unit has handed over wait for it. -/
def openConn (ep ch : Nat) : Plan := fun s =>
  if s.connState ep ch = 0 then
    plans [fun _ => [setF .XPORT_EP_STATE_CONN 1 (connIdx ep ch),
        setConn ep ch { win := s.get .XPORT_CFG_RX_WINDOW, udp := s.newPort ep, chans := s.newChannels ep
                        wait := (s.conn ep ch).wait, viol := (s.conn ep ch).viol, nakAt := (s.conn ep ch).nakAt }],
      sendUnseq ep ch false (helloBody s 3)] s
  else []

/-- The connections of an endpoint open. -/
def openEp (ep : Nat) : Plan := fun s => planEach (List.range (s.newChannels ep)) (openConn ep) s

/-- The connections of every MODULE and SINK endpoint open where they are closed (R388). -/
def openEndpoints : Plan := fun s =>
  planEach ((s.listed .XPORT_EP_CFG_KIND).filter (fun ep =>
    ep != s.rank && (s.get .XPORT_EP_CFG_KIND ep == 1 || s.get .XPORT_EP_CFG_KIND ep == 2))) openEp s

/-- A connection is left in a state without its frames, which are counted (R389, R394). -/
def dropConn (ep ch st : Nat) : Plan := plans [fun s =>
    let c := s.conn ep ch
    [setF .XPORT_EP_STATE_CONN st (connIdx ep ch),
     s.addF .XPORT_CONN_STATS_DISCARDED (c.unacked.length + c.wait.length) (connIdx ep ch),
     setConn ep ch { viol := c.viol, nakAt := c.nakAt }],
  endLeases, unpark]

/-! Messages to a rank. -/

/-- Whether a rank is LIVE in the view (R327). -/
def State.live (s : State) (rank : Nat) : Bool := rank == s.rank || s.get .COLL_PEER_STATE rank == 0

/-- A unit sends to a rank: over the NoC within this module, in GT frames on channel `ch` to another, and nothing to one
that the view holds absent (R327). -/
def toRank (rank ch : Nat) (b : GtBody) : Plan := fun s =>
  if rank = s.rank then [.xport (fun x => { x with noc := x.noc ++ [b] })]
  else if s.live rank then gtSend rank ch b s
  else []

/-- Entries of one destination packed into payloads of at most `cap` bytes, in order. -/
def packFrames (cap : Nat) (es : List (List Nat)) : List (List Nat) :=
  es.foldl (fun fs e => match fs with
    | [] => [e]
    | f :: rest => if f.length + e.length ≤ cap then (f ++ e) :: rest else e :: f :: rest) [] |>.reverse

/-- Bytes that a frame of lookup requests, or of pushes, may hold (R381, R384). -/
def entryCap (op : Nat) : Nat := if op = 0x20 then 24 * 373 else 8960

/-- An entry is to be forwarded to a rank (R384). -/
def forwardEntry (rank op step : Nat) (e : List Nat) : Upd :=
  .rows (fun r => { r with forward := r.forward ++ [(rank, op, step, e)] })

/-- The entries gathered leave: those of one step for one rank share frames, and pushes for a rank that is absent are
discarded and counted (R349, R384). -/
def sendForwards : Plan := fun s =>
  let kinds := (s.rows.forward.map (fun f => (f.1, f.2.1, f.2.2.1))).eraseDups
  if s.rows.forward.isEmpty then []
  else plans [fun _ => [.rows (fun r => { r with forward := [] })],
    planEach kinds (fun k s' =>
      let es := (s.rows.forward.filter (fun f => (f.1, f.2.1, f.2.2.1) == k)).map (·.2.2.2)
      if s'.live k.1 then planEach (packFrames (entryCap k.2.1) es) (fun p =>
        toRank k.1 0 { op := k.2.1, step := k.2.2, payload := p }) s'
      else if k.2.1 = 0x22 then [s'.addF .COLL_MISSING_PUSH_LOST es.length]
      else [])] s

/-- The n-th message of an opcode on its way over the NoC. -/
def State.nocMsg (s : State) (op n : Nat) : Option GtBody := (s.xport.noc.filter (fun b => b.op == op))[n]?

/-- A list without the n-th element that satisfies `c`. -/
def dropNth {α : Type} (c : α → Bool) : Nat → List α → List α
  | _, [] => []
  | n, x :: xs => if c x then (if n = 0 then xs else x :: dropNth c (n - 1) xs) else x :: dropNth c n xs

/-- A message arrives over the NoC and its meaning acts; where no such message is on its way, nothing arrives. -/
def nocArrive (op n : Nat) (body : GtBody → Plan) : Plan := fun s =>
  match s.nocMsg op n with
  | none => []
  | some b => plans [fun _ => [.xport (fun x => { x with noc := dropNth (fun y => y.op == op) n x.noc })], body b] s

/-! Queues (R35 to R41, R160). -/

def State.queue (s : State) (q : Nat) : Queue := Sparse.get {} s.queues q

/-- PROD_KIND or CONS_KIND of a queue under the active image (R160); 15 for none. An ingest queue, whose producer is the
transport of this module (R405), reads as kind 6. -/
def State.prodKind (s : State) (q : Nat) : Nat :=
  match s.img.queueRec q with
  | some r => if recGet r 4 1 = 5 ∧ recGet r 6 2 = 0xFFFF then 6 else recGet r 4 1
  | none => 15
def State.consKind (s : State) (q : Nat) : Nat :=
  match s.img.queueRec q with | some r => recGet r 5 1 | none => 15

/-- Whether a token may depart on a queue: there is a credit (R37), and for another module room in the store (R391). -/
def State.maySend (s : State) (q : Nat) : Bool :=
  (s.queue q).credits > 0 &&
  (s.consKind q != 5 || s.storeRoom (recGet ((s.img.queueRec q).getD 0) 10 2) 256)

/-- A token departs on a queue with a credit (R37): inside the module, or in a QTOKEN frame to its peer (R41, R395). -/
def sendToken (q t : Nat) : Plan := fun s =>
  if s.consKind q = 5 then
    let r := (s.img.queueRec q).getD 0
    plans [fun _ => [.queue q .sendOut], gtSend (recGet r 10 2) 0 { op := 0x10, arg0 := 1, arg1 := recGet r 20 4, payload := leBytes 256 t }] s
  else [.queue q (.send (BitVec.ofNat 2048 t))]

/-- Where a cell consumer keeps its `n`-th token: the buffer at BUF_OFFSET of the cell's QUEUE region is a ring of DEPTH
tokens (R36, R160); none for a consumer whose buffer lies inside its unit. DESIGN CHOICE: the ring order
(notes/assumptions/87.md). -/
def State.tokenAddr (s : State) (q n : Nat) : Option Nat :=
  match s.img.queueRec q with
  | some r =>
    if recGet r 5 1 ≠ 0 then none
    else some (cellTarn (recGet r 8 2)
      ((s.region 9 (recGet r 8 2)).1 * 4096 + recGet r 16 4 + 256 * (n % max 1 (recGet r 2 2))))
  | none => none

/-- A token that a cell consumer takes in is written into its buffer (R36). -/
def keepToken (q t : Nat) : Plan := fun s =>
  match s.tokenAddr q (s.var .qPlace q) with
  | some a => writeMem a (leBytes 256 t) s ++ [.var .qPlace q ((s.var .qPlace q + 1) % max 1 (s.queue q).depth)]
  | none => []

/-- Where the oldest token of a cell consumer stands. -/
def State.oldestAddr (s : State) (q : Nat) : Option Nat :=
  s.tokenAddr q (s.var .qPlace q + (s.queue q).depth - (s.queue q).buf.length)

/-- The oldest token leaves a consumer's buffer and its credit departs on the same clk: inside the module at once, to
another in the next QCREDIT frame (R38, R395). -/
def takeToken (q : Nat) : Plan := fun s =>
  if s.prodKind q = 5 then [.queue q .deqOut, s.addV .qReport 1 q] else [.queue q .deq]

/-- The oldest slice of a unit that waits for an operation is relieved of it. -/
def unitOpDone (kind index : Nat) : Upd :=
  .slices (mapFirst (fun x => x.kind == kind && x.index == index && x.ops > 0) (fun x => { x with ops := x.ops - 1 }))

/-- Slice kind (R161) of a producer kind (R160): both number the units alike but for the array. -/
def unitOf (s : State) (q : Nat) : Nat × Nat :=
  match s.img.queueRec q with
  | some r => (recGet r 4 1, recGet r 6 2)
  | none => (15, 0)

/-- Whether a unit holds a slice for a queue's credit. -/
def State.unitHeld (s : State) (q : Nat) : Bool := (Sparse.get [] s.xport.outbox q).any (·.2.isSome)

/-- The held clk of a unit's slice count toward its queue's stall, up to `ahead` clk from now, and a slice that still holds
goes on holding from there (R37). -/
def noteUnitHold (ahead q : Nat) : Plan := fun s =>
  let now := s.var .clk + ahead
  (if s.var .qHeldAt q = 0 then [] else [.queue q (.stalled (now + 1 - s.var .qHeldAt q))]) ++
  [.var .qHeldAt q (if s.unitHeld q then now + 1 else 0)]

/-- Tokens that a unit holds depart while credits last (R37); a slice that waits for one is relieved. -/
def drainOutbox (q : Nat) : Plan := plans [
  fun s => planEach (Sparse.get [] s.xport.outbox q) (fun t s' =>
    if !s'.maySend q then []
    else plans [fun s2 => .xport (fun x => { x with
          outbox := Sparse.set [] x.outbox q ((Sparse.get [] s2.xport.outbox q).drop 1) }) ::
        (match t.2 with | some u => [unitOpDone u.1 u.2] | none => []), sendToken q t.1.toNat] s') s,
  noteUnitHold 0 q]

/-- What every unit that holds a slice for credit has held is counted at the latch (R37, R42). -/
def noteUnitHolds (ahead : Nat) : Plan := fun s => planEach (s.listedVar .qHeldAt) (noteUnitHold ahead) s

/-- Tokens join a unit's outbox. -/
def pushOut (q : Nat) (ts : List Nat) (who : Option (Nat × Nat)) : Upd :=
  .xport (fun x => { x with
    outbox := Sparse.set [] x.outbox q (Sparse.get [] x.outbox q ++ ts.map (fun t => (BitVec.ofNat 2048 t, who))) })

/-- A unit sends tokens on a queue; those without a credit wait in its outbox, and its slice with them. -/
def unitSend (q : Nat) (ts : List Nat) : Plan := fun s =>
  plans [fun _ => [pushOut q ts (some (unitOf s q)),
    .slices (mapFirst (fun x => x.kind == (unitOf s q).1 && x.index == (unitOf s q).2 && x.st == 1)
      (fun x => { x with ops := x.ops + ts.length }))], drainOutbox q] s

/-- A unit sends tokens for no slice of its own. -/
def freeSend (q : Nat) (ts : List Nat) : Plan := plans [fun _ => [pushOut q ts none], drainOutbox q]

/-! Requests to the history units (R302). -/

/-- The die whose unit consumes a queue. -/
def State.kvDie (s : State) (q : Nat) : Option Nat :=
  match s.img.queueRec q with
  | some r => if recGet r 5 1 = 1 ∧ recGet r 8 2 < 2 then some (recGet r 8 2) else none
  | none => none

/-- The cell whose slices are charged with what a history unit does for a queue: the queue's producer, unless a GRAD item
of the die names the queue (R206, R302). -/
def State.kvAsker (s : State) (q : Nat) : Option Nat :=
  match s.kvDie q, s.img.queueRec q with
  | some die, some r =>
    if recGet r 4 1 = 0 ∧ (List.range 256).all (fun i =>
        let w := s.get .EMB_WORK_ITEM (die * 256 + i)
        bits w 0 4 != 3 || bits w 8 13 != q) then some (recGet r 6 2)
    else none
  | _, _ => none

/-- A request token leaves: the slice that sends it must see it served before it retires (R302). -/
def chargeAsker (q : Nat) : Plan := fun s =>
  match s.kvAsker q with
  | some c => [.slices (mapFirst (fun y => y.kind == 0 && y.index == c && y.st == 1) (fun y => { y with ops := y.ops + 1 }))]
  | none => []

/-- `n` request tokens of a queue have been served. -/
def relieveAsker (q n : Nat) : Plan := fun s =>
  match s.kvAsker q with
  | some c => List.replicate n (unitOpDone 0 c)
  | none => []

/-- A history unit answers requests of queue `q` with tokens on another queue; the slice that asked waits until they have
departed (R19, R302). -/
def answerSend (q reply : Nat) (ts : List Nat) : Plan := fun s =>
  match s.kvAsker q with
  | some c => plans [fun _ => [pushOut reply ts (some (0, c)),
      .slices (mapFirst (fun x => x.kind == 0 && x.index == c && x.ops > 0) (fun x => { x with ops := x.ops + ts.length }))],
    drainOutbox reply] s
  | none => freeSend reply ts s

end Sys2Proof.Machine
end

