-- ==== Sys2Proof/Machine/CellMem.lean ====
section
/-!
DEFINITION. The cell's accesses to its Tarn (R139 to R141, R492), its queues (R142), weight streams (R90, R91) and
activation stash (R84, R143).
-/
namespace Sys2Proof.Machine

/-! Loads and stores. -/

/-- The byte offset of a vector or scalar access: A[SA] plus the signed immediate, with the low bits ignored (R139). DESIGN
CHOICE (notes/assumptions/88.md): that sum is taken modulo 2^48, and the sum of a gather or scatter lane is not. -/
def effAddr (cell : Nat) (w : CellWord) (align : Nat) (s : State) : Nat :=
  wrapInt 48 ((s.aReg cell w.sa.toNat : Int) + w.simm 23) / align * align

/-- Offsets of the lanes of VGATH and VSCAT (R139). -/
def gatherAddrs (cell : Nat) (w : CellWord) (s : State) : List Nat :=
  (s.lanes cell w.sb.toNat).map (fun x => (s.aReg cell w.sa.toNat + x) / 4 * 4)

/-- Active lanes with their offsets, ascending. -/
def activeLanes (m : Nat) (offs : List Nat) : List (Nat × Nat) :=
  (offs.zipIdx.filter (fun p => m.testBit p.2)).map (fun p => (p.2, p.1))

/-- The first byte at or beyond the Tarn's end that a run names (R139). -/
def firstBeyond (o n : Nat) : Option Nat := if o + n ≤ 0x180000 then none else some (max o 0x180000)

/-- Lines of byte runs in a cell Tarn, each once. -/
def tarnLines (cell : Nat) (runs : List (Nat × Nat)) : List Nat :=
  (runs.map (fun r => linesOf (cellTarn cell r.1) r.2)).flatten.eraseDups

/-- What loads report of the lines they read (R141). -/
def noteLoads (cell : Nat) (lines : List Nat) : Plan :=
  planEach lines (fun a => plans [noteRead 0 a, fun s =>
    if s.lineBad a then [setF .CELL_SEQ_FLAGS_LOAD_UE 1 cell, s.addF .CELL_SEQ_FLAGS_UE_COUNT 1 cell] else []])

/-- The 4 B of a lane, or the canonical NaN from a bad line (R141). -/
def State.laneAt (s : State) (cell o : Nat) : Nat :=
  if s.lineBad (cellTarn cell o) then fNaN else s.leAt (cellTarn cell o) 4

/-- VLD and VGATH: each active lane takes 4 B (R140). The offending offset that an ADDRESS trap gives is that of the
lowest-numbered offending lane: DESIGN CHOICE (notes/assumptions/89.md). -/
def loadLanes (offs : CellWord → Nat → State → List Nat) : CellFn := fun cell w s =>
  let act := activeLanes (s.mReg cell w.msk.toNat) (offs w cell s)
  match act.findSome? (fun p => firstBeyond p.2 4) with
  | some bad => .trap 2 0 bad
  | none =>
    let wait := s.streamsHeld cell (act.map (fun p => (p.2, 4)))
    if wait ≠ 0 then .hold 4 [.var .heldFor cell wait]
    else
      let new := (offs w cell s).map (s.laneAt cell)
      .done (setLanes cell w new s ++ noteLoads cell (tarnLines cell (act.map (fun p => (p.2, 4)))) s)

/-- The offsets of a 256 B vector access. -/
def vecOffs (w : CellWord) (cell : Nat) (s : State) : List Nat :=
  (List.range 64).map (fun i => effAddr cell w 4 s + 4 * i)

/-- Whether a store of a dropped micro-batch's slice into the stash is suppressed (R84). -/
def State.stashWrite (s : State) (cell o : Nat) : Bool :=
  let r := s.region 0 cell
  s.dropped cell && r.1 * 4096 ≤ o && o < (r.1 + r.2) * 4096

/-- Stores of lanes in ascending order, so that the highest active lane stands (R140). -/
def storeLanes (cell : Nat) (ps : List (Nat × Nat)) : Plan :=
  planEach ps (fun p s => if s.stashWrite cell p.1 then [] else writeMem (cellTarn cell p.1) (leBytes 4 p.2) s)

/-- VST and VSCAT. -/
def opStoreLanes (offs : CellWord → Nat → State → List Nat) : CellFn := fun cell w s =>
  let act := activeLanes (s.mReg cell w.msk.toNat) (offs w cell s)
  match act.findSome? (fun p => firstBeyond p.2 4) with
  | some bad => .trap 2 0 bad
  | none => .done (storeLanes cell (act.map (fun p => (p.2, (s.lanes cell w.sc.toNat).getD p.1 0))) s)

def opSld : CellFn := fun cell w s =>
  let o := effAddr cell w 8 s
  match firstBeyond o 8 with
  | some bad => .trap 2 0 bad
  | none =>
    let wait := s.streamsHeld cell [(o, 8)]
    if wait ≠ 0 then .hold 4 [.var .heldFor cell wait]
    else
      let v := if s.lineBad (cellTarn cell o) then fNaN + fNaN * 2 ^ 32 else s.leAt (cellTarn cell o) 8
      .done (setS cell w.dst.toNat v ++ noteLoads cell (tarnLines cell [(o, 8)]) s)

def opSst : CellFn := fun cell w s =>
  let o := effAddr cell w 8 s
  match firstBeyond o 8 with
  | some bad => .trap 2 0 bad
  | none =>
    if s.stashWrite cell o then .done []
    else .done (writeMem (cellTarn cell o) (leBytes 8 (s.sReg cell w.sc.toNat)) s)

/-! Queues (R142, R159). -/

/-- The ROUTES record of a cell's local index; `dir` 0 outbound, 1 inbound. -/
def State.route (s : State) (cell dir idx : Nat) : Option Nat :=
  (s.img.sec 2).find? (fun r => recGet r 0 1 == cell && bits (recGet r 1 1) 0 6 == idx + 32 * dir)

/-- The queue a route names, and whether SUPPRESS_ON_DROP marks it. -/
def routeQueue (r : Nat) : Nat × Bool := (bits (recGet r 2 2) 0 13, r.testBit 14)

/-- QSEND (R142). -/
def opQsend : CellFn := fun cell w s =>
  match s.route cell 0 (w.im 0 5) with
  | none => .trap 5 0 (w.im 0 5)
  | some r =>
    let (q, supp) := routeQueue r
    if supp && s.dropped cell then .done (setS cell w.sc.toNat 1)
    else if s.maySend q then
      .done (sendToken q (s.vReg cell w.sa.toNat) s ++ chargeAsker q s ++ setS cell w.sc.toNat 1)
    else if w.imm.toNat.testBit 5 then .done (setS cell w.sc.toNat 0)
    else .hold 1

/-- A received register: the token's lanes under the write mask. -/
def recvLanes (cell : Nat) (w : CellWord) (t : Nat) (s : State) : List Upd := setLanes cell w (unpack 32 64 t) s

/-- The lanes of a token that stands in the consumer's Tarn; what a line without data supplies is a free value (R414,
notes/assumptions/87.md). -/
def State.tokenLanes (s : State) (a : Nat) : List Nat :=
  (List.range 64).map (fun i => if s.lineBad (a + 4 * i) then s.free 32 i else s.leAt (a + 4 * i) 4)

/-- The oldest token of a queue is read into a register: from the consumer's Tarn, with the errors of its lines reported
(R36, R418), or from the unit's own buffer. -/
def readToken (cell : Nat) (w : CellWord) (q t : Nat) : Plan := fun s =>
  match s.oldestAddr q with
  | none => recvLanes cell w t s
  | some a => setLanes cell w (s.tokenLanes a) s ++
    plans [fun s' => if (linesOf a 256).any s.lineBad then [.var .freeCount 0 (s'.var .freeCount + 64)] else [],
      planEach (linesOf a 256) noteUnlisted] s

/-- QRECV (R142). -/
def opQrecv : CellFn := fun cell w s =>
  match s.route cell 1 (w.im 0 5) with
  | none => .trap 5 0 (w.im 0 5 + 32)
  | some r =>
    let (q, supp) := routeQueue r
    if supp && s.dropped cell then .done (recvLanes cell w 0 s ++ setS cell w.sc.toNat 1)
    else match (s.queue q).buf with
    | t :: _ => .done (readToken cell w q t.toNat s ++ takeToken q s ++ setS cell w.sc.toNat 1)
    | [] => if w.imm.toNat.testBit 5 then .done (setS cell w.sc.toNat 0) else .hold 2

/-- QPROBE (R142). -/
def opQprobe : CellFn := fun cell w s =>
  let dir := b2n (w.imm.toNat.testBit 5)
  match s.route cell dir (w.im 0 5) with
  | none => .trap 5 0 (w.im 0 5 + 32 * dir)
  | some r =>
    let q := s.queue (routeQueue r).1
    .done (setS cell w.dst.toNat (q.credits % 512 + q.buf.length % 512 * 512))

/-! Weight streams (R90 to R92, R165). -/

def State.streamRec (s : State) (k : Nat) : Option Nat := (s.img.sec 8).find? (fun r => recGet r 0 1 == k)

/-- The layer entries of a STREAMS record (R165). -/
def Image.layersOf (i : Image) (r : Nat) : List Nat := (Sparse.get [] i.layers (recGet r 36 4)).take (recGet r 4 2)

/-- State of a slot: 0 EMPTY, 1 FILLING, 2 READY. -/
def State.slotState (s : State) (k j : Nat) : Nat :=
  if (s.get .TIER_STREAM_READY k).testBit j then 2 else if (s.get .TIER_STREAM_FILLING k).testBit j then 1 else 0

/-- A slot takes a state. -/
def setSlot (k j st : Nat) (s : State) : List Upd :=
  [setF .TIER_STREAM_READY (putBits (s.get .TIER_STREAM_READY k) j 1 (b2n (st == 2))) k,
   setF .TIER_STREAM_FILLING (putBits (s.get .TIER_STREAM_FILLING k) j 1 (b2n (st == 1))) k]

/-- The layer of a stream's n-th fill: ascending for forward, then descending for backward, over and over (R92). -/
def layerOfFill (layers n : Nat) : Nat :=
  let m := n % (2 * max layers 1)
  if m < layers then m else 2 * layers - 1 - m

/-- Where a fill reads its layer's first element (R90, R264): in WORK_H at SOURCE_DPA; in MASTER at that element of the bank
which the shard's header names as the fill issues. DEDUCED (notes/assumptions/101.md): SOURCE_DPA names the element in either
bank of the shard. -/
def State.fillSrc (s : State) (r layer : Nat) : Nat :=
  let a := recGet layer 0 8
  match (if recGet r 2 1 = 0 then s.shardOver a else none) with
  | some h => s.bankAddr h (s.activeBank h) + (a - (h + 64)) % s.bankBytes h
  | none => a

/-- Whether the header that a fill reads is unreadable (R418). -/
def State.fillBad (s : State) (r layer : Nat) : Bool :=
  recGet r 2 1 == 0 && (match s.shardOver (recGet layer 0 8) with | some h => s.lineBad h | none => false)

/-- A fill whose source overlaps a fetch buffer with a fetch in progress holds (R345). -/
def State.fillBlocked (s : State) (r layer lo len : Nat) : Bool :=
  let w := max 1 (fmtWidth (recGet r 3 1) / 8)
  let sw := if recGet r 2 1 = 0 then 8 else w
  let a := s.fillSrc r layer + sw * (lo / w)
  s.coll.fetches.any (fun f => decide (a < f.dpa + f.len ∧ f.dpa < a + sw * (len / w)))

/-- WFILL (R91): a fill begins in an EMPTY slot, or goes on in the slot it fills; otherwise it holds. -/
def opWfill : CellFn := fun cell w s =>
  let k := w.im 0 4
  let j := w.im 4 3
  match s.streamRec k with
  | none => .done []
  | some r =>
    let lo := s.sReg cell w.sa.toNat
    let next := layerOfFill (recGet r 4 2) (s.var .streamPos k)
    let layer := (s.img.layersOf r).getD (if s.slotState k j = 0 then next else s.var .slotLayer (k * 8 + j)) 0
    let f : Fill := ⟨cell, k, j, lo, s.sReg cell w.sb.toNat, s.fillSrc r layer, s.fillBad r layer⟩
    let go : List Upd := [.cells (fun c => { c with fills := c.fills ++ [f] }), sliceOp cell]
    if j ≥ recGet r 1 1 then .done []
    else if s.slotState k j ≠ 2 ∧ s.fillBlocked r layer f.lo f.len then .hold 4 [.var .heldFor cell (2 ^ k)]
    else if s.slotState k j = 0 then
      .done (go ++ setSlot k j 1 s ++
        [.var .slotLayer (k * 8 + j) next, .var .slotFilled (k * 8 + j) 0,
         s.addV .streamPos 1 k])
    else if s.slotState k j = 1 ∧ 0 < lo then .done go
    else .hold 4 [.var .heldFor cell (2 ^ k)]

/-- WREL (R91): the slot becomes EMPTY at the boundary after the slice retires. -/
def opWrel : CellFn := fun _ w s =>
  if (s.streamRec (w.im 0 4)).isSome then .done [.var .slotRelease (w.im 0 4 * 8 + w.im 4 3) 1] else .done []

/-- The working element `e` of a fill's layer (R90): converted from the FP32C master by RNE, or copied; NaN from a bad
line, and where the shard's header could not be read. -/
def State.workElem (s : State) (r : Nat) (f : Fill) (e : Nat) : Nat :=
  let fmt := recGet r 3 1
  let w := fmtWidth fmt / 8
  let sw := if recGet r 2 1 = 0 then 8 else w
  let a := f.src + sw * e
  if f.bad || s.lineBad a then (encodeElem fmt .nan).1
  else if recGet r 2 1 = 0 then cvtFrom32 fmt (s.leAt a 4) else s.leAt a w

/-- Cells of a mask, ascending. -/
def maskCells (m : Nat) : List Nat := bitsSet 144 m

/-- One fill's bytes are written into the cells of its stream (R165). -/
def writeFill (f : Fill) : Plan := fun s =>
  match s.streamRec f.stream with
  | none => []
  | some r =>
    let layer := (s.img.layersOf r).getD (s.var .slotLayer (f.stream * 8 + f.slot)) 0
    let w := fmtWidth (recGet r 3 1) / 8
    let n := recGet layer 8 4
    let cells := maskCells (recGet r 16 18)
    let sb := recGet r 8 4
    let first := f.lo / max w 1
    let last := min n ((f.lo + f.len) / max w 1)
    let sw := if recGet r 2 1 = 0 then 8 else w
    plans [planEach (linesOf (f.src + sw * first) (sw * (last - first))) (noteRead 7), planEach (List.range (last - first)) (fun i s' =>
      let e := first + i
      match cells[e * w / max sb 1]? with
      | none => []
      | some c =>
        writeMem (cellTarn c ((s'.region 2 c).1 * 4096 + recGet r 12 4 + f.slot * sb + e * w % max sb 1))
          (leBytes w (s.workElem r f e)) s')] s

/-- Bytes of the layer that a slot holds. -/
def State.layerBytes (s : State) (k j : Nat) : Nat :=
  match s.streamRec k with
  | none => 0
  | some r => recGet ((s.img.layersOf r).getD (s.var .slotLayer (k * 8 + j)) 0) 8 4 * (fmtWidth (recGet r 3 1) / 8)

/-- The fills of a slot complete; the slot is READY when its last byte is written (R91). -/
def planFillDone (k j : Nat) : Plan := fun s =>
  let fs := s.cells.fills.filter (fun f => f.stream == k && f.slot == j)
  if fs.isEmpty then []
  else
    plans [planEach fs writeFill, fun s' =>
      [.cells (fun c => { c with fills := c.fills.filter (fun f => !(f.stream == k && f.slot == j)) }),
       s'.addV .slotFilled (fs.foldl (fun t f => t + f.len) 0) (k * 8 + j)] ++ fs.map (fun f => sliceOpDone f.cell),
      fun s' => if s'.var .slotFilled (k * 8 + j) ≥ s'.layerBytes k j then setSlot k j 2 s' else []] s

/-- A released slot becomes EMPTY (R91). -/
def planSlotRelease (k j : Nat) : Plan := fun s =>
  if s.var .slotRelease (k * 8 + j) = 1 then .var .slotRelease (k * 8 + j) 0 :: setSlot k j 0 s else []

/-! The activation stash (R84, R143). -/

/-- The slot whose micro-batch the cell's slice serves. -/
def State.curSlot (s : State) (cell : Nat) : Nat := s.get .CELL_SEQ_STATUS_SLOT cell

def State.stashBlk (s : State) (cell slot tag : Nat) : Option StashBlk :=
  s.cells.stash.find? (fun b => b.cell == cell && b.slot == slot && b.tag == tag)

def cellDie (cell : Nat) : Nat := cell / 72

/-- The lowest frame of a region of `n` frames that no listed block uses. -/
def freeFrame (n : Nat) (used : List Nat) : Option Nat := (List.range n).find? (fun i => !used.contains i)

/-- A free frame of a cell's STASH_T, and of its die's STASH_H. -/
def State.freeT (s : State) (cell : Nat) : Option Nat :=
  freeFrame (s.region 0 cell).2
    ((s.cells.stash.filter (fun b => b.cell == cell && !b.spilled)).map (·.frame))
def State.freeH (s : State) (die : Nat) : Option Nat :=
  freeFrame ((s.region 1 die).2 * 16)
    ((s.cells.stash.filter (fun b => cellDie b.cell == die && b.spilled)).map (·.frame))

/-- Tarn offset of a frame of STASH_T, and the DPA of a frame of STASH_H. -/
def State.stashOff (s : State) (cell f : Nat) : Nat := (s.region 0 cell).1 * 4096 + f * 4096
def State.stashDpa (s : State) (die f : Nat) : Nat := (s.region 1 die).1 * 65536 + f * 4096

/-- The oldest resident block of a cell. -/
def State.oldestBlk (s : State) (cell : Nat) : Option StashBlk :=
  (s.cells.stash.filter (fun b => b.cell == cell && !b.spilled)).foldl (fun m b =>
    match m with
    | none => some b
    | some x => if b.age < x.age then some b else m) none

/-- Blocks that satisfy `c` change. -/
def mapBlk (c : StashBlk → Bool) (g : StashBlk → StashBlk) : Upd :=
  .cells (fun x => { x with stash := x.stash.map (fun b => if c b then g b else b) })

/-- Bytes that a transfer carries: a bad line supplies canonical FP32 NaN elements (R418). -/
def State.transferBytes (s : State) (a n : Nat) : List Nat :=
  ((List.range (n / 64)).map (fun j =>
    if s.lineBad (a + 64 * j) then (List.replicate 16 (leBytes 4 fNaN)).flatten else s.bytesAt (a + 64 * j) 64)).flatten

/-- A 4 KiB transfer between tiers, with the errors it reads reported (R418). -/
def transfer (src dst : Nat) : Plan := fun s =>
  plans [planEach (linesOf src 4096) (noteRead 7), writeMem dst (s.transferBytes src 4096)] s

/-- The oldest resident block of a cell moves to STASH_H frame `h` (R84). -/
def spillBlk (cell h : Nat) : Plan := fun s =>
  match s.oldestBlk cell with
  | none => []
  | some b => plans [transfer (cellTarn cell (s.stashOff cell b.frame)) (s.stashDpa (cellDie cell) h),
      fun _ => [mapBlk (fun x => x == b) (fun x => { x with spilled := true, frame := h })]] s

/-- A new block at a free frame. -/
def placeBlk (cell tag f : Nat) : Plan := fun s =>
  let age := s.cells.stash.foldl (fun m b => max m (b.age + 1)) 0
  [.cells (fun c => { c with stash := c.stash ++ [⟨cell, s.curSlot cell, tag, age, false, f⟩] })]

/-- The cell raises STASH_EXHAUSTED: its micro-batch is dropped at the next boundary (R84). -/
def exhausted (cell : Nat) : Plan := fun s =>
  plans [postEvent 0x13 0 0 cell (s.get .BEAT_STEP_STEP) (s.curSlot cell),
    fun _ => if s.curSlot cell < 8 then [.var .mbDropNext (s.curSlot cell) (1 + cellDie cell)] else []] s

/-- XGET: the block's offset, holding until it is resident; `rel` says that the stream-and-stash transfer has come (R84). -/
def opXget (rel : Bool) : CellFn := fun cell w s =>
  match s.stashBlk cell (s.curSlot cell) (w.im 0 16) with
  | none => .done (setS cell w.dst.toNat 0xFFFFFFFF)
  | some b =>
    if !b.spilled then .done (setS cell w.dst.toNat (s.stashOff cell b.frame))
    else if !rel then .hold 5
    else
      let bring : Nat → Plan := fun f => plans [
        transfer (s.stashDpa (cellDie cell) b.frame) (cellTarn cell (s.stashOff cell f)),
        fun _ => [mapBlk (fun x => x == b) (fun x => { x with spilled := false, frame := f })]]
      match s.freeT cell, s.freeH (cellDie cell), s.oldestBlk cell with
      | some f, _, _ => .done (bring f s ++ setS cell w.dst.toNat (s.stashOff cell f))
      | none, some h, some old =>
        let us := spillBlk cell h s
        .done (us ++ bring old.frame (s.run us) ++ setS cell w.dst.toNat (s.stashOff cell old.frame))
      | _, _, _ => .hold 5

/-- XSTA by the stages of R84; `rel` says that the transfer it held for is done. DESIGN CHOICE (notes/assumptions/91.md):
recompute mode belongs to a cell's part of a micro-batch, as its recompute points are declared per cell. -/
def opXsta (rel : Bool) : CellFn := fun cell w s =>
  let tag := w.im 0 16
  let slot := s.curSlot cell
  let point := tag.testBit 15
  let rc := s.var .mbRecompute (cell * 16 + slot) = 1
  let none' : List Upd := setS cell w.dst.toNat 0xFFFFFFFF
  match s.stashBlk cell slot tag with
  | some _ => opXget rel cell w s
  | none =>
    if rc ∧ !point then .done none'
    else match s.freeT cell with
    | some f => .done (placeBlk cell tag f s ++ setS cell w.dst.toNat (s.stashOff cell f))
    | none => match s.freeH (cellDie cell), s.oldestBlk cell with
      | some h, some b =>
        if rel then
          let us := spillBlk cell h s
          .done (us ++ placeBlk cell tag b.frame (s.run us) ++ setS cell w.dst.toNat (s.stashOff cell b.frame))
        else .hold 5 [s.addF .TIER_CLASS_EVENTS_FULL 1 cell]
      | _, _ =>
        let full : List Upd := (if rel then [] else [s.addF .TIER_CLASS_EVENTS_FULL 1 cell]) ++
          [s.addF .TIER_CLASS_EVENTS_FULL 1 (256 + cellDie cell)]
        let declared := (s.img.sec 1).any (fun r => recGet r 0 1 == cell && r.testBit 8)
        if declared ∧ !rc ∧ !point then .done (full ++ [.var .mbRecompute (cell * 16 + slot) 1] ++ none')
        else .done (full ++ exhausted cell s ++ none')

/-- XFREE (R143). -/
def opXfree : CellFn := fun cell w s =>
  let slot := s.curSlot cell
  .done [.cells (fun c => { c with
    stash := c.stash.filter (fun b => !(b.cell == cell && b.slot == slot && b.tag == w.im 0 16)) })]

/-- VLD (R492). -/
def execVld (cell : Nat) (w : CellWord) := answer (issue 0x50 cell w (loadLanes vecOffs))
/-- VST (R492). -/
def execVst (cell : Nat) (w : CellWord) := answer (issue 0x51 cell w (opStoreLanes vecOffs))
/-- SLD (R492). -/
def execSld (cell : Nat) (w : CellWord) := answer (issue 0x52 cell w opSld)
/-- SST (R492). -/
def execSst (cell : Nat) (w : CellWord) := answer (issue 0x53 cell w opSst)
/-- VGATH (R492). -/
def execVgath (cell : Nat) (w : CellWord) := answer (issue 0x54 cell w (loadLanes (fun w c s => gatherAddrs c w s)))
/-- VSCAT (R492). -/
def execVscat (cell : Nat) (w : CellWord) := answer (issue 0x55 cell w (opStoreLanes (fun w c s => gatherAddrs c w s)))
/-- QSEND (R142). -/
def execQsend (cell : Nat) (w : CellWord) := answer (issue 0x60 cell w opQsend)
/-- QRECV (R142). -/
def execQrecv (cell : Nat) (w : CellWord) := answer (issue 0x61 cell w opQrecv)
/-- QPROBE (R142). -/
def execQprobe (cell : Nat) (w : CellWord) := answer (issue 0x62 cell w opQprobe)
/-- WFILL (R91, R143). -/
def execWfill (cell : Nat) (w : CellWord) := answer (issue 0x6A cell w opWfill)
/-- WREL (R91, R143). -/
def execWrel (cell : Nat) (w : CellWord) := answer (issue 0x6B cell w opWrel)
/-- XSTA (R84, R143). -/
def execXsta (cell : Nat) (w : CellWord) := answer (issue 0x58 cell w (opXsta false))
/-- XGET (R84, R143). -/
def execXget (cell : Nat) (w : CellWord) := answer (issue 0x59 cell w (opXget false))
/-- XFREE (R84, R143). -/
def execXfree (cell : Nat) (w : CellWord) := answer (issue 0x5A cell w opXfree)
/-- WEIGHT_FILL_DONE (R91). -/
def execWeightFillDone (stream slot : Nat) := answer (planFillDone stream slot)
/-- WEIGHT_SLOT_RELEASE (R91). -/
def execWeightSlotRelease (stream slot : Nat) := answer (planSlotRelease stream slot)

end Sys2Proof.Machine
end

