-- ==== Sys2Proof/Machine/CellCtl.lean ====
section
/-!
DEFINITION. Control flow and slices of the sequencer (R144, R145), its traps and restart (R153, R154), held instructions
(R137), slice retirement (R19, R31), token and credit arrival (R35 to R39) and bank grants (R77, R78).
-/
namespace Sys2Proof.Machine

/-- The PC takes a target, or the branch traps PC_RANGE (R144). DESIGN CHOICE (notes/assumptions/90.md): CELL_TRAP_ADDR shows
a target below 0 as a two's complement number of its 48 bits. -/
def jumpTo (cell : Nat) (target : Int) (clamps : Nat) (s : State) : CellRes :=
  if target < 0 ∨ target ≥ (s.get .CELL_SEQ_PROG_LENGTH cell : Int) then .trap 4 0 (wrapInt 48 target)
  else .done (setF .CELL_SEQ_STATUS_PC target.toNat cell ::
    setLoops cell (keepLoops target.toNat (s.loopsOf cell))) clamps false

def State.pcInt (s : State) (cell : Nat) : Int := s.get .CELL_SEQ_STATUS_PC cell

def opBr : CellFn := fun cell w s => jumpTo cell (s.pcInt cell + w.simm 23) 0 s

def opBrc : CellFn := fun cell w s =>
  let (cond, c) := legalCode (w.im 19 4) 4 0
  let v := s.sReg cell w.sa.toNat
  let taken := match cond with
    | 0 => v == 0 | 1 => v != 0 | 2 => decide (sext 64 v < 0) | _ => decide (0 ≤ sext 64 v)
  if taken then jumpTo cell (s.pcInt cell + w.simm 19) c s else .done [] c

def opBrm : CellFn := fun cell w s =>
  let v := s.mReg cell w.sa.toNat
  let taken := match w.im 21 2 with
    | 0 => v != 0 | 1 => v == 0 | 2 => v == mask64 | _ => v != mask64
  if taken then jumpTo cell (s.pcInt cell + w.simm 21) 0 s else .done []

def opLoop : CellFn := fun cell w s =>
  let (body, c) := if w.im 0 12 = 0 then (1, 1) else (w.im 0 12, 0)
  let n := if w.sa.toNat % 32 = 0 then w.im 12 11 else s.sReg cell w.sa.toNat
  let pc := s.get .CELL_SEQ_STATUS_PC cell
  let ls := s.loopsOf cell
  if ls.length ≥ 4 then .trap 6 0 0
  else if n = 0 then .done (fallTo cell (pc + 1 + body) ls s) c false
  else .done (setF .CELL_SEQ_STATUS_PC (pc + 1) cell :: setLoops cell (⟨body, n, pc + 1, 0⟩ :: ls)) c false

/-- SLEND: the slice ends, no loop survives it, and the next listed slice begins (R144, R145). -/
def opSlend : CellFn := fun cell _ s =>
  let us : List Upd :=
    .slices (mapFirst (fun y => y.kind == 0 && y.index == cell && y.st == 1) (fun y => { y with st := 2 })) ::
    setLoops cell []
  .done (us ++ beginSlice cell (s.run us)) 0 false

/-- FENCE: holds until every earlier fill has completed; loads, stores and sends complete as they issue (R144). -/
def opFence : CellFn := fun cell _ s =>
  if s.cells.fills.any (fun f => f.cell == cell) then .hold 6 else .done []

def opBwait : CellFn := fun _ w s => if s.get .BEAT_STATUS_PHASE ≥ w.im 0 13 then .done [] else .hold 7

def opTrap : CellFn := fun _ w _ => .trap 7 (w.im 0 8) 0

/-- The opcodes that the tables define (R130). -/
def definedOpc (o : Nat) : Bool :=
  (0x10 ≤ o ∧ o ≤ 0x18) || (0x20 ≤ o ∧ o ≤ 0x29) || (0x30 ≤ o ∧ o ≤ 0x37) || (0x40 ≤ o ∧ o ≤ 0x4F) ||
  (0x50 ≤ o ∧ o ≤ 0x55) || (0x58 ≤ o ∧ o ≤ 0x5A) || (0x60 ≤ o ∧ o ≤ 0x62) || (0x68 ≤ o ∧ o ≤ 0x6B) ||
  (0x70 ≤ o ∧ o ≤ 0x78) || (0x80 ≤ o ∧ o ≤ 0x87)

/-- ILLEGAL of an opcode the tables do not define (R130). -/
def planUndefined (cell opc : Nat) (w : CellWord) : Plan :=
  planIf (fun _ => !definedOpc (opc % 256)) (issue (opc % 256) cell w (fun _ _ _ => .trap 1 0 0))

/-- The meaning of an instruction that held, once what it waited for may have come. -/
def reissue (opc : Nat) : CellFn := fun cell w s =>
  match opc with
  | 0x50 => loadLanes vecOffs cell w s
  | 0x52 => opSld cell w s
  | 0x54 => loadLanes (fun w c s => gatherAddrs c w s) cell w s
  | 0x58 => opXsta true cell w s
  | 0x59 => opXget true cell w s
  | 0x60 => opQsend cell w s
  | 0x61 => opQrecv cell w s
  | 0x68 => opAop cell w s
  | 0x69 => opAwait cell w s
  | 0x6A => opWfill cell w s
  | 0x76 => opFence cell w s
  | 0x77 => opBwait cell w s
  | _ => .done []

/-- Held clk of a sequencer (R137). -/
def stallClk (cell clk : Nat) (s : State) : List Upd :=
  [s.addF .CELL_SEQ_STALL_TOTAL clk cell, s.addV .cellStall clk cell]

/-- Where held clk count (R37, R91, R137): the sequencer's counters, the queue's that a send waits for, and the streams' that
a fill or a consumer waits for. -/
def countHeld (cell opc clk : Nat) (w : CellWord) (s : State) : List Upd :=
  stallClk cell clk s ++
  (if opc = 0x60 then
    match s.route cell 0 (w.im 0 5) with
    | some r => [.queue (routeQueue r).1 (.stalled clk)]
    | none => []
   else []) ++
  (if s.get .CELL_SEQ_STATUS_HOLD_REASON cell = 4 then
    (bitsSet 16 (s.var .heldFor cell)).map (fun k => s.addF .TIER_STREAM_WAIT_CLK clk k) else [])

/-- What a hold of `clk` clk adds when it ends: the part that no latch has counted. -/
def countRest (cell opc clk : Nat) (w : CellWord) (s : State) : List Upd :=
  countHeld cell opc (clk - s.var .heldSeen cell) w s

/-- The clk for which the instruction of a cell has held so far count at the latch, `ahead` clk from now (R137, R154). -/
def noteHold (ahead : Nat) (h : Nat × Option (Nat × CellWord)) : Plan := fun s =>
  match h.2 with
  | some (opc, w) =>
    let n := s.var .clk + ahead + 1 - s.var .heldAt h.1
    countHeld h.1 opc n w s ++ [.var .heldAt h.1 (s.var .clk + ahead + 1), s.addV .heldSeen n h.1]
  | none => []

/-- The held clk of every cell at the latch. -/
def noteHolds (ahead : Nat) : Plan := fun s => planEach s.cells.held (noteHold ahead) s

/-- A held instruction issues or completes once it can, after `clk` held clk (R137). Of a sequencer that runs, the command
says that its next instruction held `clk` clk for its sources or its fetch (notes/assumptions/92.md). -/
def planHoldRelease (cell clk : Nat) : Plan := fun s =>
  match Sparse.get none s.cells.held cell with
  | some (opc, w) =>
    if s.get .CELL_SEQ_STATUS_STATE cell ≠ 2 then []
    else
      let us : List Upd :=
        [setF .CELL_SEQ_STATUS_STATE 1 cell, setF .CELL_SEQ_STATUS_HOLD_REASON 0 cell,
         .cells (fun c => { c with held := Sparse.set none c.held cell none })] ++ countRest cell opc clk w s
      let s1 := s.run us
      match reissue opc cell w s1 with
      | .hold _ _ => []
      | r => us ++ retireOp opc cell w 1 0 r s1
  | none => if cell < 144 ∧ s.get .CELL_SEQ_STATUS_STATE cell = 1 then stallClk cell clk s else []

/-- QRECV_DEADLINE (R343): at clk QRECV_CLK of the beat the held COLLECTIVE receive completes with zeros, its queue owes a
discard, and its micro-batch is dropped from the next boundary. -/
def planQrecvDeadline (cell clk : Nat) : Plan := fun s =>
  match Sparse.get none s.cells.held cell with
  | some (0x61, w) =>
    match s.route cell 1 (w.im 0 5) with
    | none => []
    | some r =>
      let q := (routeQueue r).1
      let rec' := (s.img.queueRec q).getD 0
      if s.get .CELL_SEQ_STATUS_STATE cell ≠ 2 ∨ s.prodKind q ≠ 5 ∨ recGet rec' 12 1 ≠ 1 then []
      else
        let slot := s.get .CELL_SEQ_STATUS_SLOT cell
        let us : List Upd :=
          phaseTo (max (s.get .BEAT_STATUS_PHASE) (s.get .COLL_CFG_QRECV_CLK)) s ++
          [setF .CELL_SEQ_STATUS_STATE 1 cell, setF .CELL_SEQ_STATUS_HOLD_REASON 0 cell,
           .cells (fun c => { c with held := Sparse.set none c.held cell none }), s.addV .qOwed 1 q] ++
          countRest cell 0x61 clk w s ++ (if slot < 8 then [.var .mbDropNext slot 4] else [])
        us ++ retireOp 0x61 cell w 1 0 (.done (recvLanes cell w 0 s ++ setS cell w.sc.toNat 0)) (s.run us)
  | _ => []

/-- FETCH_UE (R141, R153): the fetch of the line that holds the next instruction meets an uncorrectable error. -/
def planFetchUe (cell : Nat) : Plan := fun s =>
  let pc := s.get .CELL_SEQ_STATUS_PC cell
  let off := (s.get .CELL_SEQ_PROG_BASE cell * 64 + pc * 8) / 64 * 64
  if cell < 144 ∧ s.get .CELL_SEQ_STATUS_STATE cell = 1 then
    plans [fun s' => if s'.lineBad (cellTarn cell off) then [] else [.unitErr (cellTarn cell off) 2],
      noteRead 15 (cellTarn cell off), trapCell cell 3 0 off pc 0, raiseFault false] s
  else []

/-- A trapped sequencer of a held module is restarted (R154); `pc` is RESTART_PC as written. -/
def planSeqRestart (cell pc : Nat) : Plan := fun s =>
  let len := s.get .CELL_SEQ_PROG_LENGTH cell
  let t := if bits pc 0 15 ≥ len then len - 1 else bits pc 0 15
  if cell ≥ 144 then []
  else setF .CELL_SEQ_CTRL_RESTART_PC t cell ::
    (if s.get .CELL_SEQ_STATUS_STATE cell = 3 ∧ s.inHold then
      [setF .CELL_SEQ_STATUS_STATE 0 cell, setF .CELL_SEQ_STATUS_PC t cell, .var .seqRestart cell 1,
       setF .CELL_TRAP_CAUSE 0 cell, setF .CELL_TRAP_CODE 0 cell, setF .CELL_TRAP_PC 0 cell, setF .CELL_TRAP_BEAT 0 cell,
       setF .CELL_TRAP_INSN_INSN 0 cell, setF .CELL_TRAP_ADDR_DETAIL 0 cell] ++
      setLoops cell (keepLoops t (s.loopsOf cell))
    else [])

/-- When the beat timer runs again, restarted sequencers resume (R154). -/
def planSeqResume : Plan := fun s =>
  planEach (s.listedVar .seqRestart) (fun c _ => [.var .seqRestart c 0, setF .CELL_SEQ_STATUS_STATE 1 c]) s

/-! Slices and micro-batches (R19, R31, R84). -/

/-- How many slices of micro-batch slot `k` the active schedule lists in one step (R31, R161). -/
def Image.slotSlices (i : Image) (k : Nat) : Nat :=
  let stepBeats := max 1 (recGet i.hdr 72 4)
  (i.sched.map (fun b => (b.2.2.filter (fun e => bits e 35 4 == k)).foldl (fun t e =>
    let off := bits e 0 20
    t + (if off ≥ stepBeats then 0
      else min (bits e 40 12) ((stepBeats - 1 - off) / max 1 (bits e 52 12)) + 1)) 0)).foldl (· + ·) 0

/-- A micro-batch is in flight: a slice has issued and a scheduled slice has not retired (R31). -/
def State.mbInFlight (s : State) (k : Nat) : Bool :=
  s.var .mbIssued k > 0 && s.var .mbRetired k < s.img.slotSlices k

/-- A slice whose work is done retires (R19); the last slice of a dropped micro-batch frees its stash blocks (R84). -/
def planSliceRetire (kind index : Nat) : Plan := fun s =>
  let done : Slice → Bool := fun x => x.kind == kind && x.index == index && x.st == 2
  match s.slices.find? done with
  | none => []
  | some x =>
    let held := kind = 2 ∧ (Sparse.get [] s.spring.link index).any (fun i => i.isRecord)
    if x.ops ≠ 0 ∨ held then []
    else
      plans [fun _ => .slices (mapFirst done (fun y => { y with st := 3 })) ::
          (if x.slot < 8 then [s.addV .mbRetired 1 x.slot] else []),
        fun s' =>
          if x.slot < 8 ∧ s'.var .mbDropped x.slot = 1 ∧ s'.var .mbRetired x.slot ≥ s'.img.slotSlices x.slot then
            [.cells (fun c => { c with stash := c.stash.filter (fun b => b.slot != x.slot) })]
          else []] s

/-- A micro-batch that ran out of stash, KV pages or time is marked dropped on every cell, counted and reported (R84). -/
def planMbDrop (k : Nat) : Plan := fun s =>
  let cause := s.var .mbDropNext k
  if k < 8 ∧ cause ≠ 0 then
    [.var .mbDropNext k 0, .var .mbDropped k 1,
     cutAdd (s.get .BEAT_STEP_STEP) (fun c => { c with mbDrop := c.mbDrop + 1 })] ++
    (if cause ≤ 2 then [s.addF .TIER_CLASS_EVENTS_OUTCOME 1 (256 + (cause - 1))]
     else if cause = 3 then [s.addF .TIER_CLASS_EVENTS_OUTCOME 1 (6 * 256)] else [])
  else []

/-! Tokens and credits inside the module (R35 to R39). -/

/-- The oldest token in flight of a queue arrives, in the Tarn of a cell consumer (R36); one of an old generation is
discarded and counted (R39). -/
def planTokenArrival (q : Nat) : Plan := fun s =>
  match (s.queue q).flight with
  | [] => []
  | (t, g) :: _ =>
    .queue q .arrive ::
      (if g = (s.queue q).gen then keepToken q t.toNat s else [s.addF .CLAY_FLIP_DISCARD_COUNT 1])

/-- The oldest credit in flight of a queue arrives; one of an old generation is discarded and counted (R38, R39). -/
def planCreditArrival (q : Nat) : Plan := fun s =>
  match (s.queue q).back with
  | [] => []
  | g :: _ =>
    .queue q .creditArrive :: (if g = (s.queue q).gen then [] else [s.addF .CLAY_FLIP_DISCARD_COUNT 1])

/-- The index of a Tarn in TIER_BANK_STALL: cells 0 to 143, then shared Tarns 0xF0 and 0xF1. -/
def tarnOk (t : Nat) : Bool := t < 144 || t == 0xF0 || t == 0xF1

/-- Who is granted of those that ask: the first of requesters 0 to 4 from the rotation pointer on, and the management window,
5, only where none of them asks (R78). -/
def grantee (ptr asks : Nat) : Nat :=
  (((List.range 5).map (fun i => (ptr + i) % 5)).find? (fun r => asks.testBit r)).getD 5

/-- One of the accesses that ask for the same banks of a Tarn is granted after `wait` clk, and the grant rotates past it; the
others wait on (R77, R78). A wait of a sequencer's own access is a hold of its sequencer (R137). -/
def planBankGrant (tarn asks wait : Nat) : Plan := fun s =>
  let who := grantee (s.var .bankPtr tarn) asks
  if tarnOk tarn ∧ asks % 64 ≠ 0 then
    (if who < 5 then [.var .bankPtr tarn ((who + 1) % 5)] else []) ++
    [s.addF .TIER_BANK_STALL_TOTAL wait tarn, s.addV .tarnStall wait tarn] ++
    (if who = 0 ∧ tarn < 144 then stallClk tarn wait s else [])
  else []

/-- NOP (R144). -/
def execNop (cell : Nat) (w : CellWord) := answer (issue 0x70 cell w (fun _ _ _ => .done []))
/-- BR (R144). -/
def execBr (cell : Nat) (w : CellWord) := answer (issue 0x71 cell w opBr)
/-- BRC (R144). -/
def execBrc (cell : Nat) (w : CellWord) := answer (issue 0x72 cell w opBrc)
/-- BRM (R144). -/
def execBrm (cell : Nat) (w : CellWord) := answer (issue 0x73 cell w opBrm)
/-- LOOP (R145). -/
def execLoop (cell : Nat) (w : CellWord) := answer (issue 0x74 cell w opLoop)
/-- SLEND (R144). -/
def execSlend (cell : Nat) (w : CellWord) := answer (issue 0x75 cell w opSlend)
/-- FENCE (R144). -/
def execFence (cell : Nat) (w : CellWord) := answer (issue 0x76 cell w opFence)
/-- BWAIT (R144). -/
def execBwait (cell : Nat) (w : CellWord) := answer (issue 0x77 cell w opBwait)
/-- TRAP (R153). -/
def execTrap (cell : Nat) (w : CellWord) := answer (issue 0x78 cell w opTrap)
/-- UNDEFINED_OPCODE (R130). -/
def execUndefinedOpcode (cell opc : Nat) (w : CellWord) := answer (planUndefined cell opc w)
/-- FETCH_UE (R153). -/
def execFetchUe (cell : Nat) := answer (planFetchUe cell)
/-- CELL_SEQ_RESTART (R154). -/
def execCellSeqRestart (cell pc : Nat) := answer (planSeqRestart cell pc)
/-- QRECV_DEADLINE (R343): `clk` is how long the receive held. -/
def execQrecvDeadline (cell clk : Nat) := answer (planQrecvDeadline cell clk)
/-- SEQ_HOLD_RELEASE (R137): `clk` is how long the instruction held. -/
def execSeqHoldRelease (cell clk : Nat) := answer (planHoldRelease cell clk)
/-- SLICE_RETIRE (R19). -/
def execSliceRetire (kind index : Nat) := answer (planSliceRetire kind index)
/-- MICROBATCH_DROP (R84). -/
def execMicrobatchDrop (slot : Nat) := answer (planMbDrop slot)
/-- TARN_BANK_GRANT (R77): `asks` has a bit for each requester of R78, and bit 5 for the management window. -/
def execTarnBankGrant (tarn asks wait : Nat) := answer (planBankGrant tarn asks wait)

end Sys2Proof.Machine
end

