-- ==== Sys2Proof/Machine/Tables.lean ====
section
/-!
DEFINITION. Table descriptors and optimiser records: their layout, their clamping at load, and the layout of regions,
buckets and slots they imply (R192 to R199, R236, R237).
-/
namespace Sys2Proof.Machine

/-! Optimiser records (R236, R237). -/

def optKind (o : Nat) : Nat := recGet o 0 1
def optFlag (o i : Nat) : Bool := (recGet o 1 1).testBit i
def optClass (o : Nat) : Nat := recGet o 2 1

/-- One clamp: replaces `size` bytes at `off` where `bad`; the second component counts replacements. -/
def fixRec (bad : Bool) (off size v : Nat) (p : Nat × Nat) : Nat × Nat :=
  if bad then (recPut p.1 off size v, p.2 + 1) else p

/-- A NaN, infinite or negative FP32 value. -/
def badRate (x : Nat) : Bool := !fFinite x || (x.testBit 31 && fabs x != 0)

/-- An optimiser record after R237, and how many fields were replaced. -/
def clampOptim (o : Nat) : Nat × Nat :=
  let p := fixRec (optKind o > 6) 0 1 0 (o, 0)
  let p := fixRec (recGet o 3 1 != 0 && recGet o 3 1 != 0xE) 3 1 0xE p
  let p := [4, 16, 20, 24, 32].foldl (fun p off => fixRec (badRate (recGet o off 4)) off 4 0 p) p
  let p := [8, 12].foldl (fun p off =>
    let b := recGet o off 4
    let p := fixRec (fIsNan b || (b.testBit 31 && fabs b != 0)) off 4 0 p
    fixRec (!fIsNan b && fle 0x3F800000 b) off 4 0x3F7FFFFF p) p
  fixRec (!fFinite (recGet o 28 4) || fabs (recGet o 28 4) == 0) 28 4 0x3F800000 p

/-- The moments a kind keeps as element moments: first, second (R198). -/
def kindMoments (k : Nat) : Bool × Bool :=
  if k = 2 then (true, false) else if k = 3 then (false, true) else if k = 5 ∨ k = 6 then (true, true) else (false, false)

/-! Table descriptors (R192). -/

def tblId (t : Nat) : Nat := recGet t 0 2
def tblDim (t : Nat) : Nat := recGet t 2 2
def tblFmt (t : Nat) : Nat := bits t 32 4
def tblMomFmt (t : Nat) : Nat := bits t 36 4
def tblOpt (t : Nat) : Nat := recGet t 5 1
def tblPool (t : Nat) : Nat := bits t 48 2
def tblOutBf16 (t : Nat) : Bool := t.testBit 50
def tblHot (t : Nat) : Bool := t.testBit 56
def tblDrift (t : Nat) : Bool := t.testBit 57
def tblDie (t : Nat) : Nat := bits t 58 1
def tblGroup (t : Nat) : Nat := bits t 60 4
def tblRows (t : Nat) : Nat := recGet t 8 8
def tblBuckets (t : Nat) : Nat := recGet t 16 4
def tblSpare (t : Nat) : Nat := recGet t 20 4
def tblBase (t : Nat) : Nat := recGet t 24 8
def tblSlot (t : Nat) : Nat := recGet t 32 2
def tblInit (t : Nat) : Nat := recGet t 36 4

/-- The record OPT names among those loaded; a table whose OPT names none uses KIND 0 (R237). -/
def optOf (opts : List Nat) (t : Nat) : Nat := opts.getD (tblOpt t) 0

/-- Whether a body format carries a row prefix. -/
def affine (f : Nat) : Bool := f == 0xC || f == 0xD

/-- Bytes of a body of d elements, before rounding (R197). -/
def bodyBytes (f d : Nat) : Nat := cdivB (d * fmtWidth f) 8
where
  /-- ceil. -/
  cdivB (a b : Nat) : Nat := (a + b - 1) / b

/-- Bytes of one moment area (R197). -/
def momentArea (mf d : Nat) : Nat :=
  let nb := (d + 31) / 32
  if mf = 0 then 4 * d else roundUp (2 * nb) 16 + 32 * nb

/-- SLOT_BYTES as R197 derives it. -/
def slotBytes (f mf d kind : Nat) : Nat :=
  let (a, b) := kindMoments kind
  let area := momentArea mf d
  16 + roundUp (bodyBytes f d) 16 + (if a then area else 0) + (if b then area else 0)

/-- Bytes of a bucket (R195). -/
def bucketBytes (t : Nat) : Nat := 128 + 16 * tblSlot t

/-- Offset in the region of the Drift area and of the free bitmap, and the region's length (R195). -/
def driftAreaOff (t : Nat) : Nat := tblBuckets t * bucketBytes t
def bitmapOff (t : Nat) : Nat := driftAreaOff t + tblSpare t * tblSlot t
def regionLen (t : Nat) : Nat := bitmapOff t + roundUp ((tblSpare t + 7) / 8) 64

/-- A descriptor after the field clamps of R193, and how many fields were replaced. `opts` are the records in effect. -/
def clampTable (opts : List Nat) (t : Nat) : Nat × Nat :=
  let d0 := tblDim t
  let d := if d0 < 4 then 4 else if d0 > 1024 then 1024 else roundUp d0 4
  let p := fixRec (d != d0) 2 2 d (t, 0)
  let f0 := tblFmt t
  let f1 := if [0, 2, 3, 4, 0xC, 0xD].contains f0 then f0 else 0xC
  let f := if f1 = 0xD ∧ d % 8 ≠ 0 then 0xC else f1
  let m0 := tblMomFmt t
  let m := if m0 = 0 ∨ m0 = 0xE then m0 else 0xE
  let p := fixRec (f != f0) 4 1 (f + 16 * m0) p
  let p := fixRec (m != m0) 4 1 (f + 16 * m) p
  let p := fixRec (tblRows t == 0 || tblRows t > 2 ^ 48) 8 8 (2 ^ 48) p
  let p := fixRec (tblBuckets t == 0) 16 4 1 p
  let p := fixRec (tblBuckets t > 2 ^ 26) 16 4 (2 ^ 26) p
  let p := fixRec (tblSpare t > 2 ^ 24) 20 4 (2 ^ 24) p
  let p := fixRec (tblBase t % 65536 != 0) 24 8 (tblBase t / 65536 * 65536) p
  let sb := slotBytes f m d (optKind (optOf opts t))
  let p := fixRec (tblSlot t != sb) 32 2 sb p
  let p := fixRec (fIsNan (tblInit t) && tblInit t != fNaN) 36 4 fNaN p
  fixRec (tblOpt t ≥ opts.length) 5 1 (tblOpt t) p

/-- The active descriptor of a table. -/
def State.table (s : State) (id : Nat) : Option Nat := (s.img.sec 9).find? (fun t => tblId t == id)

/-- The optimiser records of the active image. -/
def State.opts (s : State) : List Nat := s.img.sec 0xA

/-- The plan seed (R62, R167). -/
def State.seed (s : State) : Nat := recGet s.img.optHdr 0 8

end Sys2Proof.Machine
end

