-- ==== Sys2Proof/Machine/Rows.lean ====
section
/-!
DEFINITION. Where a row is: the home of a key, the Drift Map, buckets and slots, the placement of a new row, the hot
directory, the count sketch and the heavy-row list (R195 to R204, R219 to R224, R231, R232, R426).
-/
namespace Sys2Proof.Machine

/-! The home of a key (R200, R231). -/

/-- h of R200. -/
def rowHash (key : Nat) : Nat :=
  let h := key * 0x9E3779B97F4A7C15 % 2 ^ 64
  h ^^^ (h >>> 29)

/-- The home module of a key in a job of `n` modules. -/
def homeModule (key n : Nat) : Nat := ((rowHash key >>> 32) * n) >>> 32
/-- The home stack of a key. -/
def homeStack (key : Nat) : Nat := bits (rowHash key) 4 4
/-- The bucket of a key in a table of `n` buckets. -/
def homeBucket (key n : Nat) : Nat :=
  let h := rowHash key
  ((bits h 8 28 * 16 + bits h 0 4) * n) >>> 32
/-- The Drift Map set of a key (R203). -/
def dmSet (key : Nat) : Nat := bits (rowHash key) 8 18

/-- The table and index of a row key. -/
def keyTable (key : Nat) : Nat := bits key 48 16
def keyIndex (key : Nat) : Nat := bits key 0 48

/-- N, and whether the image has a second hash configuration (R231). -/
def State.jobN (s : State) : Nat := recGet s.img.hdr 80 2 + 1
def State.prevN (s : State) : Option Nat :=
  let p := recGet s.img.hdr 82 2
  if s.clay.active.isNone ∨ p = 0xFFFF then none else some (p + 1)

/-- The die that holds a stack. -/
def stackDie (st : Nat) : Nat := st / 8

/-! The Drift Map (R203, R204). -/

def dmKey (stack set way : Nat) : Nat := (stack * 2 ^ 18 + set) * 8 + way

/-- KIND codes of LOCATION. -/
def kResident : Nat := 1
def kMoved : Nat := 2
def kCached : Nat := 3
def kTombstone : Nat := 4
def kBucket : Nat := 5

/-- A LOCATION word (R203). -/
def mkLoc (kind rank stack last : Nat) (leaving pend : Bool := false) : Nat :=
  kind + b2n leaving * 8 + b2n pend * 16 + rank % 65536 * 2 ^ 8 + stack % 16 * 2 ^ 24 + last % 2 ^ 32 * 2 ^ 32
def locKind (l : Nat) : Nat := bits l 0 3
def locLeaving (l : Nat) : Bool := l.testBit 3
def locPending (l : Nat) : Bool := l.testBit 4
def locRank (l : Nat) : Nat := bits l 8 16
def locStack (l : Nat) : Nat := bits l 24 4
def locLast (l : Nat) : Nat := bits l 32 32

/-- The entry of a way: key and LOCATION. -/
def State.dmAt (s : State) (stack set way : Nat) : Nat × Nat := Sparse.get (0, 0) s.rows.dmap (dmKey stack set way)

/-- The way of a key's entry in a stack's slice. -/
def State.dmWay (s : State) (stack key : Nat) : Option Nat :=
  (List.range 8).find? (fun w => (s.dmAt stack (dmSet key) w).1 == key && locKind (s.dmAt stack (dmSet key) w).2 != 0)

/-- LOCATION of a key in a stack's slice; 0 (FREE) where it has no entry. -/
def State.dmLoc (s : State) (stack key : Nat) : Nat :=
  match s.dmWay stack key with
  | some w => (s.dmAt stack (dmSet key) w).2
  | none => 0

def setWay (stack set way key loc : Nat) : Upd :=
  .rows (fun r => { r with
    dmap := Sparse.set (0, 0) r.dmap (dmKey stack set way) (if locKind loc = 0 then (0, 0) else (key, loc)) })

/-- A key's entry is freed. -/
def dmFree (stack key : Nat) : Plan := fun s =>
  match s.dmWay stack key with
  | some w => [setWay stack (dmSet key) w 0 0]
  | none => []

/-- The way a new entry takes: its own, the lowest FREE one, else the CACHED one used longest ago (R204). -/
def State.dmPick (s : State) (stack key : Nat) : Option Nat :=
  let set := dmSet key
  let kind := fun w => locKind (s.dmAt stack set w).2
  match s.dmWay stack key with
  | some w => some w
  | none => match (List.range 8).find? (fun w => kind w == 0) with
    | some w => some w
    | none =>
      let age := fun w => (s.get .BEAT_COUNT_COUNT % 2 ^ 32 + 2 ^ 32 - locLast (s.dmAt stack set w).2) % 2 ^ 32
      ((List.range 8).filter (fun w => kind w == kCached)).foldl (fun m w =>
        match m with
        | none => some w
        | some x => if age w > age x then some w else m) none

/-- Authoritative entries that a key's set owes to other keys: of rows being created in the Drift area, and of bucket rows
whose accepted Drift has yet to mark them. DESIGN CHOICE (notes/assumptions/98.md): a way found when such an action was
taken up stays reserved for it. -/
def State.dmOwed (s : State) (stack key : Nat) : Nat :=
  let other : Nat → Nat → Bool := fun st k => st == stack && k != key && dmSet k == dmSet key
  (s.rows.log.filter (fun l => other l.stack l.key && l.create && decide (16 ≤ l.place))).length +
  (s.rows.drifts.filter (fun d => other d.stack d.key && d.stage == 0 && decide (d.place < 16))).length

/-- The way for an authoritative entry: the key's own authoritative one, or one that no other key is owed (R204). -/
def State.dmWayFor (s : State) (stack key : Nat) : Option Nat :=
  let kind := fun w => locKind (s.dmAt stack (dmSet key) w).2
  match s.dmWay stack key with
  | some w => if kind w ≠ kCached ∨ s.dmOwed stack key < ((List.range 8).filter (fun w => kind w == 0 || kind w == kCached)).length
      then some w else none
  | none => if s.dmOwed stack key < ((List.range 8).filter (fun w => kind w == 0 || kind w == kCached)).length
      then s.dmPick stack key else none

/-- An entry is placed, or counted in SET_FULL (R204). -/
def dmPlace (stack key loc : Nat) : Plan := fun s =>
  match (if locKind loc = kCached then s.dmPick stack key else s.dmWayFor stack key) with
  | some w => [setWay stack (dmSet key) w key loc]
  | none => [s.addF .DRIFT_FWD_SET_FULL 1 stack]

/-! Buckets, slots and the Drift area (R195, R196, R426). -/

/-- DPA of a table's region in a stack, of a bucket, of a way's slot and of a Drift-area slot. -/
def tblDpa (stack t : Nat) : Nat := stack * 0x1000000000 + tblBase t
def bucketDpa (stack t key : Nat) : Nat := tblDpa stack t + homeBucket key (tblBuckets t) * bucketBytes t
def wayDpa (stack t key w : Nat) : Nat := bucketDpa stack t key + 128 + w * tblSlot t
def driftDpa (stack t n : Nat) : Nat := tblDpa stack t + driftAreaOff t + n * tblSlot t

/-- DPA of a place: a way below 16, else Drift-area slot `p - 16`. -/
def placeDpa (stack t key p : Nat) : Nat := if p < 16 then wayDpa stack t key p else driftDpa stack t (p - 16)

/-- Whether `n` bytes at a DPA overlap a retired page of the stack. -/
def State.retired (s : State) (stack a n : Nat) : Bool :=
  (Sparse.get [] s.rows.retired stack).any (fun p => a < p + 4096 && p < a + n)

/-- Tag `w` of a bucket: its 8 bytes (R196). -/
def State.tagAt (s : State) (stack t key w : Nat) : Nat := s.leAt (bucketDpa stack t key + 8 * w) 8
def tagUsed (g : Nat) : Bool := g.testBit 48
def tagIndex (g : Nat) : Nat := bits g 0 48

/-- Whether a tag line cannot be read. A bucket whose tag line is retired is never read (R427). -/
def State.tagBad (s : State) (stack t key : Nat) : Bool :=
  s.lineBad (bucketDpa stack t key) || s.lineBad (bucketDpa stack t key + 64)

/-- The way of its bucket that holds a key. -/
def State.wayOf (s : State) (stack t key : Nat) : Option Nat :=
  (List.range 16).find? (fun w =>
    tagUsed (s.tagAt stack t key w) && tagIndex (s.tagAt stack t key w) == keyIndex key)

/-- Bit `n` of the Drift-area bitmap of a table (R195). -/
def State.areaBit (s : State) (stack t n : Nat) : Bool :=
  (s.byteAt (tblDpa stack t + bitmapOff t + n / 8)).testBit (n % 8)

def setAreaBit (stack t n : Nat) (v : Bool) : Plan := fun s =>
  let a := tblDpa stack t + bitmapOff t + n / 8
  writeMem a [putBits (s.byteAt a) (n % 8) 1 (b2n v)] s

/-- Whether a slot address is taken by an update or refill in flight, or by a copy being received. -/
def State.slotBusy (s : State) (stack dpa : Nat) : Bool :=
  s.rows.log.any (fun e => e.stack == stack && e.dpa == dpa)

/-- The lowest free Drift-area slot of a table outside retired pages (R202, R427). -/
def State.freeArea (s : State) (stack t : Nat) : Option Nat :=
  (List.range (tblSpare t)).find? (fun n =>
    !s.areaBit stack t n && !s.retired stack (driftDpa stack t n) (tblSlot t) && !s.slotBusy stack (driftDpa stack t n))

/-- The lowest free way of a key's bucket outside retired pages (R202). -/
def State.freeWay (s : State) (stack t key : Nat) : Option Nat :=
  if s.retired stack (bucketDpa stack t key) 128 then none
  else (List.range 16).find? (fun w =>
    !tagUsed (s.tagAt stack t key w) && !s.retired stack (wayDpa stack t key w) (tblSlot t) &&
    !s.slotBusy stack (wayDpa stack t key w))

/-- Where a new row goes (R202): the lowest free way where `bucket` allows, else the lowest free Drift-area slot if the
Drift Map has a way for its entry; none if there is no room. -/
def State.newPlace (s : State) (stack t key : Nat) (bucket : Bool) : Option Nat :=
  match (if bucket then s.freeWay stack t key else none) with
  | some w => some w
  | none => match s.freeArea stack t, s.dmWayFor stack key with
    | some n, some _ => some (n + 16)
    | _, _ => none

/-- A row that finds no place for want of a way for its entry counts in SET_FULL (R204). -/
def noteSetFull (stack t key : Nat) : Plan := fun s =>
  if (s.freeArea stack t).isSome ∧ (s.dmWayFor stack key).isNone then [s.addF .DRIFT_FWD_SET_FULL 1 stack] else []

/-- The tag or the entry that makes a row visible at its place (R202). -/
def showRow (stack t key p : Nat) : Plan :=
  if p < 16 then writeMem (bucketDpa stack t key + 8 * p) (leBytes 8 (keyIndex key + 2 ^ 48))
  else plans [setAreaBit stack t (p - 16) true, dmPlace stack key (mkLoc kResident 0 0 (p - 16))]

/-- A row's place is given up: its tag is cleared, or its Drift-area bit; a retired slot stays in use (R227, R427). -/
def clearPlace (stack t key p : Nat) : Plan := fun s =>
  if p < 16 then writeMem (bucketDpa stack t key + 8 * p) (leBytes 8 0) s
  else if s.retired stack (driftDpa stack t (p - 16)) (tblSlot t) then []
  else setAreaBit stack t (p - 16) false s

/-! Resolve (R201, R232, R420). -/

/-- What a stack's resolve of a key gives: its place; a copy not yet installed; a forward to a rank and stack, and
whether it carries FROM_NEW (R232); absent; absent at an old home; or a tag line or set that cannot be read. -/
inductive Resolved where
  | at (p : Nat)
  | pending
  | forward (rank stack : Nat) (fromNew : Bool)
  | absent
  | absentOld
  | bad (a : Option Nat)
  deriving DecidableEq, Repr

/-- The resolve of R201 at a stack of this module. `fromNew` is the request's FROM_NEW flag. -/
def State.resolve (s : State) (stack t key : Nat) (fromNew : Bool) : Resolved :=
  let l := s.dmLoc stack key
  let k := locKind l
  let home := homeModule key s.jobN
  let old := s.prevN.map (homeModule key)
  if Sparse.get 0 s.rows.dmapBad (stack * 2 ^ 18 + dmSet key) ≠ 0 then .bad none
  else if k = kResident then (if locPending l then .pending else .at (locLast l + 16))
  else if k = kBucket then .at (bits l 32 4)
  else if k = kMoved ∨ k = kTombstone then .forward (locRank l) (locStack l) false
  else
    let isNew := home == s.rank && homeStack key == stack
    let isOld := old == some s.rank && homeStack key == stack
    if !isNew && !isOld then .forward home (homeStack key) false
    else
      let away : Resolved :=
        if isNew then
          match old with
          | some r => if r ≠ s.rank then .forward r stack true else .absent
          | none => .absent
        else if fromNew then .absentOld else .forward home stack false
      if s.retired stack (bucketDpa stack t key) 128 then away
      else if s.tagBad stack t key then .bad (some (bucketDpa stack t key))
      else match s.wayOf stack t key with
        | some w => .at w
        | none => away

/-- Whether a row is TORN (R260). -/
def State.tornRow (s : State) (stack key : Nat) : Bool :=
  s.rows.torn.any (fun x => x.stack == stack && x.key == key)

/-- Whether a row is LEAVING (R227). -/
def State.leaving (s : State) (stack key : Nat) : Bool := locLeaving (s.dmLoc stack key)

/-- A stack that has lost its state posts it once (R419). -/
def loseStack (stack : Nat) : Plan := fun s =>
  let m := s.get .ERR_STATUS_STATE_LOST
  if m.testBit stack then []
  else setF .ERR_STATUS_STATE_LOST (putBits m stack 1 1) :: postEvent 6 3 3 stack 0 0 s

/-- A stack reads its torn list, or its in-flight log (`log` 1): an error in one copy is corrected, and a word that neither
copy gives loses the stack (R410, R411, R418, R419). A stack that is lost reads them no more. -/
def readList (stack log : Nat) : Plan := fun s =>
  let e := Sparse.get 0 s.rows.listBad (2 * stack + log)
  if e = 0 ∨ (s.get .ERR_STATUS_STATE_LOST).testBit stack then []
  else plans [noteWord 3 stack e 18, if e = 1 then fun _ => [.rows (fun r => { r with
      listBad := Sparse.set 0 r.listBad (2 * stack + log) 0 })] else loseStack stack] s

/-- A key enters the torn list, in ascending key order; one that finds it full loses the stack (R260, R419). -/
def addTorn (stack key dpa : Nat) : Plan := fun s =>
  let mine := s.rows.torn.filter (fun x => x.stack == stack)
  if mine.any (fun x => x.key == key) then []
  else if mine.length ≥ 524288 then loseStack stack s
  else
    [.rows (fun r => { r with torn :=
      (r.torn.filter (fun x => x.stack != stack || x.key < key)) ++ [⟨stack, key, dpa⟩] ++
      (r.torn.filter (fun x => x.stack == stack && x.key ≥ key)) })]

/-! Slots (R197, R199). -/

def slotHdr (s : State) (dpa : Nat) : Nat := s.leAt dpa 8
def hdrStamp (h : Nat) : Nat := bits h 0 44
def hdrValid (h : Nat) : Bool := h.testBit 44
def hdrDirty (h : Nat) : Bool := h.testBit 45
def hdrUpdated (h : Nat) : Bool := h.testBit 47
/-- ROW_HEADER of its fields. -/
def mkHdr (stamp : Nat) (dirty nonfinite updated : Bool) : Nat :=
  stamp % 2 ^ 44 + 2 ^ 44 + b2n dirty * 2 ^ 45 + b2n nonfinite * 2 ^ 46 + b2n updated * 2 ^ 47

/-- Bytes of the stored body as lookups, copies and replies carry it: the prefix first, for Q8R and Q4R. -/
def bodyLen (t : Nat) : Nat := bodyBytes (tblFmt t) (tblDim t) + (if affine (tblFmt t) then 4 else 0)

/-- Where that body begins in the slot. PREFIX and the codes adjoin. -/
def bodyOff (t : Nat) : Nat := if affine (tblFmt t) then 12 else 16

/-! The hot directory (R219, R220). -/

/-- Entries of a die's HOT region. -/
def State.hotSize (s : State) (die : Nat) : Nat := (s.region 4 die).2 * 4096 / 272 / 16 * 16
def State.hotDir (s : State) (die k : Nat) : Nat := sharedTarn die ((s.region 4 die).1 * 4096 + 16 * k)
def State.hotCopy (s : State) (die k : Nat) : Nat :=
  sharedTarn die ((s.region 4 die).1 * 4096 + 16 * s.hotSize die + 256 * k)

/-- The first entry of a key's set. -/
def State.hotSet (s : State) (die key : Nat) : Nat := ((bits (rowHash key) 8 32 * (s.hotSize die / 16)) >>> 32) * 16

def State.hotKey (s : State) (die k : Nat) : Nat := s.leAt (s.hotDir die k) 8
def State.hotWord (s : State) (die k : Nat) : Nat := s.leAt (s.hotDir die k + 8) 8
def hotValid (w : Nat) : Bool := w.testBit 0
def hotDirty (w : Nat) : Bool := w.testBit 1
def hotPinned (w : Nat) : Bool := w.testBit 2
def hotEst (w : Nat) : Nat := bits w 16 16

/-- The directory entry of a key. -/
def State.hotFind (s : State) (die key : Nat) : Option Nat :=
  if s.hotSize die = 0 then none
  else ((List.range 16).map (· + s.hotSet die key)).find? (fun k =>
    hotValid (s.hotWord die k) && s.hotKey die k == key)

/-- A directory entry takes its word of flags and estimate. -/
def setHotWord (die k w : Nat) : Plan := fun s => writeMem (s.hotDir die k + 8) (leBytes 8 w) s

/-- The key of `pins` for a die's copy of a row. -/
def pinKey (die key : Nat) : Nat := die * 2 ^ 64 + key

/-- A copy is dropped. -/
def dropHot (die k : Nat) : Plan := fun s =>
  plans [writeMem (s.hotDir die k) (leBytes 16 0),
    fun _ => [.rows (fun r => { r with pins := Sparse.set [] r.pins (pinKey die (s.hotKey die k)) [] })]] s

/-- Step whose merge is open at a stack. -/
def State.mergeStep (s : State) (stack : Nat) : Nat := Sparse.get 0 s.silt.openStep stack

/-- The steps whose updates of a row await its new body at a die's stacks: contributions of open merges, and combined
gradients not yet applied (R85, R246). -/
def State.pinSteps (s : State) (die key : Nat) : List Nat :=
  ((s.silt.contribs.filter (fun c => stackDie c.stack == die && c.key == key && decide (s.mergeStep c.stack ≤ c.merge))).map (·.merge) ++
   (s.silt.combs.filter (fun c => stackDie c.stack == die && c.key == key && c.st != 2)).map (·.step)).eraseDups

/-- A row's hot copy is pinned exactly while an update of the row awaits its new body (R85, R246). -/
def repin (die key : Nat) : Plan := fun s =>
  match s.hotFind die key with
  | some k =>
    let steps := s.pinSteps die key
    plans [fun _ => [.rows (fun r => { r with pins := Sparse.set [] r.pins (pinKey die key) steps })],
      setHotWord die k (putBits (s.hotWord die k) 2 1 (b2n !steps.isEmpty))] s
  | none => []

/-- Whether a copy's lines cannot be read. -/
def State.hotBad (s : State) (die k : Nat) : Bool :=
  (linesOf (s.hotCopy die k) 256).any s.lineBad

/-- A dirty copy is written back: the body into the slot, then the header with HOT_DIRTY clear (R86). One that cannot be
read is dropped, and its row is torn (R418). -/
def hotWriteback (die k stack t key p : Nat) : Plan := fun s =>
  let dpa := placeDpa stack t key p
  if !hotDirty (s.hotWord die k) then []
  else if s.hotBad die k then
    plans [planEach (linesOf (s.hotCopy die k) 256) (noteRead 5), addTorn stack key dpa, dropHot die k] s
  else
    plans [writeMem (dpa + bodyOff t) (s.bytesAt (s.hotCopy die k) (bodyLen t)),
      fun s' => writeMem dpa (leBytes 8 (putBits (slotHdr s' dpa) 45 1 0)) s',
      setHotWord die k (putBits (s.hotWord die k) 1 1 0)] s

/-- The place a stack of this die holds a row in without forwarding. -/
def State.placeOf (s : State) (stack t key : Nat) : Option Nat :=
  match s.resolve stack t key true with
  | .at p => some p
  | _ => none

/-- The stack of a die that holds a row which a hot copy copies. -/
def State.hotOwner (s : State) (die t key : Nat) : Option (Nat × Nat) :=
  ((List.range 8).map (· + 8 * die)).findSome? (fun st => (s.placeOf st t key).map (fun p => (st, p)))

/-- A copy, dirty or not, is written back and dropped (R86, R222). -/
def hotRetire (die k : Nat) : Plan := fun s =>
  let key := s.hotKey die k
  match s.table (keyTable key) with
  | none => dropHot die k s
  | some t => match s.hotOwner die t key with
    | some (st, p) => plans [hotWriteback die k st t key p, dropHot die k] s
    | none => dropHot die k s

/-! The sketch and the heavy-row list (R221, R224). -/

def sketchIdx (stack key q : Nat) : Nat :=
  let g := rowHash key * 0xBF58476D1CE4E5B9 % 2 ^ 64
  stack * 2 ^ 18 + q * 2 ^ 16 + bits g (16 * q) 16

/-- The estimate of a key: the least of its four counters. -/
def State.estimate (s : State) (stack key : Nat) : Nat :=
  minOf 0 ((List.range 4).map (fun q => Sparse.get 0 s.rows.sketch (sketchIdx stack key q)))

/-- Entry `i` of a stack's heavy-row list. -/
def State.heavyAt (s : State) (stack i : Nat) : Nat × Nat := Sparse.get (0, 0) s.rows.heavy (stack * 64 + i)

def setHeavy (stack i : Nat) (v : Nat × Nat) : Upd :=
  .rows (fun r => { r with heavy := Sparse.set (0, 0) r.heavy (stack * 64 + i) v })

/-- The heavy-row list takes a key's new estimate (R224). -/
def heavyNote (stack key est : Nat) : Plan := fun s =>
  let used := fun i => (s.heavyAt stack i).2 ≠ 0
  match (List.range 64).find? (fun i => decide (used i) && (s.heavyAt stack i).1 == key) with
  | some i => [setHeavy stack i (key, est + 1)]
  | none => match (List.range 64).find? (fun i => !decide (used i)) with
    | some i => [setHeavy stack i (key, est + 1)]
    | none =>
      let low := (List.range 64).foldl (fun m i => if (s.heavyAt stack i).2 ≤ (s.heavyAt stack m).2 then i else m) 0
      if est + 1 > (s.heavyAt stack low).2 then [setHeavy stack low (key, est + 1)] else []

/-- A key leaves a stack's heavy-row list. -/
def heavyDrop (stack key : Nat) : Plan := fun s =>
  match (List.range 64).find? (fun i => (s.heavyAt stack i).2 != 0 && (s.heavyAt stack i).1 == key) with
  | some i => [setHeavy stack i (0, 0)]
  | none => []

/-- One read of a row counts in the sketch (R221). -/
def sketchBump (stack key : Nat) : Plan := plans [
  fun s => (List.range 4).map (fun q =>
    let k := sketchIdx stack key q
    let n := satAdd 16 (Sparse.get 0 s.rows.sketch k) 1
    .rows (fun r => { r with sketch := Sparse.set 0 r.sketch k n })),
  fun s => heavyNote stack key (s.estimate stack key) s]

/-- Lookups (0) or updates (1) of a stack and table, counted for the window of R223. -/
def loadNote (stack t which : Nat) : Plan := fun _ =>
  [.rows (fun r =>
    let a := (stack * 4097 + t) * 2 + which
    let b := (stack * 4097 + 4096) * 2 + which
    let m := Sparse.set 0 r.load a (Sparse.get 0 r.load a + 1)
    { r with load := Sparse.set 0 m b (Sparse.get 0 m b + 1) })]

/-! Admission (R220, R222, R87). -/

/-- A row qualifies for a hot copy (R220). -/
def State.hotQualifies (s : State) (stack t key : Nat) : Bool :=
  tblHot t && bodyLen t ≤ 256 && !s.leaving stack key && !s.tornRow stack key

/-- A candidate is admitted: into an invalid way, or in place of the unpinned way with the lowest estimate below its own
(R222); with every way pinned it is refused and counted (R87). -/
def hotAdmit (stack t key p : Nat) : Plan := fun s =>
  let die := stackDie stack
  let est := s.estimate stack key
  let thr := s.get .EMB_HOT_CFG_ADMIT_THRESHOLD die
  let ways := (List.range 16).map (· + s.hotSet die key)
  let fill : Nat → Plan := fun k s' => plans [
    writeMem (s'.hotDir die k) (leBytes 8 key ++ leBytes 8 (1 + est * 65536)),
    writeMem (s'.hotCopy die k) (s'.bytesAt (placeDpa stack t key p + bodyOff t) (bodyLen t)),
    repin die key, count .EMB_HOT_STATS_ADMITS 1 die] s'
  let sweeping := (List.range 8).any (fun i => s.get .SILT_TORN_SWEEP_BUSY (8 * die + i) == 1)
  if thr = 0 ∨ est < thr ∨ !s.hotQualifies stack t key ∨ s.hotSize die = 0 ∨ sweeping then []
  else match ways.find? (fun k => !hotValid (s.hotWord die k)) with
    | some k => fill k s
    | none =>
      let free := ways.filter (fun k => !hotPinned (s.hotWord die k))
      let low := free.foldl (fun m k =>
        match m with
        | none => some k
        | some x => if hotEst (s.hotWord die k) < hotEst (s.hotWord die x) then some k else m) none
      s.addF .TIER_CLASS_EVENTS_FULL 1 (4 * 256 + die) ::
      match low with
      | none => [s.addF .TIER_CLASS_EVENTS_OUTCOME 1 (4 * 256 + die)]
      | some k =>
        if hotEst (s.hotWord die k) < est then
          plans [hotRetire die k, count .EMB_HOT_STATS_EVICTIONS 1 die, fill k] s
        else []

end Sys2Proof.Machine
end

