-- ==== Sys2Proof/Machine/Lookup.lean ====
section
/-!
DEFINITION. Lookups: how a stack serves a request (R211 to R214, R256), what a reply does at the requester (R213, R230),
and end markers (R349).
-/
namespace Sys2Proof.Machine

/-- `n` bytes at offset `o` of a byte list, as a little-endian number. -/
def fieldOf (l : List Nat) (o n : Nat) : Nat := ofLe ((l.drop o).take n)

/-- A byte list cut into entries of `n` bytes. -/
def chunks (n : Nat) (l : List Nat) : List (List Nat) :=
  (List.range (l.length / max n 1)).map (fun i => (l.drop (i * n)).take n)

/-- A LOOKUP_REQ entry (R384). `flags`: die of the requester in bit 0, FROM_NEW in bit 1. -/
def reqEntry (key req origin flags fwd stack : Nat) : List Nat :=
  leBytes 8 key ++ leBytes 4 req ++ leBytes 2 origin ++ [flags, fwd, stack] ++ List.replicate 7 0

/-- A LOOKUP_REPLY entry (R384). -/
def replyEntry (key req status flags rank stack : Nat) (body : List Nat) : List Nat :=
  leBytes 8 key ++ leBytes 4 req ++ [status, flags] ++ leBytes 2 rank ++ [stack, 0] ++ leBytes 2 body.length ++
  leBytes 4 0 ++ body ++ List.replicate (roundUp body.length 8 - body.length) 0

/-- A stack answers a request with a status and a body (R211). -/
def replyTo (stack : Nat) (e : List Nat) (status : Nat) (body : List Nat) : Plan := fun s =>
  let flags := b2n (fieldOf e 15 1 > 0) + 2 * (fieldOf e 14 1 % 2)
  let entry := replyEntry (fieldOf e 0 8) (fieldOf e 8 4) status flags s.rank stack body
  toRank (fieldOf e 12 2) 0 { op := 0x21, payload := entry } s

/-- A request joins the deferral list, or is answered TORN_FULL (R212). -/
def deferReq (stack step : Nat) (e : List Nat) : Plan := fun s =>
  if (s.rows.deferred.filter (fun h => h.stack == stack)).length ≥ 1024 then replyTo stack e 4 [] s
  else [.rows (fun r => { r with deferred := r.deferred ++ [⟨stack, fieldOf e 0 8, false, step, e⟩] })]

/-- A request or a push is held for a row (R227, R256). -/
def holdReq (stack step : Nat) (push : Bool) (e : List Nat) : Upd :=
  .rows (fun r => { r with held := r.held ++ [⟨stack, fieldOf e 0 8, push, step, e⟩] })

/-- A request that meets an update of its row is held, and counts. DESIGN CHOICE (notes/assumptions/28.md): CONFLICT_WAIT
counts held requests, as its register says (R269), where R256 speaks of held clk. -/
def holdConflict (stack step : Nat) (e : List Nat) : Plan := fun s =>
  [holdReq stack step false e, s.addF .SILT_LANES_CONFLICT_WAIT 1 stack]

/-- A row that a lookup meets in flight, or with a combined gradient of an earlier step to apply, holds it (R256). -/
def State.conflicts (s : State) (stack key step : Nat) : Bool :=
  s.rows.log.any (fun l => l.stack == stack && l.key == key) ||
  s.silt.combs.any (fun c => c.stack == stack && c.key == key && c.st == 0 && c.step < step)

/-- A hot hit (R211, R221, R222, R256, R418). -/
def serveHot (stack step k t : Nat) (e : List Nat) : Plan := fun s =>
  let key := fieldOf e 0 8
  let die := stackDie stack
  let w := s.hotWord die k
  let owner := (s.hotOwner die t key).getD (stack, 0)
  if hotPinned w ∧ (Sparse.get [] s.rows.pins (pinKey die key)).any (· < step) then
    holdConflict owner.1 step e s
  else if s.hotBad die k then
    plans [planEach (linesOf (s.hotCopy die k) 256) (noteRead 5), dropHot die k,
      (if hotDirty w then addTorn owner.1 key (placeDpa owner.1 t key owner.2) else fun _ => []), replyTo stack e 2 []] s
  else
    plans [setHotWord die k (putBits w 16 16 (satAdd 16 (hotEst w) 1)), count .EMB_HOT_STATS_HITS 1 die,
      loadNote owner.1 (keyTable key) 0, replyTo stack e 0 (s.bytesAt (s.hotCopy die k) (bodyLen t)),
      sketchBump owner.1 key] s

/-- A slot read while its stack sweeps, with HOT_DIRTY set, belongs in the torn list (R260). -/
def State.sweepTears (s : State) (stack dpa : Nat) : Bool :=
  s.get .SILT_TORN_SWEEP_BUSY stack == 1 && hdrDirty (slotHdr s dpa)

/-- A request at the stack's Silt (R201, R211, R212, R214, R232, R256, R419, R420). -/
def serveSilt (stack step t : Nat) (e : List Nat) : Plan := plans [readList stack 0, fun s =>
  let key := fieldOf e 0 8
  let die := stackDie stack
  let flags := fieldOf e 14 1
  let meets := s.conflicts stack key step
  if (s.get .ERR_STATUS_STATE_LOST).testBit stack then deferReq stack step e s
  else match s.resolve stack t key (flags.testBit 1) with
  | .bad none => plans [noteWord 3 stack 2 4, replyTo stack e 2 []] s
  | .bad (some a) => plans [planEach (linesOf a 128) (noteRead 4), replyTo stack e 2 []] s
  | .pending => [holdReq stack step false e]
  | .absent => if meets then holdConflict stack step e s else replyTo stack e 1 [] s
  | .absentOld => replyTo stack e 1 [] s
  | .forward r st fromNew =>
    let fwd := fieldOf e 15 1
    if fromNew ∧ meets then holdConflict stack step e s
    else if fwd ≥ 2 then replyTo stack e 5 [] s
    else
      let flags' := if fromNew then putBits flags 1 1 1 else flags
      let entry := reqEntry key (fieldOf e 8 4) (fieldOf e 12 2) flags' (fwd + 1) st
      s.addF .DRIFT_FWD_FORWARDED 1 stack ::
      ((if fromNew then [s.addF .EMB_RESHARD_FWD_TO_OLD 1 die] else []) ++
       [forwardEntry r 0x20 step entry])
  | .at p =>
    let dpa := placeDpa stack t key p
    let lines := linesOf dpa (bodyOff t + bodyLen t)
    if s.tornRow stack key then deferReq stack step e s
    else if meets then holdConflict stack step e s
    else if lines.any s.lineBad then
      plans [planEach lines (noteRead 2), addTorn stack key dpa, replyTo stack e 2 []] s
    else if s.sweepTears stack dpa then
      plans [addTorn stack key dpa, deferReq stack step e] s
    else
      plans [planEach lines (noteRead 2), replyTo stack e 0 (s.bytesAt (dpa + bodyOff t) (bodyLen t)),
        loadNote stack (keyTable key) 0, sketchBump stack key,
        if fieldOf e 12 2 = s.rank ∧ flags % 2 = die then hotAdmit stack t key p else fun _ => []] s]

/-- A lookup request is served by the stack it is addressed to (R211). -/
def serveLookup (step : Nat) (e : List Nat) : Plan := fun s =>
  let key := fieldOf e 0 8
  let stack := fieldOf e 16 1 % 16
  match s.table (keyTable key) with
  | none => replyTo stack e 6 [] s
  | some t => match s.hotFind (stackDie stack) key with
    | some k => if s.leaving stack key then serveSilt stack step t e s else serveHot stack step k t e s
    | none => serveSilt stack step t e s

/-- The entries of a LOOKUP_REQ arrive. -/
def recvLookups (b : GtBody) : Plan := plans [planEach (chunks 24 b.payload) (serveLookup b.step), sendForwards]

/-! The requester's side. -/

/-- A reply keeps the cached redirects up to date (R230). -/
def noteRedirect (key rank stack : Nat) (forwarded : Bool) : Plan := fun s =>
  let home := homeModule key s.jobN
  let slice := homeStack key
  let old := s.dmLoc slice key
  let cached := locKind old = kCached
  if home = s.rank then []
  else if forwarded ∧ rank ≠ home then
    if locKind old ≠ 0 ∧ ¬ cached then []
    else dmPlace slice key (mkLoc kCached rank stack (s.get .BEAT_COUNT_COUNT)) s
  else if !forwarded ∧ rank = home ∧ cached then dmFree slice key s
  else []

/-- What a status counts at the requester (R211, R213). -/
def countStatus (die key status : Nat) : Plan := fun s =>
  let i := die * 4096 + keyTable key % 4096
  match status with
  | 0 => [s.addF .EMB_TABLE_COUNT_FETCHED 1 i]
  | 1 => [s.addF .EMB_TABLE_COUNT_ABSENT 1 i]
  | 3 => [s.addF .EMB_TABLE_EXCL_TIMEOUT 1 i]
  | 4 => [s.addF .EMB_TABLE_EXCL_ERR 1 i, s.addF .EMB_REPLY_TORN_FULL 1 die]
  | 5 => [s.addF .EMB_TABLE_EXCL_ERR 1 i, s.addF .EMB_REPLY_FWD_LIMIT 1 die]
  | _ => [s.addF .EMB_TABLE_EXCL_ERR 1 i]

/-- The waiting request of a die that has an id and a key. -/
def isWaiting (die req key : Nat) (f : Fetched) : Bool := f.die == die && f.req == req && f.key == key && f.st == 255

/-- One reply entry arrives: it fills the lookup buffer, or is discarded late (R213). -/
def takeReply (e : List Nat) : Plan := fun s =>
  let key := fieldOf e 0 8
  let die := bits (fieldOf e 13 1) 1 1
  let status := fieldOf e 12 1
  let hit := isWaiting die (fieldOf e 8 4) key
  if s.emb.fetched.any hit then
    plans [fun _ => [.emb (fun m => { m with
        fetched := m.fetched.map (fun f =>
          if hit f then { f with st := status, body := (e.drop 24).take (fieldOf e 18 2) } else f) })],
      countStatus die key status, noteRedirect key (fieldOf e 14 2) (fieldOf e 16 1) (fieldOf e 13 1 % 2 == 1)] s
  else [s.addF .EMB_REPLY_LATE 1 die]

/-- Reply entries of a payload, each 24 B and its padded body. -/
def replyEntries : Nat → List Nat → List (List Nat)
  | 0, _ => []
  | n + 1, l =>
    if l.length < 24 then []
    else
      let len := 24 + roundUp (fieldOf l 18 2) 8
      l.take len :: replyEntries n (l.drop len)

/-- The entries of a LOOKUP_REPLY arrive. -/
def recvReplies (b : GtBody) : Plan := planEach (replyEntries 374 b.payload) takeReply

/-! End markers (R349). -/

/-- Keys of a rank's lookups (0) or pushes (1) are counted against its end marker. -/
def noteKeys (rank which n : Nat) : Plan := fun s => [s.addV .endKeys n (rank * 2 + which)]

/-- An end marker from a rank: a shortfall counts with the late contributions of the step. -/
def endMark (rank : Nat) (b : GtBody) : Plan := fun s =>
  let i := rank * 2 + b.arg1 % 2
  let short := b.arg0 - s.var .endKeys i
  .var .endKeys i 0 ::
  (if short = 0 then []
   else [s.addF .COLL_LATE_DROPPED short, cutAdd b.step (fun c => { c with lateDrop := c.lateDrop + short })])

end Sys2Proof.Machine
end

