-- ==== Sys2Proof/Machine/Optim.lean ====
section
/-!
DEFINITION. What one row update computes (R238 to R244) and the exact sum of squares of a stack's partial (R249).
-/
namespace Sys2Proof.Machine

/-- FP32 1.0. -/
def f1 : Nat := 0x3F800000
/-- An exact integer as FP32, rounded by RNE where it needs rounding. -/
def fOfNat (n : Nat) : Nat := fenc (FV.ofInt n)

def optLr (o : Nat) : Nat := recGet o 4 4
def optBeta1 (o : Nat) : Nat := recGet o 8 4
def optBeta2 (o : Nat) : Nat := recGet o 12 4
def optEps (o : Nat) : Nat := recGet o 16 4
def optWd (o : Nat) : Nat := recGet o 20 4
def optClip (o : Nat) : Nat := recGet o 24 4
def optScale (o : Nat) : Nat := recGet o 28 4
def optAccInit (o : Nat) : Nat := recGet o 32 4
def optT0 (o : Nat) : Nat := bits o (8 * 40) 44

/-- ob1, ob2 and lrwd of R238. -/
def optOb1 (o : Nat) : Nat := fsub f1 (optBeta1 o)
def optOb2 (o : Nat) : Nat := fsub f1 (optBeta2 o)
def optLrwd (o : Nat) : Nat := fmul (optLr o) (optWd o)

/-- The loop of R238 over the low `n` bits of t, highest first. -/
def betaPow (beta t : Nat) : Nat → Nat → Nat
  | 0, p => p
  | n + 1, p =>
    let q := fmul p p
    betaPow beta t n (if t.testBit n then fmul q beta else q)

/-- A bias correction (R238). -/
def biasCorr (beta t : Nat) : Nat := fsub f1 (betaPow beta t (bitLen t) f1)

/-- bc1 and bc2 of a record at step `s` (R238). -/
def biasPair (o s : Nat) : Nat × Nat :=
  let t := if s < optT0 o then 1 else s - optT0 o + 1
  (biasCorr (optBeta1 o) t, biasCorr (optBeta2 o) t)

/-- The conditioned gradient before clipping, which the norm measures (R240). The count divides exactly. -/
def condition (o count g : Nat) : Nat :=
  let g := if optFlag o 1 then fenc ((fdec g).div (FV.ofInt count)) else g
  if feq (optScale o) f1 then g else fmul g (optScale o)

/-- The clip factor of a record for norm `n`; none where clipping is inactive (R240, R251). -/
def clipFactor (o n : Nat) : Option Nat :=
  if !optFlag o 3 && flt 0 (optClip o) && flt (optClip o) n then
    let cf := fdiv (optClip o) n
    if feq cf f1 then none else some cf
  else none

/-- The gradient as the update takes it (R240): clipped, and with weight decay for the kinds that add it there. -/
def finalGrad (o : Nat) (cf : Option Nat) (w g : Nat) : Nat :=
  let g := match cf with | some c => fmul g c | none => g
  if fabs (optWd o) != 0 && [1, 2, 3, 4, 5].contains (optKind o) then ffma (optWd o) w g else g

/-- One element's update (R241): w, m, v. `r` is the row's rate for row-wise Adagrad, `bc` the bias corrections. -/
def updElem (o r : Nat) (bc : Nat × Nat) (g w m v : Nat) : Nat × Nat × Nat :=
  let lr := fneg (optLr o)
  match optKind o with
  | 1 => (ffma lr g w, m, v)
  | 2 =>
    let m := ffma (optBeta1 o) m g
    let u := if optFlag o 0 then ffma (optBeta1 o) m g else m
    (ffma lr u w, m, v)
  | 3 =>
    let v := ffma g g v
    (ffma lr (fdiv g (fadd (fsqrt v) (optEps o))) w, m, v)
  | 4 => (ffma (fneg r) g w, m, v)
  | 5 | 6 =>
    let m := ffma (optBeta1 o) m (fmul (optOb1 o) g)
    let v := ffma (optBeta2 o) v (fmul (optOb2 o) (fmul g g))
    let mh := if optFlag o 2 then fdiv m bc.1 else m
    let vh := if optFlag o 2 then fdiv v bc.2 else v
    let u := fdiv mh (fadd (fsqrt vh) (optEps o))
    let w := if optKind o = 6 then ffma (fneg (optLrwd o)) w w else w
    (ffma lr u w, m, v)
  | _ => (w, m, v)

/-- Pairs of neighbours added, one level of the tree of R138. -/
def pairUp : List Nat → List Nat
  | a :: b :: rest => fadd a b :: pairUp rest
  | l => l

/-- The sum of squares of a row's gradients: 16 chains, then the pairwise tree (R242). -/
def sumSquares (gs : List Nat) : Nat :=
  let chain := fun j => (gs.zipIdx.filter (fun p => p.2 % 16 == j)).foldl (fun a p => ffma p.1 p.1 a) 0
  (pairUp (pairUp (pairUp (pairUp ((List.range 16).map chain))))).headD 0

/-! Rows as slots hold them (R197, R243). -/

/-- A row's decoded state: body, first moments, second moments, ACC. -/
structure RowState where
  w   : List Nat
  m   : List Nat
  v   : List Nat
  acc : Nat
  deriving DecidableEq, Repr

/-- Elements of a body as stored bytes, with its prefix first for Q8R and Q4R, decoded to FP32 (R65, R55). -/
def decodeBody (t : Nat) (bs : List Nat) : List Nat :=
  let f := tblFmt t
  let d := tblDim t
  if affine f then
    let n := ofLe (bs.drop 4)
    (unpack (fmtWidth f) d n).map (rowDecode (ofLe (bs.take 2)) (ofLe ((bs.drop 2).take 2)))
  else (unpack (fmtWidth f) d (ofLe bs)).map (cvtTo32 f)

/-- A body encoded: prefix, codes or elements as bytes, and whether any element decodes to a non-finite value (R243). -/
def encodeBody (t seed key step : Nat) (ws : List Nat) : Nat × List Nat × Bool :=
  let f := tblFmt t
  if affine f then
    let ((sc, off, codes), bad) := rowEncode f seed key step ws
    (sc + off * 65536, leBytes (bodyBytes f (tblDim t)) (pack (fmtWidth f) codes), bad)
  else
    let es := ws.map (cvtFrom32 f)
    (0, leBytes (bodyBytes f (tblDim t)) (pack (fmtWidth f) es), es.any (fun e => !fFinite (cvtTo32 f e)))

/-- One moment area decoded (R69, R197). -/
def decodeMoments (second : Bool) (mf d : Nat) (bs : List Nat) : List Nat :=
  if mf = 0 then unpack 32 d (ofLe bs)
  else
    let codes := bs.drop (roundUp (2 * ((d + 31) / 32)) 16)
    (List.range d).map (fun i =>
      momentDecode second (ofLe ((bs.drop (2 * (i / 32))).take 2)) (codes.getD i 0))

/-- One moment area encoded (R70, R71, R197). -/
def encodeMoments (second : Bool) (mf d seed key step : Nat) (xs : List Nat) : List Nat :=
  if mf = 0 then leBytes (4 * d) (pack 32 xs)
  else
    let nb := (d + 31) / 32
    let blocks := (List.range nb).map (fun b =>
      momentEncode second seed key step (32 * b) ((xs.drop (32 * b)).take 32))
    let scales := (blocks.map (fun b => leBytes 2 b.1)).flatten
    scales ++ List.replicate (roundUp (2 * nb) 16 - 2 * nb) 0 ++
      (blocks.map (fun b => b.2 ++ List.replicate (32 - b.2.length) 0)).flatten

/-- Offset of a slot's first moment area. -/
def momOff (t : Nat) : Nat := 16 + roundUp (bodyBytes (tblFmt t) (tblDim t)) 16

/-- A row's state from its slot's bytes and its body's bytes, which a hot copy may supply (R85). -/
def decodeRow (t kind : Nat) (slot body : List Nat) : RowState :=
  let d := tblDim t
  let (a, b) := kindMoments kind
  let area := momentArea (tblMomFmt t) d
  let first := slot.drop (momOff t)
  { w := decodeBody t body
    m := if a then decodeMoments false (tblMomFmt t) d (first.take area) else List.replicate d 0
    v := if b then decodeMoments true (tblMomFmt t) d ((first.drop (if a then area else 0)).take area)
      else List.replicate d 0
    acc := ofLe ((slot.drop 8).take 4) }

/-- The state from which an absent row starts (R244). -/
def freshRow (t o : Nat) : RowState :=
  { w := List.replicate (tblDim t) (tblInit t), m := List.replicate (tblDim t) 0
    v := List.replicate (tblDim t) (optAccInit o), acc := optAccInit o }

/-- A row's state after an update with combined gradient `g` and count (R240 to R242). -/
def updateRow (t o count : Nat) (cf : Option Nat) (bc : Nat × Nat) (g : List Nat) (x : RowState) : RowState :=
  let gs := (g.zip x.w).map (fun p => finalGrad o cf p.2 (condition o count p.1))
  let acc := if optKind o = 4 then fadd x.acc (fdiv (sumSquares gs) (fOfNat (tblDim t))) else x.acc
  let r := fdiv (optLr o) (fadd (fsqrt acc) (optEps o))
  let els := (gs.zip (x.w.zip (x.m.zip x.v))).map (fun p => updElem o r bc p.1 p.2.1 p.2.2.1 p.2.2.2)
  { w := els.map (·.1), m := els.map (·.2.1), v := els.map (·.2.2), acc := acc }

/-- A slot's bytes from ROW_HEADER, ACC, PREFIX, body and the moments of its kind (R197). -/
def buildSlot (t kind seed key step hdr pre : Nat) (body : List Nat) (x : RowState) : List Nat :=
  let d := tblDim t
  let mf := tblMomFmt t
  let (a, b) := kindMoments kind
  leBytes 8 hdr ++ leBytes 4 (if kind = 4 then x.acc else 0) ++ leBytes 4 pre ++ body ++
    List.replicate (roundUp body.length 16 - body.length) 0 ++
    (if a then encodeMoments false mf d seed key step x.m else []) ++
    (if b then encodeMoments true mf d seed key step x.v else [])

/-! The exact sum of squares (R249). -/

/-- The square of a finite FP32 value in units of 2^-298. -/
def squareUnits (g : Nat) : Nat :=
  match fdec g with
  | .fin _ m e => m * m <<< (2 * e + 298).toNat
  | _ => 0

/-- The stack partial of a list of conditioned gradients (R249). -/
def stackPartial (gs : List Nat) : Nat × Nat :=
  if gs.any fIsNan then (fNaN, 0)
  else if gs.any (fun g => !fFinite g) then (0x7F800000, 0)
  else
    let v : FV := .fin false (gs.foldl (fun a g => a + squareUnits g) 0) (-298)
    let hi := fenc v
    if fFinite hi then (hi, fenc (v.add (fdec hi).neg)) else (hi, 0)

end Sys2Proof.Machine
end

