-- ==== Sys2Proof/Machine/Silt.lean ====
section
/-!
DEFINITION. Silt: pushes and merges (R245 to R248), the stack partial and the global norm (R249 to R252), the lanes
(R253, R256, R258), torn rows and refills (R259 to R262), and the work items (R267, R268).
-/
namespace Sys2Proof.Machine

/-! A stack's steps (R246, R267). -/

/-- The oldest unapplied step of a stack. -/
def State.oldestStep (s : State) (stack : Nat) : Nat :=
  s.get .SILT_STATUS_STEP stack + (if s.get .SILT_STATUS_PHASE stack = 5 then 1 else 0)

/-- Whether a step was skipped for its norm (R252), as far as known. -/
def State.skipped (s : State) (step : Nat) : Bool := Sparse.get 0 s.silt.norms step == 2 ^ 32 + 1

/-- Late contributions that a step adds or, if it is skipped, discards (R342, R344). -/
def noteLate (step n : Nat) (skip : Bool) : Plan := fun s =>
  if n = 0 then []
  else if skip then [s.addF .COLL_LATE_DROPPED n, cutAdd step (fun c => { c with lateDrop := c.lateDrop + n })]
  else [s.addF .COLL_LATE_ADDED n, cutAdd step (fun c => { c with lateAdd := c.lateAdd + n })]

/-- Late contributions enter a step: they count at once where its norm is known, and with its norm otherwise. -/
def countLate (step n : Nat) : Plan := fun s =>
  if Sparse.get 0 s.silt.norms step = 0 then
    (if n = 0 then [] else [cutAdd step (fun c => { c with lateHeld := c.lateHeld + n })])
  else noteLate step n (s.skipped step) s

/-- Late chain segments that a skipped step would have added, and those of its own gradients held for the next, are
discarded (R342). -/
def dropLateChains (step : Nat) : Plan := fun s =>
  let gone : Nat × Nat × Nat → Bool := fun l => l.2.2 == step || l.2.2 == step + 1
  plans [fun _ => [.coll (fun c => { c with late := c.late.filter (fun l => !gone l) })],
    noteLate step (s.coll.late.filter gone).length true] s

/-- The late contributions that wait for a step's outcome are counted. -/
def settleLate (step : Nat) (skip : Bool) : Plan := fun s =>
  let n := (Sparse.get {} s.spring.cuts step : Cut).lateHeld
  if n = 0 then [] else cutAdd step (fun c => { c with lateHeld := 0 }) :: noteLate step n skip s

/-- n of a step's norm. -/
def State.normOf (s : State) (step : Nat) : Option Nat :=
  let x := Sparse.get 0 s.silt.norms step
  if x = 0 ∨ x = 2 ^ 32 + 1 then none else some (x - 1)

/-- The optimiser record of a table. -/
def State.tblOpt' (s : State) (t : Nat) : Nat := optOf s.opts t

/-- Bytes of a merge area in use: contributions and keys (R245). -/
def State.mergeBytes (s : State) (stack : Nat) : Nat :=
  let cs := s.silt.contribs.filter (fun c => c.stack == stack)
  cs.foldl (fun n c => n + 16 + 8 * c.pairs.length) 0 +
    32 * (cs.map (fun c => (c.merge, c.key))).eraseDups.length

/-! Pins (R85, R246). -/

/-- A contribution joins a merge, and pins its row's hot copy. -/
def addContrib (c : Contrib) : Plan := plans [
  fun _ => [.silt (fun x => { x with contribs := x.contribs ++ [c] })], repin (stackDie c.stack) c.key]

/-! Pushes (R218, R232, R239, R246, R342). -/

/-- A PUSH entry's fields (R384). -/
def pushEntry (key count origin flags fwd : Nat) (pairs : List (Nat × Nat)) : List Nat :=
  leBytes 8 key ++ leBytes 4 count ++ leBytes 2 origin ++ [flags, fwd] ++
    (pairs.map (fun p => leBytes 4 p.1 ++ leBytes 4 p.2)).flatten
def pushPairs (e : List Nat) : List (Nat × Nat) := (chunks 8 (e.drop 16)).map (fun b => (fieldOf b 0 4, fieldOf b 4 4))
def pushStack (e : List Nat) : Nat := bits (fieldOf e 14 1) 3 4

/-- A contribution is late: dropped, or carried into the next step's merge (R246, R342). -/
def latePush (stack step o : Nat) (c : Contrib) : Plan := fun s =>
  let now := s.get .BEAT_STEP_STEP
  if s.policy 2 (optClass o) 1 = 0 ∧ step + 1 = s.mergeStep stack ∧ !s.skipped step then
    addContrib { c with merge := step + 1, group := 1 } s
  else [s.addF .COLL_LATE_DROPPED 1, cutAdd now (fun k => { k with lateDrop := k.lateDrop + 1 })]

/-- A push arrives at the stack it is addressed to (R246). -/
def recvPush (step : Nat) (e : List Nat) : Plan := fun s =>
  let key := fieldOf e 0 8
  let stack := pushStack e
  let die := stackDie stack
  let flags := fieldOf e 14 1
  match s.table (keyTable key) with
  | none => []
  | some t =>
    let o := s.tblOpt' t
    let record : Bool → Plan := fun create s' =>
      let c : Contrib := ⟨stack, step, step, key, fieldOf e 12 2 * 2 + flags % 2, 2, fieldOf e 8 4, pushPairs e, create⟩
      let mine := s'.silt.contribs.filter (fun x => x.stack == stack)
      let need := 16 + 8 * c.pairs.length + (if mine.any (fun x => x.merge == step && x.key == key) then 0 else 32)
      if step < s'.mergeStep stack then latePush stack step o c s'
      else if s'.mergeBytes stack + need > s'.get .SILT_MERGE_SIZE stack * 65536 then [s'.addF .SILT_MERGE_USE_FULL 1 stack]
      else if mine.any (fun x => x.step == step && x.group == 2 && x.key == key && x.origin == c.origin) then
        [s'.addF .SILT_DISCARD_DUPLICATE 1 stack]
      else addContrib c s'
    let moved : Nat → Nat → List Nat := fun st fl => pushEntry key (fieldOf e 8 4) (fieldOf e 12 2) (putBits fl 3 4 st)
      (min 255 (fieldOf e 15 1 + 1)) (pushPairs e)
    let pass : Nat → Nat → Nat → List Upd := fun r st fl => [forwardEntry r 0x22 step (moved st fl)]
    if optKind o = 0 then [s.addF .SILT_DISCARD_FROZEN 1 stack]
    else if step > s.oldestStep stack + 1 then [s.addF .SILT_DISCARD_AHEAD 1 stack]
    else match s.resolve stack t key (flags.testBit 2) with
    | .bad none => noteWord 3 stack 2 4 s
    | .bad (some a) => planEach (linesOf a 128) (noteRead 4) s
    | .pending => [holdReq stack step true e]
    | .at _ => record false s
    | .absent => record false s
    | .absentOld =>
      s.addF .DRIFT_FWD_FORWARDED 1 stack :: pass (homeModule key s.jobN) stack (putBits flags 1 1 1)
    | .forward r st fromNew =>
      if fromNew && flags.testBit 1 then record true s
      else
        s.addF .DRIFT_FWD_FORWARDED 1 stack ::
        ((if fromNew then [s.addF .EMB_RESHARD_FWD_TO_OLD 1 die] else []) ++
          pass r st (if fromNew then putBits flags 2 1 1 else flags))

/-- The entries of a PUSH: each is as long as its table's dimension makes it (R384). -/
def pushEntries (s : State) : Nat → List Nat → List (List Nat)
  | 0, _ => []
  | n + 1, l =>
    if l.length < 16 then []
    else
      let d := match s.table (keyTable (fieldOf l 0 8)) with | some t => tblDim t | none => (l.length - 16) / 8
      l.take (16 + 8 * d) :: pushEntries s n (l.drop (16 + 8 * d))

/-- The entries of a PUSH frame arrive. -/
def recvPushes (b : GtBody) : Plan := plans [
  fun s => planEach (pushEntries s 560 b.payload) (recvPush b.step) s, sendForwards]

/-! Requests that waited (R212, R227, R256). -/

/-- A held or deferred request is served again. -/
def reserve (h : HeldReq) : Plan := if h.push then recvPush h.step h.entry else serveLookup h.step h.entry

/-- The requests held for a row are served, oldest first. -/
def releaseHeld (stack key : Nat) : Plan := fun s =>
  let mine : HeldReq → Bool := fun h => h.stack == stack && h.key == key
  plans [fun _ => [.rows (fun r => { r with held := r.held.filter (fun h => !mine h) })],
    planEach (s.rows.held.filter mine) reserve, sendForwards] s

/-- The deferred requests of a row are served in arrival order (R262). -/
def releaseDeferred (stack key : Nat) : Plan := fun s =>
  let mine : HeldReq → Bool := fun h => h.stack == stack && h.key == key
  plans [fun _ => [.rows (fun r => { r with deferred := r.deferred.filter (fun h => !mine h) })],
    planEach (s.rows.deferred.filter mine) reserve, sendForwards] s

/-! Records (R270, R274). -/

/-- A record header with SEQ, GEN and HCRC left to Spring (R273). -/
def recHeader (type flags rank len step : Nat) : List Nat :=
  [type, flags] ++ leBytes 2 rank ++ leBytes 4 len ++ leBytes 8 0 ++ leBytes 8 step ++ leBytes 4 0 ++ leBytes 4 0

/-- A stack passes a record to Spring. -/
def emitRecord (stack : Nat) (bs : List Nat) : Upd :=
  .spring (fun x =>
    { x with link := Sparse.set [] x.link stack (Sparse.get [] x.link stack ++ [.record bs.length (ofLe bs)]) })

/-- The header STEP of a row record: its step and the holder's stack. -/
def recStep (step stack : Nat) : Nat := step % 2 ^ 44 + stack * 2 ^ 44

/-- A ROW or ROW_IN record from a slot's bytes: HOT_DIRTY 0 and UPDATED 1 (R274). -/
def rowRecord (type rank stack step key : Nat) (slot : List Nat) : List Nat :=
  let hdr := putBits (putBits (ofLe (slot.take 8)) 45 1 0) 47 1 1
  recHeader type 0 rank (slot.length + 40) (recStep step stack) ++ leBytes 8 key ++ leBytes 8 hdr ++ slot.drop 8

/-! CLOSE and the norm (R247, R249, R252, R267). -/

/-- The contributions of a key in the order of R247. -/
def combineOrder (cs : List Contrib) : List Contrib :=
  let by' : Nat → List Contrib := fun g =>
    (cs.filter (fun c => c.group == g)).mergeSort (fun a b => a.origin ≤ b.origin)
  by' 0 ++ by' 1 ++ by' 2

/-- The combined gradient of a key (R247): hi of the pair, and the count. -/
def combine (cs : List Contrib) : List Nat × Nat :=
  match combineOrder cs with
  | [] => ([], 0)
  | c :: rest =>
    let ps := rest.foldl (fun acc x => (acc.zip x.pairs).map (fun p => fp32cAdd p.1 p.2)) c.pairs
    (ps.map (·.1), min (2 ^ 32 - 1) (rest.foldl (fun n x => n + x.count) c.count))

/-- A stack combines the contributions of a step's merge, which is then closed (R247, R249). -/
def combineMerge (stack step : Nat) : Plan := fun s =>
  let cs := s.silt.contribs.filter (fun c => c.stack == stack && c.merge == step)
  let keys := (cs.map (·.key)).eraseDups
  let combs : List Comb := keys.map (fun k =>
    let mine := cs.filter (fun c => c.key == k)
    let (g, n) := combine mine
    ⟨stack, step, k, n, g, false, mine.any (·.create), 0⟩)
  let gs := (combs.map (fun c =>
    match s.table (keyTable c.key) with
    | some t => let o := s.tblOpt' t
      if optFlag o 3 then [] else c.g.map (condition o c.count)
    | none => [])).flatten
  let p := stackPartial gs
  let carried := (cs.filter (fun c => c.group == 1)).length
  [.silt (fun x => { x with
      combs := x.combs ++ combs
      openStep := Sparse.set 0 x.openStep stack (step + 1)
      closed := Sparse.set 0 x.closed stack (step + 1) }),
   setF .SILT_NORM_PART_HI p.1 stack, setF .SILT_NORM_PART_LO p.2 stack,
   setF .SILT_MERGE_STATS_KEYS keys.length stack, setF .SILT_MERGE_STATS_CONTRIB (min cs.length (2 ^ 32 - 1)) stack,
   setF .SILT_STATUS_PHASE 3 stack] ++ countLate step carried s

/-- A stack gives up a step's contributions and combined gradients: those of its merge, and those of its gradients that
a later merge carries where `both` (R252, R268). Late contributions that no CLOSE has added count as dropped (R344), its
copies are unpinned and the requests held for its rows served. -/
def dropStep (stack step : Nat) (both : Bool) : Plan := fun s =>
  let gone : Contrib → Bool := fun c => c.stack == stack && (c.merge == step || (both && c.step == step))
  let late := s.silt.contribs.filter (fun c =>
    gone c && c.group == 1 && Sparse.get 0 s.silt.closed stack < c.merge + 1)
  let rows := s.silt.combs.filter (fun c => c.stack == stack && c.step == step && c.st == 0)
  let keys := (rows.map (·.key) ++ (s.silt.contribs.filter gone).map (·.key)).eraseDups
  plans [fun _ => [.silt (fun x => { x with
      contribs := x.contribs.filter (fun c => !gone c)
      combs := x.combs.filter (fun c => !(c.stack == stack && c.step == step && c.st == 0)) })],
    noteLate step late.length true,
    planEach keys (fun k => plans [repin (stackDie stack) k, releaseHeld stack k])] s

/-- A stack closes its merge of a step. Where the step's global sum has already come and is not finite, what the merge holds
goes with it (R252). -/
def closeMerge (stack step : Nat) : Plan := plans [combineMerge stack step,
  planIf (fun s => s.skipped step) (dropStep stack step true)]

/-- A stack passes its notice for a step (R252, R267). -/
def passNotice (stack step : Nat) (skip : Bool) (count : Nat) : Upd :=
  .spring (fun x =>
    { x with link := Sparse.set [] x.link stack (Sparse.get [] x.link stack ++ [.notice step skip count]) })

/-- Whether a step still has rows to apply at a stack. -/
def State.rowsLeft (s : State) (stack step : Nat) : Bool :=
  s.silt.combs.any (fun c => c.stack == stack && c.step == step && c.st != 2)

/-- A step ends at a stack once its LAST slice has no row left (R267). -/
def endStep (stack : Nat) : Plan := fun s =>
  let last := Sparse.get 0 s.silt.lastAt stack
  if last = 0 ∨ Sparse.get 0 s.silt.ended stack ≥ last then []
  else
    let step := last - 1
    if s.rowsLeft stack step then []
    else
      [.silt (fun x => { x with
          ended := Sparse.set 0 x.ended stack last
          contribs := x.contribs.filter (fun c => !(c.stack == stack && c.merge == step))
          combs := x.combs.filter (fun c => !(c.stack == stack && c.step == step))
          passed := Sparse.set 0 x.passed stack 0 }),
       setF .SILT_STATUS_PHASE 5 stack,
       passNotice stack step (s.skipped step) (Sparse.get 0 s.silt.passed stack)]

/-- The global sum of a step reaches the 16 engines (R251, R252, R340). -/
def deliverNorm (step hi lo : Nat) : Plan := fun s =>
  let _ := lo
  let bad := !fFinite hi
  let n := fsqrt hi
  plans [fun _ => [.silt (fun x => { x with norms :=
        (Sparse.set 0 x.norms step (if bad then 2 ^ 32 + 1 else n + 1)).filter (fun p => step ≤ p.1 + 2) }),
      cutAdd step (fun c => { c with gHi := hi, norm := n })],
    settleLate step bad, if bad then dropLateChains step else fun _ => [],
    planEach (List.range 16) (fun st => plans [
      fun s' => [setF .SILT_NORM_G_HI hi st, setF .SILT_NORM_NORM n st, setF .SILT_NORM_STEP_STEP step st,
        setF .SILT_NORM_STEP_VALID 1 st, setF .SILT_NORM_STEP_NONFINITE (b2n bad) st] ++
        (if bad then [s'.addF .SILT_NORM_STEP_SKIPPED 1 st] else []),
      if bad then dropStep st step true else fun _ => []]),
    if bad then postEvent 0x15 3 0 0 step hi else fun _ => []] s

/-! The lanes (R243, R244, R253, R256, R258, R85). -/

/-- The APPLY slice that a stack runs and still dispatches rows for. -/
def State.applying (s : State) (stack : Nat) : Bool := Sparse.get 0 s.silt.quota stack > 0

/-- One row of a slice is done: it wrote its header line, or it was not applied. -/
def rowDone (stack step key : Nat) : Plan := plans [fun _ =>
  [.silt (fun x => { x with combs := x.combs.map (fun c =>
      if c.stack == stack && c.step == step && c.key == key && c.st != 2 then { c with st := 2 } else c) }),
   unitOpDone 2 stack], repin (stackDie stack) key]

/-- The new slot, and the new body of a hot copy, that an update of a row gives (R240 to R244, R85). -/
def State.newSlot (s : State) (stack t key step count : Nat) (g : List Nat) (place : Option Nat) : List Nat × Bool :=
  let o := s.tblOpt' t
  let kind := optKind o
  let bc := Sparse.get (0, 0) s.silt.bias (tblOpt t)
  let cf := match s.normOf step with | some n => clipFactor o n | none => none
  match place with
  | none =>
    let x := updateRow t o count cf bc g (freshRow t o)
    let (pre, body, bad) := encodeBody t s.seed key step x.w
    (buildSlot t kind s.seed key step (mkHdr step false bad true) pre body x, bad)
  | some p =>
    let dpa := placeDpa stack t key p
    let slot := s.bytesAt dpa (tblSlot t)
    let hot := s.hotFind (stackDie stack) key
    let old := match hot with
      | some k => s.bytesAt (s.hotCopy (stackDie stack) k) (bodyLen t)
      | none => (slot.drop (bodyOff t)).take (bodyLen t)
    let x := updateRow t o count cf bc g (decodeRow t kind slot old)
    let (pre, body, bad) := encodeBody t s.seed key step x.w
    if hot.isSome then
      let kept := (slot.drop 16).take (bodyBytes (tblFmt t) (tblDim t))
      (buildSlot t kind s.seed key step (mkHdr step true bad true) (ofLe ((slot.drop 12).take 4)) kept x ++
        (if affine (tblFmt t) then leBytes 4 pre else []) ++ body, bad)
    else (buildSlot t kind s.seed key step (mkHdr step false bad true) pre body x, bad)

/-- A lane dispatches a row of the apply list (R253): the log entry is written and the update computed. A TORN row, a
stale stamp, a slot that cannot be read, or a row that has no place is not applied. An engine held for ring space dispatches
nothing (R82), and its slice does not retire before Spring has its records. `wait` is the sclk that lanes waited for a log
entry. -/
def planDispatch (stack lane key wait : Nat) : Plan := fun s =>
  match s.silt.combs.find? (fun c => c.stack == stack && c.key == key && c.st == 0) with
  | none => []
  | some c =>
    let free := (s.rows.log.filter (fun l => l.stack == stack && l.lane == lane)).length < 16
    let busy := s.rows.log.any (fun l => l.stack == stack && l.key == key)
    let full := Sparse.get 0 s.spring.stuck stack = 1
    if stack ≥ 16 ∨ lane ≥ 32 ∨ !free ∨ busy ∨ full ∨ !s.issuing ∨ !s.applying stack ∨ (s.normOf c.step).isNone then []
    else
      let take : Upd := .silt (fun x => { x with
        quota := Sparse.set 0 x.quota stack (Sparse.get 0 x.quota stack - 1) })
      s.addF .SILT_LANES_LOG_WAIT wait stack ::
      let skip : Plan := plans [rowDone stack c.step key, releaseHeld stack key, endStep stack]
      match s.table (keyTable key) with
      | none => take :: skip s
      | some t =>
        let go : Option Nat → Nat → Plan := fun from' p s' =>
          let w := s'.newSlot stack t key c.step c.count c.g from'
          [.rows (fun r => { r with log := r.log ++
              [⟨stack, lane, key, placeDpa stack t key p, c.step, p, from'.isNone⟩] }),
           .silt (fun x => { x with
              writing := Sparse.set [] x.writing (stack * 2 ^ 64 + key) w.1
              combs := x.combs.map (fun y =>
                if y.stack == stack && y.step == c.step && y.key == key then { y with st := 1 } else y) })]
        let create : Plan → Plan := fun note s' =>
          match s'.newPlace stack t key true with
          | some p => plans [go none p, note] s'
          | none => plans [noteSetFull stack t key, count .EMB_TABLE_EXCL_FULL 1 (stackDie stack * 4096 + keyTable key), skip] s'
        if (s.get .ERR_STATUS_STATE_LOST).testBit stack ∨ s.tornRow stack key ∨ Sparse.get 0 s.rows.listBad (2 * stack) = 2 then
          plans [fun _ => [take], readList stack 0, count .SILT_TORN_UPD_DROPPED 1 stack, skip] s
        else match s.resolve stack t key true with
        | .at p =>
          let dpa := placeDpa stack t key p
          let lines := linesOf dpa (tblSlot t)
          let h := slotHdr s dpa
          let die := stackDie stack
          let lostCopy := (s.hotFind die key).filter (fun k => s.hotBad die k && hotDirty (s.hotWord die k))
          if lostCopy.isSome then
            plans [fun _ => [take], planEach (linesOf (s.hotCopy die (lostCopy.getD 0)) 256) (noteRead 5),
              dropHot die (lostCopy.getD 0), addTorn stack key dpa, skip] s
          else if lines.any s.lineBad then
            plans [fun _ => [take], planEach lines (noteRead 3), addTorn stack key dpa, skip] s
          else if s.sweepTears stack dpa then
            plans [fun _ => [take], addTorn stack key dpa, count .SILT_TORN_UPD_DROPPED 1 stack, skip] s
          else if hdrUpdated h ∧ c.step ≤ hdrStamp h then
            plans [fun _ => [take], count .DRIFT_STATS_DUP_DISCARD 1 stack, skip] s
          else plans [fun _ => [take], planEach lines (noteRead 3), go (some p) p, sketchBump stack key] s
        | .absent => plans [fun _ => [take], create (fun _ => [])] s
        | .forward _ _ true =>
          plans [fun _ => [take], if c.create then create (count .EMB_RESHARD_CREATED_AT_NEW 1 (stackDie stack)) else skip] s
        | .pending => []
        | .bad (some a) => plans [fun _ => [take], planEach (linesOf a 128) (noteRead 4), skip] s
        | .bad none => plans [fun _ => [take], noteWord 3 stack 2 4, skip] s
        | _ => plans [fun _ => [take], skip] s

/-- A DRIFT_FWD message: the combined gradient of an update, marked as a handoff or as EMITTED (R228, R248, R383). -/
def driftFwd (key step count stack src : Nat) (handoff : Bool) (g : List Nat) : GtBody :=
  { op := 0x2E, step := step, arg0 := key, arg1 := stack + src * 16 + b2n handoff * 2 ^ 24
    payload := leBytes 4 count ++ leBytes 4 0 ++ (g.map (leBytes 4)).flatten }

/-- The new body of a hot row returns to the embedding unit, which writes it into the copy (R85). -/
def hotWrite (die key : Nat) (body : List Nat) : Plan := fun s =>
  match s.hotFind die key with
  | some k => plans [writeMem (s.hotCopy die k) body, setHotWord die k (putBits (s.hotWord die k) 1 1 1)] s
  | none => []

/-- A row's slot is written in two parts (R258): every line but the header's, then that line. -/
def writeSlot (dpa : Nat) (slot : List Nat) : Plan :=
  let head := dpa / 64 * 64 + 64 - dpa
  plans [writeMem (dpa + head) (slot.drop head), writeMem dpa (slot.take head)]

/-- The header line of an update is written (R258): the row is visible, its record passes to Spring, the log entry
clears, a LEAVING row's update is forwarded (R227), and what waited for the row goes on. -/
def planUpdateDone (stack key : Nat) : Plan := fun s =>
  match s.rows.log.find? (fun l => l.stack == stack && l.key == key) with
  | none => []
  | some l =>
    match s.table (keyTable key) with
    | none => []
    | some t =>
      let all := Sparse.get [] s.silt.writing (stack * 2 ^ 64 + key)
      let slot := all.take (tblSlot t)
      let hot := all.drop (tblSlot t)
      let c := s.silt.combs.find? (fun c => c.stack == stack && c.key == key && c.st == 1)
      let record := rowRecord 1 s.rank stack l.step key
        (if hot.isEmpty then slot
         else slot.take (bodyOff t) ++ hot ++ slot.drop (bodyOff t + bodyLen t))
      let move := s.rows.drifts.find? (fun d => d.stack == stack && d.key == key && (d.stage == 1 || d.stage == 2))
      plans [writeSlot l.dpa slot,
        if l.create then plans [showRow stack t key l.place, count .SILT_ROWS_CREATED 1 stack] else fun _ => [],
        if hot.isEmpty then fun _ => [] else hotWrite (stackDie stack) key hot,
        fun s' =>
          [.rows (fun r => { r with log := r.log.filter (fun x => !(x.stack == stack && x.key == key)) }),
           .silt (fun x => { x with
              writing := Sparse.set [] x.writing (stack * 2 ^ 64 + key) []
              passed := Sparse.set 0 x.passed stack (Sparse.get 0 x.passed stack + 1) }),
           s'.addF .SILT_ROWS_APPLIED 1 stack, emitRecord stack record] ++
          (if (slot.getD 5 0).testBit 6 then [s'.addF .SILT_ROWS_NONFINITE 1 stack] else []),
        loadNote stack (keyTable key) 1,
        match move, c with
        | some d, some c => toRank d.rank 0 (driftFwd key l.step c.count d.dest stack false c.g)
        | _, _ => fun _ => [],
        rowDone stack l.step key, releaseHeld stack key, endStep stack] s

/-! Refills (R262). -/

/-- A refill record of a row installs its state, or is discarded (R262). `slot` is the record's slot. -/
def planRefillRow (stack key : Nat) (slot : List Nat) : Plan := plans [readList stack 0, fun s =>
  match s.table (keyTable key) with
  | none => []
  | some t =>
    let stamp := hdrStamp (ofLe (slot.take 8))
    let new := leBytes 8 (mkHdr stamp false ((slot.getD 5 0).testBit 6) true) ++ slot.drop 8
    let lost := (s.get .ERR_STATUS_STATE_LOST).testBit stack
    let home := homeModule key s.jobN = s.rank ∧ homeStack key = stack
    let untear : Plan := fun _ => [.rows (fun r => { r with
      torn := r.torn.filter (fun x => !(x.stack == stack && x.key == key)) })]
    let done : Plan := plans [untear, fun s' => match s'.hotFind (stackDie stack) key with
      | some k => dropHot (stackDie stack) k s'
      | none => [], count .SILT_REFILL_INSTALLED 1 stack, releaseDeferred stack key]
    let discard : Plan := count .SILT_REFILL_DISCARDED 1 stack
    let place : Plan := fun s' =>
      match s'.newPlace stack t key (decide home) with
      | some p => plans [writeSlot (placeDpa stack t key p) new, showRow stack t key p, done] s'
      | none => plans [noteSetFull stack t key, discard] s'
    match s.resolve stack t key true with
    | .bad none => plans [noteWord 3 stack 2 4, discard] s
    | .bad (some a) => plans [planEach (linesOf a 128) (noteRead 4), discard] s
    | .pending => discard s
    | .at p =>
      let dpa := placeDpa stack t key p
      let h := slotHdr s dpa
      if s.tornRow stack key ∨ lost then plans [writeSlot dpa new, done] s
      else if (linesOf dpa 8).any s.lineBad ∨ s.sweepTears stack dpa then
        plans [planEach (linesOf dpa 8) (noteRead 3), addTorn stack key dpa, writeSlot dpa new, done] s
      else if !hdrUpdated h ∨ hdrStamp h < stamp then plans [writeSlot dpa new, done] s
      else discard s
    | .absent => place s
    | .absentOld => place s
    | .forward _ _ fromNew =>
      if locKind (s.dmLoc stack key) = kMoved ∨ locKind (s.dmLoc stack key) = kTombstone then discard s
      else if fromNew ∨ ¬ home then place s else discard s]

/-! Work items (R267, R268). -/

/-- The item that the next slice of a stack names. -/
def State.siltItem (s : State) (stack : Nat) : Option (Slice × Nat) :=
  (s.nextSlice 2 stack).map (fun x => (x, s.get .SILT_WORK_ITEM (stack * 64 + x.target % 64)))

/-- Whether the stack has closed a step, and whether a LAST APPLY of it has issued. -/
def State.isClosed (s : State) (stack step : Nat) : Bool := Sparse.get 0 s.silt.closed stack ≥ step + 1
def State.hasLast (s : State) (stack step : Nat) : Bool := Sparse.get 0 s.silt.lastAt stack ≥ step + 1

/-- CLOSE (R267). -/
def planClose (stack : Nat) : Plan := fun s =>
  let step := s.get .BEAT_STEP_STEP
  match s.siltItem stack with
  | some (_, item) =>
    if bits item 0 4 = 0 ∧ !s.isClosed stack step then
      plans [startSlice 2 stack, closeMerge stack step, fun _ => [endSlice 2 stack 0]] s
    else []
  | none => []

/-- APPLY (R267): it holds until the global norm of the step has arrived, then dispatches rows; LAST takes all that are
left, and ends the step at the stack when they are done. -/
def planApply (stack : Nat) : Plan := fun s =>
  let step := s.get .BEAT_STEP_STEP
  match s.siltItem stack with
  | some (_, item) =>
    let last := item.testBit 4
    let known := (s.normOf step).isSome || s.skipped step
    if bits item 0 4 ≠ 1 ∨ !known ∨ (last ∧ s.hasLast stack step) then []
    else
      let left := (s.silt.combs.filter (fun c => c.stack == stack && c.step == step && c.st == 0)).length
      let n := if last then left else min left (bits item 16 16 * 1024)
      plans [startSlice 2 stack, fun _ =>
        [.silt (fun x => { x with
          quota := Sparse.set 0 x.quota stack n
          lastAt := if last then Sparse.set 0 x.lastAt stack (step + 1) else x.lastAt }),
         setF .SILT_STATUS_PHASE 4 stack, endSlice 2 stack n], endStep stack] s
  | none => []

/-- An item with OP 2 to 15, or a second CLOSE or LAST of the step, issues an empty slice (R267). -/
def planSiltEmpty (stack : Nat) : Plan := fun s =>
  let step := s.get .BEAT_STEP_STEP
  match s.siltItem stack with
  | some (_, item) =>
    let op := bits item 0 4
    if op ≥ 2 ∨ (op = 0 ∧ s.isClosed stack step) ∨ (op = 1 ∧ item.testBit 4 ∧ s.hasLast stack step) then
      plans [startSlice 2 stack, fun _ => [endSlice 2 stack 0]] s
    else []
  | none => []

/-- At the boundary that opens the step after `step`: a stack that ran no CLOSE of it has the partial (+0, +0), and its merge
is over; one that ran no LAST APPLY of it discards what it holds of it and passes a notice with no records (R268). -/
def planUnscheduled (stack step : Nat) : Plan := plans [
  planIf (fun s => !s.isClosed stack step) (plans [dropStep stack step false, fun _ =>
    [.silt (fun x => { x with
        openStep := Sparse.set 0 x.openStep stack (step + 1), closed := Sparse.set 0 x.closed stack (step + 1) }),
      setF .SILT_NORM_PART_HI 0 stack, setF .SILT_NORM_PART_LO 0 stack]]),
  planIf (fun s => !s.hasLast stack step) (plans [dropStep stack step false, fun s =>
    [.silt (fun x => { x with
        lastAt := Sparse.set 0 x.lastAt stack (step + 1), ended := Sparse.set 0 x.ended stack (step + 1)
        passed := Sparse.set 0 x.passed stack 0 }),
      s.addF .SILT_MERGE_USE_UNSCHEDULED 1 stack, passNotice stack step (s.skipped step) 0]])]

/-- A stack's sweep has read every row that the reset found: those whose header still has HOT_DIRTY are TORN (R260). -/
def planSweepDone (stack : Nat) : Plan := fun s =>
  let mine : TornRow → Bool := fun r => r.stack == stack
  if s.get .SILT_TORN_SWEEP_BUSY stack = 0 then []
  else plans [fun _ => [setF .SILT_TORN_SWEEP_BUSY 0 stack, .rows (fun r => { r with sweep := r.sweep.filter (fun x => !mine x) })],
    planEach ((s.rows.sweep.filter mine).filter (fun r => hdrDirty (slotHdr s r.dpa))) (fun r =>
      addTorn r.stack r.key r.dpa)] s

/-- The merge area of a stack that R245 allows, of a base and size in 64 KiB units. -/
def State.legalMerge (s : State) (stack base size : Nat) : Nat :=
  let lo := base * 65536
  let (rb, rs) := s.region 13 stack
  let inside := fun a => decide (stack * 0x1000000000 ≤ a ∧ a < (stack + 1) * 0x1000000000 ∧
    rb * 65536 ≤ canonDpa a ∧ canonDpa a < (rb + rs) * 65536)
  if !inside lo then 0
  else
    let ends := [(stack + 1) * 0x1000000000, (rb + rs) * 65536] ++
      (s.img.sec 9).filterMap (fun t =>
        let a := tblDpa stack t
        if a + regionLen t ≤ lo then none else some (max a lo))
    min size ((minOf 0 ends - lo) / 65536)

/-- SILT_APPLY (R267). -/
def execSiltApply (stack : Nat) := answer (planApply stack)
/-- SILT_EMPTY_ITEM (R267). -/
def execSiltEmptyItem (stack : Nat) := answer (planSiltEmpty stack)
/-- SILT_LANE_DISPATCH (R253). -/
def execSiltLaneDispatch (stack lane key wait : Nat) := answer (planDispatch stack lane key wait)
/-- SILT_UPDATE_DONE (R258). -/
def execSiltUpdateDone (stack key : Nat) := answer (planUpdateDone stack key)
/-- TORN_SWEEP_DONE (R260): a stack's sweep ends. -/
def execTornSweepDone (stack : Nat) := answer (planSweepDone stack)
/-- SILT_COMMIT (R269). -/
def execSiltCommit (stack : Nat) := answer (planIf (fun _ => stack < 16) (fun _ => [setF .SILT_STATUS_COMMIT_PENDING 1 stack]))

end Sys2Proof.Machine
end

