-- ==== Sys2Proof/Machine/Emb.lean ====
section
/-!
DEFINITION. The embedding units' work items: the Index Coalescer (R206 to R209, R406), lookups (R210, R213), pooling
(R215), row gradients and Basins (R216, R217), and pushes (R218, R349).
-/
namespace Sys2Proof.Machine

/-! Ingest records (R404, R406). -/

/-- Sections of a record from its bytes: KIND, TABLE, COUNT items of 8 B or 4 B, and the weights of a WEIGHTED one. -/
def gsrSections : Nat → List Nat → List (Nat × Nat × List Nat × List Nat)
  | 0, _ => []
  | n + 1, l =>
    let kind := fieldOf l 0 1
    let c := fieldOf l 4 4
    let data := l.drop 8
    let wide := kind ≤ 3
    let items := (List.range c).map (fun i => fieldOf data (i * (if wide then 8 else 4)) (if wide then 8 else 4))
    let ws := if kind = 2 then (List.range c).map (fun i => fieldOf data (8 * c + 4 * i) 4) else []
    let len := (if wide then 8 * c else 4 * c) + (if kind = 2 then 4 * c else 0)
    (kind, fieldOf l 2 2, items, ws) :: gsrSections n (data.drop (roundUp len 8))

/-- The record at the front of an ingest queue, with its tokens, if all of them have come. -/
def State.frontRecord (s : State) (q : Nat) : Option (List Nat × Nat) :=
  match (s.queue q).buf with
  | [] => none
  | t :: _ =>
    let n := max 1 ((bits t.toNat 32 32 + 255) / 256)
    if (s.queue q).buf.length < n then none
    else some ((((s.queue q).buf.take n).map (fun x => leBytes 256 x.toNat)).flatten, n)

/-- A micro-batch's step and slot as one number that orders them. -/
def mbOrder (step slot : Nat) : Nat := step * 8 + slot

def isMb (die slot step : Nat) (m : EmbMb) : Bool := m.die == die && m.slot == slot && m.step == step

/-- The micro-batch at a die's Coalescer. -/
def State.embMb (s : State) (die slot step : Nat) : EmbMb :=
  (s.emb.mbs.find? (isMb die slot step)).getD { die, slot, step }

def setMb (m : EmbMb) : Upd :=
  .emb (fun x => { x with mbs := x.mbs.filter (fun y => !isMb m.die m.slot m.step y) ++ [m] })

/-- Occurrences of the records of a micro-batch in the sample order of the queue: table and index (R207). -/
def occurrences (recs : List GsrRec) : List (Nat × Nat) :=
  (recs.map (fun r => (r.secs.map (fun x => if x.1 ≤ 3 then x.2.2.1.map (fun i => (x.2.1, i)) else [])).flatten)).flatten

/-- A micro-batch is dropped for ingest (R406), and counted once, whichever dies and passes find it late. -/
def lateMb (slot step : Nat) : Plan := fun s =>
  (if s.var .mbLate slot = step + 1 then [] else [.var .mbLate slot (step + 1), s.addF .XPORT_GSR_DROP_LATE_MB 1]) ++
  (if slot < 8 ∧ s.var .mbDropNext slot = 0 then [.var .mbDropNext slot 5] else [])

/-- The Coalescer takes records of a micro-batch from its queue until it has `want` occurrences or LAST (R406). `fuel`
bounds the records looked at. -/
def intake (die slot step q want : Nat) : Nat → Plan
  | 0 => fun _ => []
  | fuel + 1 => fun s =>
    let m := s.embMb die slot step
    if m.last ∨ (occurrences m.recs).length ≥ want then []
    else match s.frontRecord q with
    | none => lateMb slot step s
    | some (bs, n) =>
      let w := fieldOf bs 8 8
      let o := mbOrder (bits w 0 44) (bits w 44 3)
      let take : Plan := planEach (List.range n) (fun _ => takeToken q)
      if o < mbOrder step slot then
        plans [take, count .XPORT_GSR_DROP_STALE 1, intake die slot step q want fuel] s
      else if o > mbOrder step slot then lateMb slot step s
      else
        let r : GsrRec := ⟨fieldOf bs 20 4, gsrSections (min 64 (fieldOf bs 18 2)) (bs.drop 32)⟩
        plans [take, fun _ => [setMb { m with recs := m.recs ++ [r], last := fieldOf bs 2 2 % 2 == 1 }],
          intake die slot step q want fuel] s

/-! The Coalescer (R207 to R209). -/

/-- What an occurrence is to a die: a key, or dropped as unknown or invalid (R207, R408). -/
inductive Occ where
  | key (k : Nat)
  | unknown
  | invalid (table : Nat)
  deriving DecidableEq, Repr

def State.occ (s : State) (die : Nat) (p : Nat × Nat) : Occ :=
  match s.table p.1 with
  | none => .unknown
  | some t => if tblDie t ≠ die then .unknown else if p.2 ≥ tblRows t ∨ p.2 ≥ 2 ^ 48 then .invalid p.1
    else .key (p.1 * 2 ^ 48 + p.2)

/-- Keys with their occurrence counts, ascending. -/
def State.keyCounts (s : State) (die : Nat) (os : List (Nat × Nat)) : SMap Nat :=
  os.foldl (fun m p => match s.occ die p with
    | .key k => Sparse.set 0 m k (Sparse.get 0 m k + 1)
    | _ => m) []

/-- Sub-batches hold 2^20 keys (R208). -/
def subKeys (m : SMap Nat) (j : Nat) : SMap Nat := (m.drop (j * 2 ^ 20)).take (2 ^ 20)

def isSub (die slot step sub : Nat) (b : SubBatch) : Bool :=
  b.die == die && b.slot == slot && b.step == step && b.sub == sub

def State.subBatch (s : State) (die slot step sub : Nat) : Option SubBatch := s.emb.subs.find? (isSub die slot step sub)

def setSub (b : SubBatch) : Upd :=
  .emb (fun x => { x with subs := x.subs.filter (fun y => !isSub b.die b.slot b.step b.sub y) ++ [b] })

/-- The item that a unit slice of a die names (R206). -/
def State.embWork (s : State) (die : Nat) (x : Slice) : Nat := s.get .EMB_WORK_ITEM (die * 256 + x.target % 256)

/-- Sub-batches for which the schedule gives a slot's micro-batch a COALESCE item on a die (R208). -/
def State.plannedSubs (s : State) (die slot : Nat) : List Nat :=
  ((s.img.sched.filter (fun b => b.1 == 1 && b.2.1 == die)).map (fun b =>
    (b.2.2.filter (fun e => bits e 35 4 == slot)).filterMap (fun e =>
      let w := s.get .EMB_WORK_ITEM (die * 256 + bits e 20 15 % 256)
      if bits w 0 4 = 0 then some (bits w 36 4) else none))).flatten.eraseDups

/-- Keys dropped for want of a COALESCE item, counted when the pass of sub-batch `j` ends: those of rank 2^24 and above
with the highest planned sub-batch, and those of each unplanned one with the planned one below it (R208). -/
def overflowKeys (planned : List Nat) (keys j : Nat) : Nat :=
  let size := fun k => min keys ((k + 1) * 2 ^ 20) - k * 2 ^ 20
  let owner := fun k => (planned.filter (· < k)).foldl max (minOf j planned)
  let gaps := ((List.range 16).filter (fun k => !planned.contains k && owner k == j)).map size
  gaps.foldl (· + ·) 0 + (if planned.all (· ≤ j) then keys - 2 ^ 24 else 0)

/-- The distinct keys of a micro-batch that a die's Coalescer has seen. -/
def State.mbKeys (s : State) (die slot step : Nat) : SMap Nat := s.keyCounts die (occurrences (s.embMb die slot step).recs)

/-- What the Coalescer has seen since of abandoned sub-batches' keys counts in OVERFLOW (R209). -/
def countAbandoned (die slot step : Nat) : Plan := fun s =>
  let keys := s.mbKeys die slot step
  planEach (s.emb.subs.filter (fun b => b.die == die && b.slot == slot && b.step == step && b.dropped)) (fun b s' =>
    let n := (subKeys keys b.sub).length
    [setSub { b with counted := n }, s'.addF .EMB_COALESCE_OVERFLOW (n - b.counted) die]) s

/-- A COALESCE slice (R207 to R209): it takes in 16 occurrences per clk from where it starts through clk 4,045, and the
pass completes in the slice that takes in the last of them. A pass that a FETCH abandoned does not begin again. -/
def coalesceSlice (die : Nat) (x : Slice) (item : Nat) : Plan := fun s =>
  let step := s.get .BEAT_STEP_STEP
  let sub := bits item 36 4
  let q := bits item 8 13
  let b := (s.subBatch die x.slot step sub).getD { die, slot := x.slot, step, sub }
  let budget := 16 * (4046 - max 4 (s.get .BEAT_STATUS_PHASE))
  if b.done ∨ b.dropped then []
  else plans [intake die x.slot step q (b.pos + budget) (s.queue q).buf.length.succ, fun s' =>
    let m := s'.embMb die x.slot step
    let all := occurrences m.recs
    let pos := min (b.pos + budget) all.length
    let new := (all.drop b.pos).take (pos - b.pos)
    let done := m.last && pos == all.length
    let keys := if done then s'.keyCounts die all else []
    let mine := subKeys keys sub
    let bad := (new.filter (fun p => s'.occ die p == .unknown)).length
    plans [fun _ => [setSub { b with pos := pos, done := done, keys := mine.map (fun p => (p.1, min p.2 (2 ^ 32 - 1))) }],
      if sub = 0 then plans [count .EMB_COALESCE_UNKNOWN bad die,
          planEach new (fun p s2 => match s2.occ die p with
            | .invalid t => [s2.addF .EMB_TABLE_EXCL_INVALID 1 (die * 4096 + t)]
            | _ => [])]
        else fun _ => [],
      if done then fun s2 =>
          [s2.addF .EMB_COALESCE_SAT (mine.filter (fun p => p.2 > 2 ^ 32 - 1)).length die,
           s2.addF .EMB_COALESCE_OVERFLOW (overflowKeys (s2.plannedSubs die x.slot) keys.length sub) die,
           setF .EMB_STATUS_LAST_SUBBATCHES (min 16 ((keys.length + 2 ^ 20 - 1) / 2 ^ 20)) die]
        else fun _ => [], countAbandoned die x.slot step] s'] s

/-! Work items (R206). -/

/-- The slice a die's unit runs, or the next it issues, with its item. -/
def State.embSlice (s : State) (die : Nat) : Option (Slice × Nat) :=
  match s.curSlice 1 die with
  | some x => some (x, s.embWork die x)
  | none => (s.nextSlice 1 die).map (fun x => (x, s.embWork die x))

/-- A work item of one operation issues and runs. -/
def embRow (die op : Nat) (ok : State → Slice → Nat → Bool) (f : Slice → Nat → Plan) : Plan := fun s =>
  match s.embSlice die with
  | some (x, item) =>
    if die < 2 ∧ bits item 0 4 = op ∧ ok s x item then
      plans [if x.st = 0 then startSlice 1 die else fun _ => [], f x item] s
    else []
  | none => []

/-- A work item whose whole effect is one plan: the slice has then issued all its work. -/
def embWhole (die op : Nat) (ok : State → Slice → Nat → Bool) (f : Slice → Nat → Plan) : Plan :=
  embRow die op ok (fun x item => plans [f x item, fun _ => [endSlice 1 die 0]])

/-- Whether a micro-batch of `n` distinct keys has sub-batch `j` (R208). DESIGN CHOICE (notes/assumptions/99.md): sub-batch 0
exists also where the micro-batch has no key, so that its bags, which are empty then, are pooled (R215). -/
def subOf (n j : Nat) : Bool := j == 0 || decide (j * 2 ^ 20 < n)

/-- The item's sub-batch exists for the micro-batch, and its pass has completed. -/
def State.hasSub (s : State) (die : Nat) (x : Slice) (item : Nat) : Bool :=
  match s.subBatch die x.slot (s.get .BEAT_STEP_STEP) (bits item 36 4) with
  | some b => b.done && subOf (s.mbKeys die x.slot b.step).length b.sub
  | none => false

/-- The item's sub-batch does not exist for the micro-batch (R206, R208, R209): it has no keys of that rank, its pass was
abandoned, or, for an item other than FETCH, no pass of it has begun. -/
def State.noSub (s : State) (die : Nat) (x : Slice) (item : Nat) : Bool :=
  let step := s.get .BEAT_STEP_STEP
  let j := bits item 36 4
  let m := s.embMb die x.slot step
  match s.subBatch die x.slot step j with
  | some b => b.dropped || (m.last && b.done && !subOf (s.mbKeys die x.slot step).length j)
  | none => bits item 0 4 != 1 || (m.last && !subOf (s.mbKeys die x.slot step).length j)

/-- A table of a group. -/
def State.inGroup (s : State) (key group : Nat) : Bool :=
  match s.table (keyTable key) with
  | some t => tblGroup t == group
  | none => false

/-- Where a key is asked for: a CACHED entry of the requester's slice, else its home (R210). -/
def State.aimAt (s : State) (key : Nat) : Nat × Nat :=
  let l := s.dmLoc (homeStack key) key
  if locKind l = kCached then (locRank l, locStack l) else (homeModule key s.jobN, homeStack key)

/-- A request sent on a CACHED entry refreshes its AGE (R230). -/
def refreshAge (key : Nat) : Plan := fun s =>
  let l := s.dmLoc (homeStack key) key
  if locKind l = kCached then
    dmPlace (homeStack key) key (mkLoc kCached (locRank l) (locStack l) (s.get .BEAT_COUNT_COUNT)) s
  else []

/-- A unit's traffic for one rank: frames, and an end marker to another module (R349). -/
def sendAll (rank op step which : Nat) (es : List (List Nat)) : Plan := fun s =>
  plans [planEach (packFrames (entryCap op) es) (fun p => toRank rank 0 { op := op, step := step, payload := p }),
    if rank = s.rank then fun _ => []
    else toRank rank 0 { op := 0x23, step := step, arg0 := es.length, arg1 := which }] s

/-- FETCH (R210). -/
def fetchSlice (die : Nat) (x : Slice) (item : Nat) : Plan := fun s =>
  let step := s.get .BEAT_STEP_STEP
  let sub := bits item 36 4
  let keys := match s.subBatch die x.slot step sub with
    | some b => (b.keys.map (·.1)).filter (fun k => s.inGroup k (bits item 4 4))
    | none => []
  let id0 := s.var .reqNext die
  let asked := keys.zipIdx.map (fun p => (p.1, (id0 + p.2) % 2 ^ 32, s.aimAt p.1))
  let ranks := (asked.map (fun a => a.2.2.1)).eraseDups
  plans [fun _ => [.var .reqNext die ((id0 + keys.length) % 2 ^ 32),
      .emb (fun e => { e with fetched := e.fetched ++ asked.map (fun a =>
        ⟨die, x.slot, step, sub, a.1, a.2.1, 255, []⟩) })],
    planEach keys refreshAge,
    planEach ranks (fun r => sendAll r 0x20 step 0 ((asked.filter (fun a => a.2.2.1 == r)).map (fun a =>
      reqEntry a.1 a.2.1 s.rank die 0 a.2.2.2)))] s

/-- A FETCH whose sub-batch's pass has not completed, or not begun: the pass is abandoned, and its keys are dropped and
counted, those that the Coalescer has yet to see as it sees them (R209). -/
def fetchAbandon (die : Nat) (x : Slice) (item : Nat) : Plan := fun s =>
  let step := s.get .BEAT_STEP_STEP
  let sub := bits item 36 4
  plans [fun _ => [setSub { die, slot := x.slot, step, sub, dropped := true }], countAbandoned die x.slot step] s

/-! Pooling (R215). -/

/-- A bag: its sample, table, and occurrences as index and weight in bag order. -/
structure Bag where
  sample : Nat
  table  : Nat
  occs   : List (Nat × Nat)
  deriving DecidableEq, Repr

/-- The bags of a micro-batch for the tables of a group, in ascending sample; HISTORY events are bags of one (R404). -/
def State.bags (s : State) (die slot step group : Nat) : List Bag :=
  ((s.embMb die slot step).recs.map (fun r => (r.secs.map (fun x =>
    let (kind, tbl, items, ws) := x
    match s.table tbl with
    | none => []
    | some t =>
      if kind > 3 ∨ tblDie t ≠ die ∨ tblGroup t ≠ group then []
      else
        let os := items.zipIdx.map (fun p =>
          (p.1, if kind = 2 then ws.getD p.2 0 else (Config.missingWeight (tbl * 2 ^ 48 + p.1)).toNat))
        if kind = 3 then os.map (fun o => ⟨r.sample, tbl, [o]⟩) else [⟨r.sample, tbl, os⟩])).flatten)).flatten

/-- The fetched row of a key in a micro-batch that pooling includes: status OK or ABSENT. -/
def State.fetchedRow (s : State) (die slot step key : Nat) : Option Fetched :=
  s.emb.fetched.find? (fun f => f.die == die && f.slot == slot && f.step == step && f.key == key && f.st ≤ 1)

/-- The included occurrences of a bag in pooling order: key, weight and decoded row. -/
def State.included (s : State) (die slot step t : Nat) (b : Bag) : List (Nat × Nat × List Nat) :=
  ((b.occs.mergeSort (fun x y => x.1 ≤ y.1)).filterMap (fun o =>
    if o.1 ≥ tblRows t then none
    else (s.fetchedRow die slot step (b.table * 2 ^ 48 + o.1)).map (fun f =>
      (f.key, o.2, if f.st = 1 then List.replicate (tblDim t) (tblInit t) else decodeBody t f.body))))

/-- The pooled vector of a bag (R215). -/
def poolBag (t : Nat) (xs : List (Nat × Nat × List Nat)) : List Nat :=
  let zero := List.replicate (tblDim t) 0
  let add := fun acc (x : Nat × Nat × List Nat) => (acc.zip x.2.2).map (fun p => fadd p.1 p.2)
  match tblPool t with
  | 0 => xs.foldl add zero
  | 1 => if xs.isEmpty then zero else (xs.foldl add zero).map (fun a => fdiv a (fOfNat xs.length))
  | 2 => match xs with
    | [] => zero
    | x :: rest => rest.foldl (fun acc y => (acc.zip y.2.2).map (fun p => fmax p.1 p.2)) x.2.2
  | _ => xs.foldl (fun acc x => (acc.zip x.2.2).map (fun p => ffma x.2.1 p.2 p.1)) zero

/-- Bytes of an element of a table's pooled vector. -/
def outBytes (t : Nat) : Nat := if tblOutBf16 t then 2 else 4
/-- Tokens of a bag's vector. -/
def bagTokens (t : Nat) : Nat := (tblDim t * outBytes t + 255) / 256

/-- A bag's vector as tokens: each bag begins a new token, and the tail is +0. -/
def vecTokens (t : Nat) (v : List Nat) : List Nat :=
  let n := pack (8 * outBytes t) (v.map (fun x => if tblOutBf16 t then cvtFrom32 2 x else x))
  (List.range (bagTokens t)).map (fun i => bits n (2048 * i) 2048)

/-- The highest sub-batch of a micro-batch that the schedule gives a COALESCE item and no FETCH has abandoned (R208, R209):
its POOL completes the bags. -/
def State.topSub (s : State) (die slot step : Nat) : Nat :=
  let mine := s.emb.subs.filter (fun b => b.die == die && b.slot == slot && b.step == step)
  let gone : Nat → Bool := fun j => mine.any (fun b => b.sub == j && b.dropped)
  let n := (s.mbKeys die slot step).length
  ((s.plannedSubs die slot ++ (mine.filter (·.done)).map (·.sub)).filter (fun j => subOf n j && !gone j)).foldl max 0

/-- Requests of a group and sub-batch that have no reply. -/
def State.unanswered (s : State) (die : Nat) (x : Slice) (item : Nat) (f : Fetched) : Bool :=
  f.die == die && f.slot == x.slot && f.step == s.get .BEAT_STEP_STEP && f.sub == bits item 36 4 && f.st == 255 &&
    s.inGroup f.key (bits item 4 4)

/-- POOL (R215): the last existing sub-batch's item completes the bags and sends their vectors. -/
def poolSlice (die : Nat) (x : Slice) (item : Nat) : Plan := fun s =>
  let step := s.get .BEAT_STEP_STEP
  if bits item 36 4 < s.topSub die x.slot step then [endSlice 1 die 0]
  else
    let ts := ((s.bags die x.slot step (bits item 4 4)).map (fun b =>
      match s.table b.table with
      | none => []
      | some t => vecTokens t (poolBag t (s.included die x.slot step t b)))).flatten
    plans [unitSend (bits item 8 13) ts, fun _ => [endSlice 1 die 0]] s

/-! Gradients (R216, R217). -/

/-- The occurrence that element `j` of a MAX bag took (R216). -/
def maxOwner (xs : List (List Nat)) (j : Nat) : Nat :=
  (xs.zipIdx.foldl (fun (acc : Nat × Nat) p =>
    let x := p.1.getD j 0
    if p.2 = 0 then (x, 0)
    else if fIsNan acc.1 then acc
    else if fIsNan x then (x, p.2)
    else if fBelow acc.1 x then (x, p.2) else acc) (0, 0)).2

/-- The contribution of each included occurrence of a bag with gradient `g` (R216). -/
def contributions (t : Nat) (g : List Nat) (xs : List (Nat × Nat × List Nat)) : List (Nat × List Nat) :=
  xs.zipIdx.map (fun p => (p.1.1,
    match tblPool t with
    | 0 => g
    | 1 => g.map (fun a => fdiv a (fOfNat xs.length))
    | 2 => g.zipIdx.map (fun q => if maxOwner (xs.map (·.2.2)) q.2 = p.2 then q.1 else 0)
    | _ => g.map (fun a => fmul p.1.2.1 a)))

/-- A Basin entry of a die, step and key changes; it begins at zero (R217). -/
def basinAt (die step key d : Nat) (f : BasinRow → BasinRow) : Upd :=
  .emb (fun e =>
    let is : BasinRow → Bool := fun b => b.die == die && b.step == step && b.key == key
    let old := (e.basin.find? is).getD ⟨die, step, key, 0, List.replicate d (0, 0)⟩
    { e with basin := e.basin.filter (fun b => !is b) ++ [f old] })

/-- One bag's gradient, of tokens of the queue, goes into the Basins of the sub-batch's keys. -/
def gradBag (die : Nat) (x : Slice) (item : Nat) (b : Bag) : Plan := fun s =>
  match s.table b.table with
  | none => []
  | some t =>
    let step := s.get .BEAT_STEP_STEP
    let q := bits item 8 13
    let n := bagTokens t
    let raw := pack 2048 (((s.queue q).buf.take n).map (·.toNat))
    let g := (unpack (8 * outBytes t) (tblDim t) raw).map (fun a => if tblOutBf16 t then cvtTo32 2 a else a)
    let sub : List Nat := match s.subBatch die x.slot step (bits item 36 4) with
      | some y => y.keys.map (·.1)
      | none => []
    let cs := (contributions t g (s.included die x.slot step t b)).filter (fun c => sub.contains c.1)
    plans [planEach (List.range n) (fun _ => takeToken q),
      fun _ => cs.map (fun c => basinAt die step c.1 (tblDim t) (fun r =>
        { r with pairs := (r.pairs.zip c.2).map (fun p => fp32cAdd p.1 (p.2, 0)) })),
      fun s' => [.emb (fun e => { e with bag := Sparse.set 0 e.bag die (Sparse.get 0 s'.emb.bag die + 1) })]] s

/-- GRAD takes the bags whose gradients have come; after the last it adds the occurrence counts and ends (R217). -/
def gradSlice (die : Nat) (x : Slice) (item : Nat) : Plan := fun s =>
  let step := s.get .BEAT_STEP_STEP
  let bs := s.bags die x.slot step (bits item 4 4)
  let finish : Plan := fun s' =>
    let keys : List (Nat × Nat) := match s'.subBatch die x.slot step (bits item 36 4) with
      | some b => b.keys.filter (fun k => s'.inGroup k.1 (bits item 4 4))
      | none => []
    keys.map (fun k => basinAt die step k.1
      (match s'.table (keyTable k.1) with | some t => tblDim t | none => 0)
      (fun r => { r with count := min (2 ^ 32 - 1) (r.count + k.2) })) ++
    [.emb (fun e => { e with bag := Sparse.set 0 e.bag die 0 }), endSlice 1 die 0]
  if x.slot < 8 ∧ s.var .mbDropped x.slot = 1 then
    [.emb (fun e => { e with bag := Sparse.set 0 e.bag die 0 }), endSlice 1 die 0]
  else
    plans [planEach bs.zipIdx (fun p s' =>
        let have' := (s'.queue (bits item 8 13)).buf.length
        let need := match s'.table p.1.table with | some t => bagTokens t | none => 0
        if p.2 = Sparse.get 0 s'.emb.bag die ∧ need ≤ have' then gradBag die x item p.1 s' else []),
      fun s' => if Sparse.get 0 s'.emb.bag die ≥ bs.length then finish s' else []] s

/-! Pushes (R218, R349). -/

/-- PUSH: every Basin entry of the group in the step goes to its row once, in ascending key order. -/
def pushSlice (die : Nat) (_ : Slice) (item : Nat) : Plan := fun s =>
  let step := s.get .BEAT_STEP_STEP
  let is : BasinRow → Bool := fun b => b.die == die && b.step == step && s.inGroup b.key (bits item 4 4)
  let rows := (s.emb.basin.filter is).mergeSort (fun a b => a.key ≤ b.key)
  let aimed := rows.map (fun b => (s.aimAt b.key, b))
  let ranks := (aimed.map (fun a => a.1.1)).eraseDups
  plans [fun _ => [.emb (fun e => { e with basin := e.basin.filter (fun b => !is b) })],
    planEach (rows.map (·.key)) refreshAge,
    planEach ranks (fun r s' =>
      let mine := aimed.filter (fun a => a.1.1 == r)
      if s'.live r then sendAll r 0x22 step 1 (mine.map (fun a =>
          pushEntry a.2.key a.2.count s.rank (die + a.1.2 * 8) 0 a.2.pairs)) s'
      else [s'.addF .COLL_MISSING_PUSH_LOST mine.length])] s

/-- An item that issues an empty slice: OP 5 to 15, or one whose sub-batch does not exist (R206). -/
def planEmbEmpty (die : Nat) : Plan := fun s =>
  match s.nextSlice 1 die with
  | some x =>
    let item := s.embWork die x
    let op := bits item 0 4
    if op ≥ 5 ∨ (1 ≤ op ∧ op ≤ 3 ∧ s.noSub die x item) then plans [startSlice 1 die, fun _ => [endSlice 1 die 0]] s else []
  | none => []

/-- At clk WAIT_CLK of a POOL slice's beat, its requests without a reply complete with TIMEOUT (R213). -/
def planTimeout (die : Nat) : Plan := fun s =>
  match s.embSlice die with
  | some (x, item) =>
    if bits item 0 4 ≠ 2 then []
    else
      let late := s.emb.fetched.filter (s.unanswered die x item)
      plans [fun _ => [.emb (fun e => { e with fetched := e.fetched.map (fun f =>
          if s.unanswered die x item f then { f with st := 3 } else f) })],
        planEach late (fun f => countStatus die f.key 3)] s
  | none => []

/-- Every counter of the die's sketches, the listed estimates and every directory EST are halved (R221, R224). -/
def halveSketch (die : Nat) : Plan := plans [
  fun _ => [.rows (fun r => { r with
    sketch := (r.sketch.map (fun p => if p.1 / 2 ^ 21 = die then (p.1, p.2 / 2) else p)).filter (fun p => p.2 != 0)
    heavy := r.heavy.map (fun p => if p.1 / 512 = die then (p.1, p.2.1, (p.2.2 - 1) / 2 + 1) else p) })],
  fun s => planEach (List.range (s.hotSize die)) (fun k s' =>
    let w := s'.hotWord die k
    if hotValid w then setHotWord die k (putBits w 16 16 (hotEst w / 2)) s' else []) s]

/-- The sketches, heavy-row lists and every directory EST of a die are cleared (R221). -/
def clearSketch (die : Nat) : Plan := plans [
  fun _ => [.rows (fun r => { r with
    sketch := r.sketch.filter (fun p => p.1 / 2 ^ 21 != die), heavy := r.heavy.filter (fun p => p.1 / 512 != die) })],
  fun s => planEach (List.range (s.hotSize die)) (fun k s' =>
    let w := s'.hotWord die k
    if hotValid w then setHotWord die k (putBits w 16 16 0) s' else []) s]

/-- SKETCH_DECAY: once at a boundary at which BEAT_COUNT is a multiple of DECAY_BEATS (R221). -/
def planDecay (die : Nat) : Plan := fun s =>
  let d := s.get .EMB_HOT_CFG_DECAY_BEATS die
  let b := s.get .BEAT_COUNT_COUNT
  if die < 2 ∧ d ≠ 0 ∧ b % d = 0 ∧ s.running ∧ s.var .decayAt die ≠ b + 1 then
    .var .decayAt die (b + 1) :: halveSketch die s
  else []

/-- Any item with its sub-batch. -/
def withSub (die : Nat) (s : State) (x : Slice) (item : Nat) : Bool := s.hasSub die x item

/-- EMB_COALESCE (R207). -/
def execEmbCoalesce (die : Nat) := answer (embWhole die 0 (fun _ _ _ => true) (coalesceSlice die))
/-- EMB_FETCH (R210). -/
def execEmbFetch (die : Nat) := answer (embWhole die 1
  (fun s x item => s.storesRoom && !s.noSub die x item)
  (fun x item s => if s.hasSub die x item then fetchSlice die x item s else fetchAbandon die x item s))
/-- EMB_POOL (R215): it waits until every request of its group and sub-batch has its status. -/
def execEmbPool (die : Nat) := answer (embRow die 2
  (fun s x item => withSub die s x item && !s.emb.fetched.any (s.unanswered die x item)) (poolSlice die))
/-- EMB_GRAD (R217). -/
def execEmbGrad (die : Nat) := answer (embRow die 3 (withSub die) (gradSlice die))
/-- EMB_PUSH (R218). -/
def execEmbPush (die : Nat) := answer (embWhole die 4 (fun s _ _ => s.storesRoom) (pushSlice die))
/-- EMB_EMPTY_ITEM (R206). -/
def execEmbEmptyItem (die : Nat) := answer (planEmbEmpty die)
/-- LOOKUP_TIMEOUT (R213). -/
def execLookupTimeout (die : Nat) := answer (planTimeout die)
/-- EMB_COMMIT (R234). -/
def execEmbCommit (die : Nat) := answer (planIf (fun _ => die < 2) (fun _ => [setF .EMB_STATUS_COMMIT_PENDING 1 die]))
/-- SKETCH_CLEAR (R221): at the next boundary. -/
def execSketchClear (die : Nat) := answer (planIf (fun _ => die < 2) (fun _ => [.var .sketchClear die 1]))
/-- SKETCH_DECAY (R221). -/
def execSketchDecay (die : Nat) := answer (planDecay die)

end Sys2Proof.Machine
end

