-- ==== Sys2Proof/Machine/Drift.lean ====
section
/-!
DEFINITION. Moving a row (R226 to R229, R248, R275): the stages of a Drift at its source and at its destination.
-/
namespace Sys2Proof.Machine

def isDrift (stack key : Nat) (d : DriftSrc) : Bool := d.stack == stack && d.key == key
def isArrival (stack key : Nat) (d : DriftDst) : Bool := d.stack == stack && d.key == key

/-- A move changes at its source. -/
def setDrift (stack key : Nat) (f : DriftSrc → DriftSrc) : Upd :=
  .rows (fun r => { r with drifts := r.drifts.map (fun d => if isDrift stack key d then f d else d) })

def dropDrift (stack key : Nat) : Upd :=
  .rows (fun r => { r with drifts := r.drifts.filter (fun d => !isDrift stack key d) })

def dropArrival (stack key : Nat) : Upd :=
  .rows (fun r => { r with arrivals := r.arrivals.filter (fun d => !isArrival stack key d) })

/-- Whether a stack of this module is a key's home stack, under either hash configuration. -/
def State.isHome (s : State) (stack key : Nat) : Bool :=
  homeStack key == stack &&
    (homeModule key s.jobN == s.rank || s.prevN.map (homeModule key) == some s.rank)

/-- A LEFT or PLACE record of a stack (R275). -/
def placeRecord (s : State) (type stack key rank dst kind : Nat) : Upd :=
  emitRecord stack (recHeader type 0 s.rank 48 (recStep (s.get .BEAT_STEP_STEP) stack) ++ leBytes 8 key ++
    leBytes 2 rank ++ [dst, kind] ++ leBytes 4 0)

/-- The home stack of a key on this module names where the row is now, and emits PLACE (R227, R275). -/
def homeMoved (key rank stack : Nat) : Plan := fun s =>
  let h := homeStack key
  if homeModule key s.jobN = s.rank then
    if rank = s.rank ∧ stack = h then
      if locKind (s.dmLoc h key) = kMoved then dmFree h key s ++ [placeRecord s 4 h key rank stack 0] else []
    else plans [dmPlace h key (mkLoc kMoved rank stack 0), fun s' => [placeRecord s' 4 h key rank stack 1]] s
  else []

/-- Codes of DRIFT_STATUS.LAST_RESULT. -/
def goRefused (stack code : Nat) : Plan := fun s =>
  [setF .DRIFT_STATUS_LAST_RESULT code stack, s.addF .DRIFT_STATS_REFUSED 1 stack]

/-- A GO (R226): refused with RESHARD while a second hash configuration is active (R233), else with the code of the first
case that holds, in the order of its table, or ACCEPTED. -/
def driftGo (stack key rank dest : Nat) : Plan := fun s =>
  let home := homeModule key s.jobN
  let l := s.dmLoc stack key
  if s.prevN.isSome then goRefused stack 6 s
  else match s.table (keyTable key) with
  | none => goRefused stack 2 s
  | some t => match s.resolve stack t key true with
    | .at p =>
      let mine := s.rows.drifts.filter (fun d => d.stack == stack && d.cause == 0)
      if !tblDrift t ∨ (rank = s.rank ∧ dest = stack) ∨ (rank ≠ s.rank ∧ s.rank ≠ home ∧ rank ≠ home) ∨
          (s.rank ≠ home ∧ rank ≠ home) then goRefused stack 3 s
      else if locLeaving l ∨ s.rows.drifts.any (isDrift stack key) then goRefused stack 4 s
      else if s.tornRow stack key then goRefused stack 5 s
      else if mine.length ≥ 64 then goRefused stack 7 s
      else if p < 16 ∧ (s.dmWayFor stack key).isNone then
        plans [count .DRIFT_FWD_SET_FULL 1 stack, goRefused stack 8] s
      else
        [setF .DRIFT_STATUS_LAST_RESULT 1 stack,
         .rows (fun r => { r with drifts := r.drifts ++ [{ stack, key, rank, dest, place := p, stage := 0 }] })]
    | .pending => goRefused stack 4 s
    | _ => goRefused stack 2 s

/-- A write of DRIFT_CMD with GO (R226, R235): the destination fields take their values, clamped, and the GO acts. -/
def planGo (stack rank dest : Nat) : Plan := fun s =>
  let r := min rank (s.jobN - 1)
  if stack < 16 then
    setF .DRIFT_CMD_DEST_RANK r stack :: setF .DRIFT_CMD_DEST_STACK dest stack ::
      driftGo stack (s.get .DRIFT_CMD_KEY_KEY stack) r (dest % 16) s
  else []

/-- The parts of a slot in frames of at most 8,960 B (R227, R383). -/
def slotParts (bs : List Nat) : List (List Nat) :=
  (List.range ((bs.length + 8959) / 8960)).map (fun i => (bs.drop (8960 * i)).take 8960)

/-- A message of a move (R383). -/
def driftMsg (op key dest src part parts : Nat) (bs : List Nat) : GtBody :=
  { op := op, arg0 := key, arg1 := dest + src * 16 + part * 2 ^ 8 + (parts - 1) * 2 ^ 16, payload := bs }

/-- The LEAVING mark of a row is taken away (R205, R229). -/
def clearLeaving (stack key : Nat) : Plan := fun s =>
  let l := s.dmLoc stack key
  if locKind l = kBucket then dmFree stack key s
  else if locKind l = kResident then dmPlace stack key (putBits l 3 1 0) s
  else []

/-- A move is given up: its mark goes at the next boundary, and the destination is told (R229). -/
def abandon (stack key : Nat) : Plan := fun s =>
  match s.rows.drifts.find? (isDrift stack key) with
  | none => []
  | some d =>
    plans [fun s' => [setDrift stack key (fun x => { x with stage := 9 })] ++
        (if d.cause = 0 then [s'.addF .DRIFT_STATS_ABORTED 1 stack] else []),
      toRank d.rank 0 (driftMsg 0x2D key d.dest stack 0 1 [])] s

/-- At the boundary after an accepted GO the row is LEAVING and its slot is sent (R227 stages 1 and 2); a copy read that
meets an update of the row in flight waits for its header line, and counts (R256). -/
def planLeaving (stack key : Nat) : Plan := fun s =>
  match s.rows.drifts.find? (isDrift stack key), s.table (keyTable key) with
  | some d, some t =>
    let dpa := placeDpa stack t key d.place
    let busy := s.rows.log.any (fun l => l.stack == stack && l.key == key)
    if d.stage ≠ 0 then []
    else if busy then
      (if d.met then [] else [setDrift stack key (fun x => { x with met := true }), s.addF .SILT_LANES_CONFLICT_WAIT 1 stack])
    else if d.place < 16 ∧ (s.dmWayFor stack key).isNone then
      plans [count .DRIFT_FWD_SET_FULL 1 stack, abandon stack key] s
    else
      let mark : Plan := if d.place < 16 then dmPlace stack key (mkLoc kBucket 0 0 d.place true)
        else dmPlace stack key (mkLoc kResident 0 0 (d.place - 16) true)
      let copy : Plan := match s.hotFind (stackDie stack) key with
        | some k => plans [hotWriteback (stackDie stack) k stack t key d.place, dropHot (stackDie stack) k]
        | none => fun _ => []
      plans [mark, copy, fun _ => [setDrift stack key (fun x => { x with stage := 1, beat := s.get .BEAT_COUNT_COUNT })],
        fun s' =>
          let lines := linesOf dpa (tblSlot t)
          if s'.sweepTears stack dpa then plans [addTorn stack key dpa, abandon stack key] s'
          else if lines.any s'.lineBad then
            plans [planEach lines (noteRead 3), addTorn stack key dpa, abandon stack key] s'
          else
            let parts := slotParts (s'.bytesAt dpa (tblSlot t))
            plans [planEach lines (noteRead 3), sketchBump stack key,
              planEach parts.zipIdx (fun p => toRank d.rank 0
                (driftMsg 0x28 key d.dest stack p.2 parts.length p.1))] s'] s
  | _, _ => []

/-- A part of a slot copy arrives from a rank (R227 stage 2): with the last part the destination places it PENDING in its
lowest free Drift-area slot and answers COPY_ACK, or answers COPY_NAK. -/
def recvCopy (rank : Nat) (b : GtBody) : Plan := fun s =>
  let key := b.arg0
  let stack := bits b.arg1 0 4
  let src := bits b.arg1 4 4
  let parts := bits b.arg1 16 8 + 1
  let same := rank = s.rank ∧ src = stack
  let old := (s.rows.arrivals.find? (fun d => isArrival stack key d && !d.acked)).getD
    { stack, key, rank, src, slot := 0, parts, got := [] }
  let got := old.got ++ [b.payload]
  let nak : Plan := plans [fun _ => [dropArrival stack key], toRank rank 0 (driftMsg 0x2A key stack src 0 1 [])]
  let cause := match s.rows.drifts.find? (isDrift src key) with
    | some d => if rank = s.rank then d.cause else 0
    | none => 0
  if got.length < parts then
    [dropArrival stack key, .rows (fun r => { r with arrivals := r.arrivals ++ [{ old with got, parts }] })]
  else match s.table (keyTable key) with
  | none => nak s
  | some t => match s.freeArea stack t, (if same then some 0 else s.dmWayFor stack key) with
    | some n, some _ =>
      plans [fun _ => [dropArrival stack key, .rows (fun r => { r with arrivals := r.arrivals ++
          [{ old with parts, got := [], slot := n, acked := true, old := s.dmLoc stack key, cause }] })],
        writeMem (driftDpa stack t n) got.flatten, setAreaBit stack t n true,
        (if same then fun _ => [] else dmPlace stack key (mkLoc kResident 0 0 n false true)),
        toRank rank 0 (driftMsg 0x29 key stack src 0 1 [])] s
    | _, none => (s.addF .DRIFT_FWD_SET_FULL 1 stack) :: nak s
    | none, _ => nak s

/-- COPY_ACK arrives at the source: the next boundary may switch. -/
def recvCopyAck (b : GtBody) : Plan := fun s =>
  let stack := bits b.arg1 4 4
  if s.rows.drifts.any (fun d => isDrift stack b.arg0 d && d.stage == 1) then
    [setDrift stack b.arg0 (fun d => { d with stage := 2 })] else []

/-- COPY_NAK arrives at the source: the move is abandoned (R229). -/
def recvCopyNak (b : GtBody) : Plan := fun s =>
  let stack := bits b.arg1 4 4
  if s.rows.drifts.any (fun d => isDrift stack b.arg0 d && d.stage == 1) then abandon stack b.arg0 s else []

/-- No COPY_ACK within 64 source beats of LEAVING (R229). -/
def planCopyTimeout (stack key : Nat) : Plan := fun s =>
  match s.rows.drifts.find? (isDrift stack key) with
  | some d => if d.stage = 1 ∧ s.get .BEAT_COUNT_COUNT ≥ d.beat + 64 then abandon stack key s else []
  | none => []

/-- A copy that was not installed is given up: its entry and slot are freed, and what its entry displaced returns (R229). -/
def freeArrival (d : DriftDst) : Plan := fun s =>
  let same := d.rank = s.rank ∧ d.src = d.stack
  plans [fun _ => [dropArrival d.stack d.key],
    if d.acked then plans [
        (match s.table (keyTable d.key) with | some t => setAreaBit d.stack t d.slot false | none => fun _ => []),
        (if same then fun _ => [] else if locKind d.old ≠ 0 then dmPlace d.stack d.key d.old else dmFree d.stack d.key)]
      else fun _ => [],
    releaseHeld d.stack d.key] s

/-- CANCEL arrives at the destination (R229). -/
def recvCancel (b : GtBody) : Plan := fun s =>
  match s.rows.arrivals.find? (fun d => isArrival (bits b.arg1 0 4) b.arg0 d && !d.switch) with
  | some d => freeArrival d s
  | none => []

/-- What a stack holds for a row at its switch goes to the destination (R248): contributions of open merges as they are (a
handoff that an earlier switch brought stays one), and a combined gradient not yet applied as a handoff. -/
def handOver (d : DriftSrc) : Plan := fun s =>
  let cs := s.silt.contribs.filter (fun c => c.stack == d.stack && c.key == d.key && c.merge ≥ s.mergeStep d.stack)
  let ys := s.silt.combs.filter (fun c => c.stack == d.stack && c.key == d.key && c.st == 0)
  plans [fun _ => [.silt (fun x => { x with
      contribs := x.contribs.filter (fun c => !(c.stack == d.stack && c.key == d.key))
      combs := x.combs.filter (fun c => !(c.stack == d.stack && c.key == d.key && c.st == 0)) })],
    planEach cs (fun c =>
      if c.group = 0 then toRank d.rank 0 (driftFwd c.key c.step c.count d.dest d.stack true (c.pairs.map (·.1)))
      else
        let e := pushEntry c.key c.count (c.origin / 2) (c.origin % 2 + d.dest * 8) 0 c.pairs
        toRank d.rank 0 { op := 0x22, step := c.step, payload := e }),
    planEach ys (fun c => toRank d.rank 0 (driftFwd c.key c.step c.count d.dest d.stack true c.g))] s

/-- At the boundary after COPY_ACK the source stops holding the row (R227 stage 4, R248, R275). -/
def planSwitch (stack key : Nat) : Plan := fun s =>
  match s.rows.drifts.find? (isDrift stack key) with
  | none => []
  | some d =>
    let beat := s.get .BEAT_COUNT_COUNT
    let within := d.rank = s.rank
    let same := within ∧ d.dest = stack
    if d.stage ≠ 2 then []
    else plans [
      (if same then fun _ => []
       else if s.isHome stack key then
        plans [dmPlace stack key (mkLoc kMoved d.rank d.dest 0), fun s' => [placeRecord s' 4 stack key d.rank d.dest 1]]
       else plans [dmPlace stack key (mkLoc kTombstone d.rank d.dest (beat + 1)),
        if within then fun _ => [] else homeMoved key d.rank d.dest]),
      fun s' => (if within then [] else [placeRecord s' 3 stack key d.rank d.dest 0]),
      handOver d, heavyDrop stack key,
      fun _ => [setDrift stack key (fun x => { x with stage := if within then 4 else 3, free := beat + 1 })],
      if within then fun _ => [.rows (fun r => { r with arrivals := r.arrivals.map (fun a =>
          if isArrival d.dest key a && a.rank == d.rank then { a with switch := true } else a) })]
        else toRank d.rank 0 (driftMsg 0x2B key d.dest stack 0 1 []),
      releaseHeld stack key] s

/-- SWITCH arrives at the destination of a move between modules (R227 stage 5). -/
def recvSwitch (b : GtBody) : Plan := fun _ =>
  [.rows (fun r => { r with arrivals := r.arrivals.map (fun a =>
    if isArrival (bits b.arg1 0 4) b.arg0 a && a.acked then { a with switch := true } else a) })]

/-- The destination installs the row (R227 stage 5, R275): in a free way of its bucket at the home stack, except where a
retirement moves it (R427); otherwise in the slot that holds it. -/
def planInstall (stack key : Nat) : Plan := fun s =>
  match s.rows.arrivals.find? (fun a => isArrival stack key a && a.switch), s.table (keyTable key) with
  | some a, some t =>
    let home := homeStack key = stack ∧ homeModule key s.jobN = s.rank
    let way := if home ∧ a.cause ≠ 2 ∧ !s.tagBad stack t key then s.freeWay stack t key else none
    let slot := s.bytesAt (driftDpa stack t a.slot) (tblSlot t)
    plans [
      (match way with
       | some w => plans [writeSlot (wayDpa stack t key w) slot, showRow stack t key w,
          dmFree stack key, setAreaBit stack t a.slot false]
       | none => dmPlace stack key (mkLoc kResident 0 0 a.slot)),
      fun s' => [dropArrival stack key, emitRecord stack (rowRecord 2 s.rank stack (s'.get .BEAT_STEP_STEP) key slot)],
      (if home then (if locKind a.old = kMoved then fun s' => [placeRecord s' 4 stack key s.rank stack 0] else fun _ => [])
       else homeMoved key s.rank stack),
      (if a.rank = s.rank then fun _ => [] else toRank a.rank 0 (driftMsg 0x2C key stack a.src 0 1 [])),
      releaseHeld stack key] s
  | _, _ => []

/-- SWITCH_ACK arrives at the source: beat k is the next one, and the row's place is freed in beat k + 1 (R227 stage 6). -/
def recvSwitchAck (b : GtBody) : Plan := fun s =>
  let stack := bits b.arg1 4 4
  let beat := s.get .BEAT_COUNT_COUNT + 2
  if s.rows.drifts.any (fun d => isDrift stack b.arg0 d && d.stage == 3) then
    let l := s.dmLoc stack b.arg0
    setDrift stack b.arg0 (fun d => { d with stage := 4, free := beat }) ::
      (if locKind l = kTombstone then dmPlace stack b.arg0 (putBits l 32 32 beat) s else [])
  else []

/-! The permutation's bookkeeping (R350, R351). -/

/-- A stack's walk. -/
def State.walk (s : State) (stack : Nat) : PermWalk := s.coll.walks.getD stack { phase := 2 }

/-- Moves of the permutation in flight at a stack. -/
def State.permMoves (s : State) (stack : Nat) : Nat :=
  (s.rows.drifts.filter (fun d => d.stack == stack && d.cause == 1)).length

/-- PERM_STATE follows the walks: DRAINING once every walk has ended, then DONE, or IDLE after an abort, once every move
has been freed. -/
def permCheck : Plan := fun s =>
  let st := s.get .COLL_STATUS_PERM_STATE
  if (st = 1 ∨ st = 2) ∧ s.coll.walks.all (fun w => w.phase == 2) then
    [setF .COLL_STATUS_PERM_STATE
      (if s.rows.drifts.any (fun d => d.cause == 1) then 2 else if s.coll.aborted then 0 else 3)]
  else []

/-- A move of the permutation was abandoned: its row is revisited after the walk, and one found TORN at the revisit is
counted as skipped (R351). -/
def permRetry (stack key : Nat) : Plan := fun s =>
  if (s.walk stack).phase = 0 then
    [.coll (fun c => { c with walks := c.walks.modify stack (fun w => { w with again := w.again ++ [key] }) })]
  else plans [planIf (fun s' => s'.tornRow stack key) (count .COLL_PERM_SKIPPED 1), permCheck] s

/-- A retirement's move was abandoned: a row found TORN is revisited once after the walk, and any other stays where it is
and is counted (R427, R428). -/
def retireLost (stack key : Nat) : Plan := fun s =>
  if s.var .retireRevisit = 0 ∧ s.tornRow stack key then [.rows (fun r => { r with revisit := r.revisit ++ [key] })]
  else [s.addF .ERR_RETIRE_STATS_LEFT 1, s.addV .retireLeft 1]

/-- The source frees the row's place and its TOMBSTONE (R227 stage 6). -/
def planFree (stack key : Nat) : Plan := fun s =>
  match s.rows.drifts.find? (isDrift stack key), s.table (keyTable key) with
  | some d, some t =>
    if d.stage ≠ 4 ∨ s.get .BEAT_COUNT_COUNT < d.free then []
    else plans [clearPlace stack t key d.place,
      (if locKind (s.dmLoc stack key) = kTombstone then dmFree stack key else fun _ => []),
      fun s' => dropDrift stack key ::
        (match d.cause with
         | 0 => [s'.addF .DRIFT_STATS_DONE 1 stack]
         | 1 => [s'.addF .COLL_PERM_MOVED 1]
         | _ => [s'.addF .ERR_RETIRE_STATS_MOVED 1, s'.addV .retireRows 1]), permCheck] s
  | _, _ => []

/-- What a rank declared lost ends (R229): its copies not yet switched are given up here, and a move of which it is the
destination after the switch is aborted: the entry that names it stays, and so does the slot, which no rule frees then. -/
def driftLost (rank : Nat) : Plan := fun s =>
  plans [planEach (s.rows.arrivals.filter (fun a => a.rank == rank && a.rank != s.rank && !a.switch)) freeArrival,
    planEach (s.rows.drifts.filter (fun d => d.rank == rank && d.stage == 3)) (fun d => plans [
      fun s' => dropDrift d.stack d.key :: (if d.cause = 0 then [s'.addF .DRIFT_STATS_ABORTED 1 d.stack] else []),
      permCheck])] s

/-- A forwarded update or a handoff arrives at the destination (R228, R248). -/
def recvFwd (b : GtBody) : Plan := fun s =>
  let key := b.arg0
  let stack := bits b.arg1 0 4
  let count' := fieldOf b.payload 0 4
  let g := (chunks 4 (b.payload.drop 8)).map ofLe
  match s.table (keyTable key) with
  | none => []
  | some t =>
    let l := s.dmLoc stack key
    let place := match s.resolve stack t key true with
      | .at p => some p
      | .pending => some (locLast l + 16)
      | _ => none
    if b.arg1.testBit 24 then
      if s.skipped b.step ∨ Sparse.get 0 s.silt.ended stack ≥ b.step + 1 then
        [s.addF .COLL_LATE_DROPPED 1, cutAdd (s.get .BEAT_STEP_STEP) (fun c => { c with lateDrop := c.lateDrop + 1 })]
      else if b.step < s.mergeStep stack then
        [.silt (fun x => { x with
          combs := x.combs ++ [⟨stack, b.step, key, count', g, true, false, 0⟩]
          quota := if s.hasLast stack b.step then Sparse.set 0 x.quota stack (Sparse.get 0 x.quota stack + 1)
            else x.quota })]
      else
        addContrib ⟨stack, b.step, b.step, key, 0, 0, count', g.map (fun v => (v, 0)), false⟩ s
    else match place with
    | none => []
    | some p =>
      let dpa := placeDpa stack t key p
      let h := slotHdr s dpa
      if (s.normOf b.step).isNone then [.rows (fun r => { r with fwds := r.fwds ++ [b] })]
      else if hdrUpdated h ∧ b.step ≤ hdrStamp h then [s.addF .DRIFT_STATS_DUP_DISCARD 1 stack]
      else writeSlot dpa ((s.newSlot stack t key b.step count' g (some p)).1.take (tblSlot t)) s

/-- Forwards that waited for a step's norm are applied, oldest first. -/
def replayFwds (step : Nat) : Plan := fun s =>
  plans [fun _ => [.rows (fun r => { r with fwds := r.fwds.filter (fun b => b.step != step) })],
    planEach (s.rows.fwds.filter (fun b => b.step == step)) recvFwd] s

/-- Abandoned moves lose their LEAVING mark at the boundary (R229). -/
def clearAbandoned : Plan := fun s =>
  planEach (s.rows.drifts.filter (fun d => d.stage == 9)) (fun d => plans [clearLeaving d.stack d.key,
    fun _ => [dropDrift d.stack d.key],
    if d.cause = 1 then permRetry d.stack d.key else if d.cause = 2 then retireLost d.stack d.key else fun _ => [],
    releaseHeld d.stack d.key]) s

/-- DRIFT_GO (R226). -/
def execDriftGo (stack rank dest : Nat) := answer (planGo stack rank dest)
/-- DRIFT_COPY_TIMEOUT (R229). -/
def execDriftCopyTimeout (stack key : Nat) := answer (planCopyTimeout stack key)

end Sys2Proof.Machine
end

