-- ==== Sys2Proof/Machine/Coll.lean ====
section
/-!
DEFINITION. The collective engines: work items (R330, R331), the directory (R332), accumulation into Basins (R333) and
chain reductions with their deadlines and late contributions (R334 to R337, R341, R342, R344).
-/
namespace Sys2Proof.Machine

/-! Work items and the directory. -/

/-- Fields of a work item (R330, R331). -/
def itemOp (w : Nat) : Nat := bits w 0 4
def itemFunc (w : Nat) : Nat := min (bits w 4 4) 8
def itemClass (w : Nat) : Nat := bits w 8 6
def itemFirst (w : Nat) : Nat := bits w 16 16
def itemCount (w : Nat) : Nat := bits w 32 16
def itemQin (w : Nat) : Nat := bits w 16 13
def itemQout (w : Nat) : Nat := bits w 29 13
def itemWords (w : Nat) : Nat := min (bits w 42 5) 30 + 1

/-- The slice that a die's engine issues next, its item index and its item (R330). -/
def State.collItem (s : State) (die : Nat) : Option (Slice × Nat × Nat) :=
  (s.nextSlice 4 die).map (fun x =>
    let i := 128 * die + x.target % 128
    (x, i, s.get .COLL_WORK_ITEM i))

/-- Whether bytes lie wholly inside a region of a class. -/
def State.inRegion (s : State) (cls inst a n : Nat) : Bool :=
  let (b, sz) := s.region cls inst
  let u := classUnit cls
  let base := if hbmClass cls then b * u else sharedTarn inst (b * u)
  decide (base ≤ a ∧ a + n ≤ base + sz * u)

/-- Directory entry `i` as a 48 B record; none past COUNT, or where the directory is not inside WORK_H (R332). -/
def State.dirAt (s : State) (i : Nat) : Option Nat :=
  let base := s.get .COLL_DIR_BASE * 65536
  let n := s.get .COLL_DIR_COUNT
  if i < n ∧ s.inRegion 3 0 base (48 * n) then some (s.leAt (base + 48 * i) 48) else none

def dirKey (d : Nat) : Nat := recGet d 0 8
def dirElems (d : Nat) : Nat := recGet d 8 4
def dirOwner (d : Nat) : Nat := recGet d 12 2
def dirFirst (d : Nat) : Nat := recGet d 14 2
def dirMembers (d : Nat) : Nat := recGet d 16 2 + 1
def dirFlag (d i : Nat) : Bool := (recGet d 18 1).testBit i
def dirDie (d : Nat) : Nat := b2n (dirFlag d 2)
/-- FMT, or BF16 for a code that R46 does not list. -/
def dirFmt (d : Nat) : Nat := if [2, 3, 4, 5].contains (recGet d 19 1) then recGet d 19 1 else 2
def dirBasin (d : Nat) : Nat := recGet d 24 8
def dirLate (d : Nat) : Nat := recGet d 32 8
def dirFetch (d : Nat) : Nat := recGet d 40 8

/-- An area of an entry counts only inside the die's BASIN region or inside WORK_H (R332). -/
def State.dirArea (s : State) (d a n : Nat) : Bool := s.inRegion 10 (dirDie d) a n || s.inRegion 3 0 a n

/-- Whether an entry has a Basin, and a late Basin, in use. -/
def State.hasBasin (s : State) (d : Nat) : Bool := dirFlag d 0 && s.dirArea d (dirBasin d) (8 * dirElems d)
def State.hasLate (s : State) (d : Nat) : Bool := dirFlag d 3 && s.dirArea d (dirLate d) (8 * dirElems d)

/-- The directory entry of a shard key, with its index. -/
def State.dirOf (s : State) (key : Nat) : Option (Nat × Nat) :=
  (List.range (s.get .COLL_DIR_COUNT)).findSome? (fun i =>
    match s.dirAt i with
    | some d => if dirKey d = key then some (i, d) else none
    | none => none)

/-- An FP32C pair in memory; a line with an error gives NaN (R418). -/
def State.pairAt (s : State) (a : Nat) : Pair := if s.lineBad a then (fNaN, 0) else (s.leAt a 4, s.leAt (a + 4) 4)
def pairBytes (p : Pair) : List Nat := leBytes 4 p.1 ++ leBytes 4 p.2

/-- A late contribution is discarded (R342, R344). -/
def lateDrop (n : Nat) : Plan := fun s =>
  [s.addF .COLL_LATE_DROPPED n, cutAdd (s.get .BEAT_STEP_STEP) (fun c => { c with lateDrop := c.lateDrop + n })]

/-! The chain (R334 to R337). -/

/-- Elements of the segment of an entry that begins at `first`. -/
def segLen (d first : Nat) : Nat := min 1024 (dirElems d - first)

/-- The chain position of a rank in an entry's group, and the rank at a position (R334). -/
def chainPos (d rank : Nat) : Nat :=
  let m := dirMembers d
  (rank - dirFirst d + 2 * m - (dirOwner d - dirFirst d) - 1) % m
def chainRank (d p : Nat) : Nat := dirFirst d + (dirOwner d - dirFirst d + 1 + p) % dirMembers d

/-- Whether a rank is a member of an entry's group. -/
def chainMember (d rank : Nat) : Bool := dirFirst d ≤ rank && rank < dirFirst d + dirMembers d

/-- The next position after `p` that a LIVE member holds, and the last one before it. -/
def State.chainNext (s : State) (d p : Nat) : Option Nat :=
  ((List.range (dirMembers d)).filter (fun q => p < q && s.live (chainRank d q))).head?
def State.chainPrev (s : State) (d p : Nat) : Option Nat :=
  ((List.range (dirMembers d)).filter (fun q => q < p && s.live (chainRank d q))).getLast?

/-- A segment goes from a position to the next position present; without one, the owner is absent and the segment is
discarded and counted (R334, R337). -/
def chainSend (d p first step : Nat) (payload : List Nat) : Plan := fun s =>
  match s.chainNext d p with
  | some q =>
    let r := chainRank d q
    toRank r (first / 1024 % s.channels r)
      { op := 0x30, step := step, arg0 := dirKey d, arg1 := first, payload := payload } s
  | none => [s.addF .COLL_MISSING_CHAIN 1]

def isHop (h x : ChainHop) : Bool := h.key == x.key && h.first == x.first && h.step == x.step

/-- A hop changes. -/
def setHop (h : ChainHop) (g : ChainHop → ChainHop) : Upd :=
  .coll (fun c => { c with chains := c.chains.map (fun x => if isHop h x then g x else x) })

/-- A hop completes, with the carried segment or as the first position present (R335 to R337): the owner keeps the
result in its Basin, any other member sends it on and clears the Basin segment. -/
def chainRun (h : ChainHop) (cin : Option (List Pair)) : Plan := fun s =>
  match s.dirAt h.entry with
  | none => [setHop h (fun x => { x with done := true })]
  | some d =>
    let n := segLen d h.first
    let basin := dirBasin d + 8 * h.first
    let late := dirLate d + 8 * h.first
    let came := (s.coll.late.filter (· == (h.entry, h.first, h.step))).length
    let held := decide (came > 0)
    let own := fun i =>
      let b := s.pairAt (basin + 8 * i)
      if held then fp32cAdd (s.pairAt (late + 8 * i)) b else b
    let c := (List.range n).map (fun i =>
      match cin with
      | some ps => fp32cAdd (ps.getD i (0, 0)) (own i)
      | none => own i)
    let bs := (c.map pairBytes).flatten
    let owner := dirOwner d = s.rank
    plans [planEach (linesOf basin (8 * n)) (noteRead 7),
      if held then planEach (linesOf late (8 * n)) (noteRead 7) else fun _ => [],
      if owner then writeMem basin bs
      else plans [chainSend d (chainPos d s.rank) h.first h.step bs, writeMem basin (List.replicate (8 * n) 0)],
      fun s' => setHop h (fun x => { x with done := true, kept := owner }) ::
        (if held then
          .coll (fun x => { x with late := x.late.filter (· != (h.entry, h.first, h.step)) }) :: countLate h.step came s'
        else [])] s

/-- A hop that has no carried segment proceeds as the first position present, and is counted (R337). -/
def chainAlone (h : ChainHop) : Plan := plans [count .COLL_MISSING_CHAIN 1, chainRun h none]

/-- A hop of an item issues: it completes at once where this member is the first present or the segment has come, else it
waits until its deadline (R335, R341). -/
def chainIssue (entry d cls first : Nat) : Plan := fun s =>
  let step := s.get .BEAT_STEP_STEP
  let h : ChainHop := ⟨entry, dirKey d, first, step, cls, s.get .BEAT_COUNT_COUNT + s.policy 1 cls 16, false, false⟩
  if s.coll.chains.any (isHop h) then []
  else
    let came := s.coll.early.find? (fun e => e.key == h.key && e.first == first && e.step == step)
    plans [fun _ => [.coll (fun c => { c with
        chains := c.chains ++ [h]
        early := c.early.filter (fun e => !(e.key == h.key && e.first == first && e.step == step)) })],
      match came with
      | some e => chainRun h (some e.pairs)
      | none => if (s.chainPrev d (chainPos d s.rank)).isNone then chainRun h none else fun _ => []] s

/-- The first elements of the segments of an entry. -/
def segFirsts (d : Nat) : List Nat := (List.range ((dirElems d + 1023) / 1024)).map (· * 1024)

/-- COLL_CHAIN (R330, R334). -/
def planChain (die : Nat) : Plan := fun s =>
  match s.collItem die with
  | some (_, _, w) =>
    if itemOp w ≠ 0 then []
    else plans [startSlice 4 die,
      planEach (List.range (itemCount w)) (fun k s' =>
        match s'.dirAt (itemFirst w + k) with
        | some d =>
          if dirDie d = die ∧ s'.hasBasin d ∧ chainMember d s'.rank ∧ chainMember d (dirOwner d) then
            planEach (segFirsts d) (chainIssue (itemFirst w + k) d (itemClass w)) s'
          else []
        | none => []),
      fun _ => [endSlice 4 die 0]] s
  | none => []

/-- The class of an entry's chain: that of its latest hop, or of the CHAIN item that names it. -/
def State.chainClass (s : State) (entry : Nat) : Nat :=
  match s.coll.chains.reverse.find? (fun h => h.entry == entry) with
  | some h => h.cls
  | none => match (List.range 256).find? (fun i =>
      let w := s.get .COLL_WORK_ITEM i
      itemOp w == 0 && itemFirst w ≤ entry && entry < itemFirst w + itemCount w) with
    | some i => itemClass (s.get .COLL_WORK_ITEM i)
    | none => 0

/-- A carried segment comes after its hop's deadline (R342): under ADD_LATE it goes into the late Basin for the hop of
the next step, else it is discarded. -/
def chainLate (entry d first step : Nat) (ps : List Pair) : Plan := fun s =>
  let slot := (entry, first, step + 1)
  let begun := s.coll.chains.any (fun h => h.entry == entry && h.first == first && h.step > step)
  if s.policy 2 (s.chainClass entry) 1 = 0 ∧ s.hasLate d ∧ ¬ begun ∧ s.get .BEAT_STEP_STEP ≤ step + 1 ∧ ¬ s.skipped step
  then
    let a := dirLate d + 8 * first
    let held := s.coll.late.contains slot
    let vs := (List.range (segLen d first)).map (fun i =>
      let p := ps.getD i (0, 0)
      if held then fp32cAdd (s.pairAt (a + 8 * i)) p else p)
    plans [writeMem a (vs.map pairBytes).flatten, fun _ => [.coll (fun c => { c with late := c.late ++ [slot] })]] s
  else lateDrop 1 s

/-- FP32C pairs of a payload. -/
def payloadPairs (l : List Nat) : List Pair := (chunks 8 l).map (fun b => (fieldOf b 0 4, fieldOf b 4 4))

/-- A chain segment arrives (R335, R342). -/
def recvChain (b : GtBody) : Plan := fun s =>
  let cur := s.get .BEAT_STEP_STEP
  let ps := payloadPairs b.payload
  match s.dirOf b.arg0 with
  | none => []
  | some (i, d) =>
    if b.step > cur + 1 ∨ ¬ s.hasBasin d ∨ b.arg1 ≥ dirElems d ∨ b.arg1 % 1024 ≠ 0 then []
    else match s.coll.chains.find? (fun h => h.key == b.arg0 && h.first == b.arg1 && h.step == b.step) with
      | some h => if h.done then chainLate i d b.arg1 b.step ps s else chainRun h (some ps) s
      | none =>
        if b.step < cur then chainLate i d b.arg1 b.step ps s
        else [.coll (fun c => { c with early := c.early ++ [⟨b.arg0, b.arg1, b.step, ps⟩] })]

/-- A rank is LOST: hops that wait for it proceed, and segments that it has not acknowledged go to the next position
present (R337). Runs once the rank is absent in the view. -/
def chainLost (rank : Nat) : Plan := fun s =>
  let mine := s.coll.chains.filter (fun h => !h.done)
  let sent := ((List.range 4).map (fun ch =>
    let c := s.conn rank ch
    (c.unacked.map (·.body) ++ c.wait).filter (fun b => b.op == 0x30))).flatten
  plans [planEach mine (fun h s' =>
      match s'.dirAt h.entry with
      | some d =>
        let p := chainPos d s'.rank
        let q := chainPos d rank
        if chainMember d rank ∧ q < p ∧ ((s'.chainPrev d p).all (· < q)) = true then chainAlone h s'
        else []
      | none => []),
    planEach sent (fun b s' =>
      match s'.dirOf b.arg0 with
      | some (_, d) => chainSend d (chainPos d rank) b.arg1 b.step b.payload s'
      | none => [])] s

/-- The owner clears its Basins, whatever their hops did in the step that ends (R336). -/
def clearBasins : Plan := fun s => planEach (List.range (s.get .COLL_DIR_COUNT)) (fun i s' =>
  match s'.dirAt i with
  | some d =>
    if dirOwner d = s'.rank ∧ s'.hasBasin d then planEach (segFirsts d) (fun first =>
      writeMem (dirBasin d + 8 * first) (List.replicate (8 * segLen d first) 0)) s'
    else []
  | none => []) s

/-- The chain at the boundary that opens a step (R335, R336, R342): owners clear their Basins, segments that no hop took
become late, and values in a late Basin whose hop never came are discarded. -/
def chainStep (step : Nat) : Plan := fun s =>
  let early := s.coll.early.filter (fun e => e.step < step)
  plans [clearBasins,
    fun _ => [.coll (fun c => { c with
      chains := c.chains.map (fun h => { h with kept := false })
      early := c.early.filter (fun e => !(e.step < step)) })],
    planEach early (fun e s' =>
      match s'.dirOf e.key with
      | some (i, d) => chainLate i d e.first e.step e.pairs s'
      | none => []),
    fun s' =>
      let gone := s'.coll.late.filter (fun l => l.2.2 < step)
      .coll (fun c => { c with
        late := c.late.filter (fun l => !(l.2.2 < step))
        chains := c.chains.filter (fun h => !h.done || h.step + 2 > step)
        stale := [] }) :: (if gone.isEmpty then [] else lateDrop gone.length s')] s

/-! Accumulation (R333, R336, R348). -/

/-- Fields of an accumulation token. -/
def accEntry (t : Nat) : Nat := recGet t 0 2
def accCount (t : Nat) : Nat := recGet t 2 1
def accSlot (t : Nat) : Nat := recGet t 3 1
def accFirst (t : Nat) : Nat := recGet t 4 4

/-- Whether the hop of a segment that the elements touch has begun and its Basin part is not yet cleared (R336): at the
owner, whose Basins are clear from the boundary that opens the next step on, a hop of this step. -/
def State.accHeld (s : State) (entry d first n : Nat) : Bool :=
  s.coll.chains.any (fun h => h.entry == entry && decide (h.first < first + n ∧ first < h.first + 1024) &&
    if h.done then h.kept else (dirOwner d != s.rank || h.step == s.get .BEAT_STEP_STEP))

/-- The oldest token of a queue of a collective engine is added into its Basin, or discarded; it is held while the hop of
its segment is under way (R333, R336). -/
def planAccum (q : Nat) : Plan := fun s =>
  match (s.queue q).buf with
  | [] => []
  | tok :: _ =>
    let t := tok.toNat
    let n := accCount t
    let bad : Plan := plans [takeToken q, count .COLL_BASIN_BAD 1]
    if s.consKind q ≠ 4 then []
    else match s.dirAt (accEntry t) with
      | none => bad s
      | some d =>
        if ¬ s.hasBasin d ∨ n = 0 ∨ n > 31 ∨ accFirst t + n > dirElems d then bad s
        else if s.coll.stale.contains (accSlot t, accEntry t) then plans [takeToken q, count .COLL_STALE_DROPPED 1] s
        else if s.accHeld (accEntry t) d (accFirst t) n then []
        else
          let a := dirBasin d + 8 * accFirst t
          plans [takeToken q, planEach (linesOf a (8 * n)) (noteRead 7),
            planEach (List.range n) (fun i s' =>
              writeMem (a + 8 * i) (pairBytes (fp32cAdd (s'.pairAt (a + 8 * i))
                (recGet t (8 + 8 * i) 4, recGet t (12 + 8 * i) 4))) s'),
            count .COLL_BASIN_ACCUM 1] s

/-- COLL_CHAIN (R334). -/
def execCollChain (die : Nat) := answer (planChain die)
/-- ACCUM_TOKEN (R333). -/
def execAccumToken (q : Nat) := answer (planAccum q)

end Sys2Proof.Machine
end

