-- ==== Sys2Proof/Machine/Root.lean ====
section
/-!
DEFINITION. Root reductions and the global norm (R338 to R341), the leases that a NORM item releases (R346), and the
arrivals that complete a contribution.
-/
namespace Sys2Proof.Machine

/-- Ranks of the job that are LIVE in the view, ascending, this module among them. -/
def State.liveRanks (s : State) : List Nat := (List.range s.jobN).filter s.live

/-- The root: the lowest rank LIVE in the view (R338). -/
def State.root (s : State) : Nat := s.liveRanks.headD s.rank

def isRoot (item step : Nat) (h : RootHop) : Bool := h.item == item && h.step == step

/-- The reduction of an item and a step, as far as begun. -/
def State.rootHop (s : State) (item step : Nat) : RootHop := (s.coll.roots.find? (isRoot item step)).getD { item, step }

/-- A reduction takes a new state. -/
def setRoot (h : RootHop) : Upd :=
  .coll (fun c => { c with roots := c.roots.filter (fun x => !isRoot h.item h.step x) ++ [h] })

/-- The identity of a function (R339). -/
def rootId (func : Nat) : Nat :=
  match func with
  | 1 => 2 ^ 64 - 1
  | 4 => 2 ^ 63 - 1
  | 5 => 2 ^ 63
  | 6 => 2 ^ 64 - 1
  | _ => 0

/-- Two words combine (R339). -/
def rootOp (func a b : Nat) : Nat :=
  match func with
  | 1 => a &&& b
  | 2 => a ||| b
  | 3 => a ^^^ b
  | 4 => if sext 64 a ≤ sext 64 b then a else b
  | 5 => if sext 64 b ≤ sext 64 a then a else b
  | 6 => min a b
  | 7 => max a b
  | _ => (a + b) % 2 ^ 64

/-- The result of a reduction: contributions combine in ascending rank (R338 to R340). -/
def rootCombine (func words : Nat) (got : List (Nat × List Nat)) : List Nat :=
  let vs := (got.mergeSort (fun a b => a.1 ≤ b.1)).map (·.2)
  if func = 0 then
    let g := fp32cSum (vs.map (fun v => (v.getD 0 0, v.getD 1 0)))
    [g.1, g.2]
  else vs.foldl (fun acc v => (List.range words).map (fun i => rootOp func (acc.getD i 0) (v.getD i (rootId func))))
    (List.replicate words (rootId func))

/-- Bytes of a contribution or a result: FP32 words of NORM, 64-bit words of the others (R383). -/
def rootBytes (func : Nat) (v : List Nat) : List Nat := (v.map (leBytes (if func = 0 then 4 else 8))).flatten

/-- Words of a contribution's payload. -/
def rootWords (func words : Nat) (payload : List Nat) : List Nat :=
  if func = 0 then [fieldOf payload 0 4, fieldOf payload 4 4]
  else (List.range words).map (fun i => fieldOf payload (8 * i) 8)

/-- ARG1 of a reduction's frames: FUNC and WORDS - 1 (R383). -/
def rootArg (func words : Nat) : Nat := func + (if func = 0 then 0 else (words - 1) * 16)

/-- The root closes a reduction: it combines what it has and sends the result to every LIVE rank (R338). -/
def rootClose (item step : Nat) : Plan := fun s =>
  let h := s.rootHop item step
  let v := rootCombine h.func h.words h.got
  plans [fun s' => [setRoot { h with closed := true }, s'.addF .COLL_MISSING_ROOT (s'.jobN - h.got.length)],
    planEach s.liveRanks (fun r =>
      let self := b2n (h.got.any (fun g => g.1 == r))
      let bs := rootBytes h.func v ++ leBytes 4 h.got.length ++ [self]
      toRank r 0 { op := 0x32, step := step, arg0 := item, arg1 := rootArg h.func h.words
                   payload := bs ++ List.replicate (roundUp bs.length 8 - bs.length) 0 })] s

/-- The root closes once every LIVE rank has contributed (R338). -/
def rootCheck (item step : Nat) : Plan := fun s =>
  let h := s.rootHop item step
  if s.root = s.rank ∧ ¬ h.closed ∧ s.liveRanks.all (fun r => h.got.any (fun g => g.1 == r)) then rootClose item step s
  else []

/-- A contribution arrives at a module: kept at the root, or forwarded to the module's own root; after the close it is late
and discarded (R338, R342). A forwarded one names its origin in ARG1 (notes/assumptions/52.md). -/
def takeContrib (origin : Nat) (b : GtBody) : Plan := fun s =>
  let func := min (bits b.arg1 0 4) 8
  let words := bits b.arg1 4 5 + 1
  let h := s.rootHop b.arg0 b.step
  if s.root ≠ s.rank then
    toRank s.root 0 { b with arg1 := putBits (putBits b.arg1 15 1 1) 16 16 origin } s
  else if h.closed ∨ (¬ h.issued ∧ b.step + 2 ≤ s.get .BEAT_STEP_STEP) then lateDrop 1 s
  else if h.got.any (fun g => g.1 == origin) then []
  else
    let h' := if h.issued then h else { h with func, words }
    plans [fun _ => [setRoot { h' with got := h.got ++ [(origin, rootWords h'.func h'.words b.payload)] }],
      rootCheck b.arg0 b.step] s

/-- A root contribution arrives from a rank. -/
def recvContrib (rank : Nat) (b : GtBody) : Plan := fun s =>
  if b.arg0 ≥ 256 then [] else takeContrib (if b.arg1.testBit 15 then bits b.arg1 16 16 else rank) b s

/-- This module's contribution is formed and goes to its root (R338). -/
def contribute (item step : Nat) (v : List Nat) : Plan := fun s =>
  let h := s.rootHop item step
  plans [fun _ => [setRoot { h with own := some v }],
    toRank s.root 0 { op := 0x31, step := step, arg0 := item, arg1 := rootArg h.func h.words
                      payload := rootBytes h.func v }] s

/-! The module partial (R251, R340). -/

/-- The keys of the shards in the directory that this module owns. -/
def State.ownedShards (s : State) : List Nat :=
  (List.range (s.get .COLL_DIR_COUNT)).filterMap (fun i =>
    match s.dirAt i with
    | some d => if dirOwner d = s.rank then some (dirKey d) else none
    | none => none)

/-- Shard partials of a token: up to 16 of key, hi and lo (R340). -/
def tokenPartials (t : Nat) : List (Nat × Nat × Nat) :=
  (List.range 16).map (fun i => (recGet t (16 * i) 8, recGet t (16 * i + 8) 4, recGet t (16 * i + 12) 4))

/-- The partials of owned shards that a token adds to those received. -/
def addPartials (owned : List Nat) (t : Nat) (have' : List (Nat × Nat × Nat)) : List (Nat × Nat × Nat) :=
  (tokenPartials t).foldl (fun acc p =>
    if owned.contains p.1 && !acc.any (fun a => a.1 == p.1) then acc ++ [p] else acc) have'

/-- The module partial: the stacks' partials in stack order, then the shards' in ascending key (R251). -/
def State.modulePartial (s : State) (shards : List (Nat × Nat × Nat)) : Pair :=
  let parts := (List.range 16).map (fun st => (s.get .SILT_NORM_PART_HI st, s.get .SILT_NORM_PART_LO st))
  fp32cSum (parts ++ (shards.mergeSort (fun a b => a.1 ≤ b.1)).map (·.2))

/-- Tokens on a NORM item's QIN are taken while shard partials are awaited. -/
def feedShards (item step : Nat) : Plan := fun s =>
  let qin := itemQin (s.get .COLL_WORK_ITEM item)
  let owned := s.ownedShards
  planEach (if qin = 0x1FFF then [] else (s.queue qin).buf) (fun tok s' =>
    let h := s'.rootHop item step
    if h.shards.length ≥ owned.length then []
    else plans [takeToken qin, fun _ => [setRoot { h with shards := addPartials owned tok.toNat h.shards }]] s') s

/-- An issued reduction without this module's contribution forms it once it can (R339, R340). -/
def rootFeed (item step : Nat) : Plan := fun s =>
  let h := s.rootHop item step
  if ¬ h.issued ∨ h.own.isSome then []
  else if h.func = 0 then
    plans [feedShards item step, fun s' =>
      let h' := s'.rootHop item step
      if (List.range 16).all (fun st => s'.isClosed st step) ∧ h'.shards.length ≥ s'.ownedShards.length then
        let p := s'.modulePartial h'.shards
        contribute item step [p.1, p.2] s'
      else []] s
  else
    let qin := itemQin (s.get .COLL_WORK_ITEM item)
    match (if qin = 0x1FFF then [] else (s.queue qin).buf) with
    | tok :: _ => plans [takeToken qin, contribute item step (rootWords h.func h.words (leBytes 256 tok.toNat))] s
    | [] => []

/-- Every reduction that waits for its own contribution looks again. -/
def rootFeeds : Plan := fun s =>
  planEach (s.coll.roots.filter (fun h => h.issued && h.own.isNone)) (fun h => rootFeed h.item h.step) s

/-- At its NORM item the requester releases every lease it holds, in frames of entries (R346, R383). -/
def releaseLeases : Plan := fun s =>
  let ranks := (s.coll.borrowed.map (·.rank)).eraseDups
  plans [planEach ranks (fun r s' =>
      let es := (s'.coll.borrowed.filter (fun l => l.rank == r)).map (fun l => leBytes 8 l.key ++ leBytes 8 l.version)
      if !s'.live r then []
      else planEach ((List.range ((es.length + 511) / 512)).map (fun i => (es.drop (512 * i)).take 512)) (fun part =>
        toRank r 0 { op := 0x36, arg0 := part.length, payload := part.flatten }) s'),
    fun _ => [.coll (fun c => { c with borrowed := [] })]] s

/-- COLL_ROOT (R330, R338): the item's slice issues its reduction. -/
def planRoot (die : Nat) : Plan := fun s =>
  match s.collItem die with
  | some (_, item, w) =>
    let step := s.get .BEAT_STEP_STEP
    let h := s.rootHop item step
    if itemOp w ≠ 1 ∨ (itemFunc w = 0 ∧ die = 1) then []
    else plans [startSlice 4 die,
      if h.issued then fun _ => []
      else plans [fun _ => [setRoot { h with
            func := itemFunc w, words := itemWords w, issued := true
            due := s.get .BEAT_COUNT_COUNT + s.policy 1 (itemClass w) 16 }],
          if itemFunc w = 0 then releaseLeases else fun _ => [], rootFeed item step],
      fun _ => [endSlice 4 die 0]] s
  | none => []

/-- COLL_EMPTY_ITEM (R330). -/
def planCollEmpty (die : Nat) : Plan := fun s =>
  match s.collItem die with
  | some (_, _, w) =>
    if itemOp w ≥ 3 ∨ (itemOp w = 1 ∧ itemFunc w = 0 ∧ die = 1) then
      plans [startSlice 4 die, fun _ => [endSlice 4 die 0]] s
    else []
  | none => []

/-! Results (R338 to R340). -/

/-- A root result arrives from a rank: the first of an item and a step is used. -/
def recvResult (rank : Nat) (b : GtBody) : Plan := fun s =>
  let h := s.rootHop b.arg0 b.step
  let func := min (bits b.arg1 0 4) 8
  let words := bits b.arg1 4 5 + 1
  let v := rootWords func words b.payload
  let o := if func = 0 then 8 else 8 * words
  let included := fieldOf b.payload o 4
  let self := fieldOf b.payload (o + 4) 1
  let w := s.get .COLL_WORK_ITEM b.arg0
  let out : List Nat → Plan := fun bs =>
    if itemOp w = 1 ∧ (s.img.queueRec (itemQout w)).isSome then freeSend (itemQout w) [ofLe bs] else fun _ => []
  if b.arg0 ≥ 256 ∨ h.used then []
  else if func = 0 then
    let n := fsqrt (v.getD 0 0)
    plans [fun _ => [setRoot { h with used := true }, setF .COLL_ROOT_INCLUDED included,
        setF .COLL_ROOT_SELF_IN (self % 2), setF .COLL_ROOT_VALID 1, setF .COLL_ROOT_ROOT rank,
        setF .COLL_ROOT_STEP (b.step % 65536)],
      deliverNorm b.step (v.getD 0 0) (v.getD 1 0), replayFwds b.step,
      out (leBytes 4 (v.getD 0 0) ++ leBytes 4 (v.getD 1 0) ++ leBytes 4 n ++ leBytes 4 included)] s
  else
    plans [fun _ => [setRoot { h with used := true }], out (rootBytes func v ++ leBytes 4 included ++ [self])] s

/-- A rank is LOST, `old` being the root before: contributions without a result go to the new root, and reductions that
awaited only that rank close (R338). -/
def rootLost (old : Nat) : Plan := fun s =>
  plans [if old = s.root then fun _ => []
      else planEach (s.coll.roots.filter (fun h => !h.used)) (fun h s' =>
        match h.own with
        | some v => contribute h.item h.step v s'
        | none => []),
    planEach (s.coll.roots.filter (fun h => !h.closed && (h.issued || !h.got.isEmpty))) (fun h => rootCheck h.item h.step)] s

/-- HOP_DEADLINE (R337, R338, R341): the hops whose deadline has passed close. A reduction whose result this module has from
an earlier root closes only where contributions have come to this module as the root since. -/
def planHopDeadline : Plan := fun s =>
  let beat := s.get .BEAT_COUNT_COUNT
  plans [planEach (s.coll.chains.filter (fun h => !h.done && decide (h.due ≤ beat))) chainAlone,
    fun s' => planEach (s'.coll.roots.filter (fun h =>
        h.issued && !h.closed && (!h.used || !h.got.isEmpty) && decide (h.due ≤ beat) && s'.root == s'.rank)) (fun h => rootClose h.item h.step) s'] s

/-! Arrivals that complete something at once. -/

/-- TOKEN_ARRIVAL (R35, R39): the token is visible at its consumer; a collective engine takes what it waits for. -/
def planToken (q : Nat) : Plan := plans [planTokenArrival q, rootFeeds]

/-- CREDIT_ARRIVAL (R38): tokens that waited for the credit depart. -/
def planCredit (q : Nat) : Plan := plans [planCreditArrival q, drainOutbox q]

/-- SILT_CLOSE (R247, R267): the last stack to close completes the module partial (R251). -/
def planCloseNorm (stack : Nat) : Plan := plans [planClose stack, rootFeeds]

/-- COLL_ROOT (R338). -/
def execCollRoot (die : Nat) := answer (planRoot die)
/-- COLL_EMPTY_ITEM (R330). -/
def execCollEmptyItem (die : Nat) := answer (planCollEmpty die)
/-- HOP_DEADLINE (R341). -/
def execHopDeadline := answer planHopDeadline
/-- TOKEN_ARRIVAL (R35). -/
def execTokenArrival (q : Nat) := answer (planToken q)
/-- SILT_CLOSE (R247, R267). -/
def execSiltClose (stack : Nat) := answer (planCloseNorm stack)

end Sys2Proof.Machine
end

