-- ==== Sys2Proof/Machine/Spring.lean ====
section
/-!
DEFINITION. Spring: the retention ring and its records (R270 to R278), cuts and marks (R279 to R285), and
acknowledgement, durability and release (R286 to R288).
-/
namespace Sys2Proof.Machine

def u64max : Nat := 2 ^ 64 - 1
def noStep : Nat := 2 ^ 44 - 1

/-! Pairs of sinks (R287). -/

/-- The lowest sink of a sink's pair, which names the pair. -/
def State.pairId (s : State) (k : Nat) : Nat :=
  let p := s.get .SPRING_SINK_STATE_PAIR k
  if p = 255 then k else min k p

def State.members (s : State) (p : Nat) : List Nat := (List.range 8).filter (fun k => s.sinkSt k != 0 && s.pairId k == p)

/-- The declared pairs, by their lowest sink. -/
def State.pairs (s : State) : List Nat := (List.range 8).filter (fun k => s.sinkSt k != 0 && s.pairId k == k)

def State.pairOn (s : State) (p : Nat) : Bool := Sparse.get 0 s.spring.off p == 0
def State.enabledPairs (s : State) : List Nat := s.pairs.filter s.pairOn

/-- A sink's acknowledged SEQ plus one; 0 for none. -/
def State.ackOf (s : State) (k : Nat) : Nat :=
  let x := s.get .SPRING_SINK_ACKED_SEQ k
  if x = u64max then 0 else x + 1

/-- A pair's: the greater of its members' (R287). -/
def State.pairAck (s : State) (p : Nat) : Nat := ((s.members p).map s.ackOf).foldl max 0

/-- The active member of a pair. -/
def State.activeOf (s : State) (p : Nat) : Option Nat := (s.members p).find? (fun k => s.sinkSt k == 2)

def setSink (k : Nat) (f : Sink → Sink) : Upd :=
  .spring (fun x => { x with sinks := Sparse.set {} x.sinks k (f (Sparse.get {} x.sinks k)) })

/-- PAIR_DOWN says that an enabled pair has no active member. -/
def notePairs : Plan := fun s =>
  [setF .SPRING_STATUS_PAIR_DOWN (b2n (s.enabledPairs.any (fun p => (s.activeOf p).isNone)))]

/-! The ring (R270 to R272, R82). -/

/-- Base and bytes of the ring: the SPRING class region. -/
def State.ringRegion (s : State) : Nat × Nat := let (b, n) := s.region 7 0; (b * 65536, n * 65536)

/-- Whether bytes of the region hold no record. -/
def State.ringGap (s : State) (a n : Nat) : Bool :=
  let (b, z) := s.ringRegion
  b ≤ a && a + n ≤ b + z && s.spring.ring.all (fun r => r.addr + r.len ≤ a || a + n ≤ r.addr)

/-- Where the next record goes if the region does not end before it has: the head. -/
def State.ringHead (s : State) : Nat :=
  let (b, z) := s.ringRegion
  if b ≤ s.spring.head ∧ s.spring.head ≤ b + z then s.spring.head else b

/-- The PAD bytes in front of a record of `len` bytes, and its address, if it finds room (R272). A rest of the region
shorter than a header stays unfilled (notes/assumptions/45.md). -/
def State.ringPlace (s : State) (len : Nat) : Option (Nat × Nat) :=
  let (b, z) := s.ringRegion
  let h := s.ringHead
  let rest := b + z - h
  if len ≤ rest then (if s.ringGap h len then some (0, h) else none)
  else if !s.ringGap b len ∨ len > z then none
  else if rest < 32 then some (0, b)
  else if s.ringGap h rest then some (rest, b) else none

/-- Bytes in use. -/
def State.ringUse (s : State) : Nat := (s.spring.ring.map (·.len)).foldl (· + ·) 0

/-- The flush pair: the enabled one with the highest acknowledged SEQ, lowest sink on ties (R293). -/
def State.flushPair (s : State) : Option Nat :=
  s.enabledPairs.foldl (fun m p => match m with
    | none => some p
    | some q => if s.pairAck p > s.pairAck q then some p else some q) none

/-- The next SEQ to send to a pair. -/
def State.pairNext (s : State) (p : Nat) : Nat :=
  match s.activeOf p with
  | some k => (s.sink k).next
  | none => s.pairAck p

/-- Bytes not yet sent to the flush pair. -/
def State.unsent (s : State) : Nat :=
  match s.flushPair with
  | some p => ((s.spring.ring.filter (fun r => r.seq ≥ s.pairNext p)).map (·.len)).foldl (· + ·) 0
  | none => 0

/-- The conditions of the ring after a change (R82, R288, R294). -/
def noteRing : Plan := fun s =>
  let high := s.ringUse * 8 ≥ s.ringRegion.2 * 7 && s.ringUse > 0
  let risk := s.unsent > s.get .SPRING_CFG_LG_BUDGET * 2 ^ 20
  let oldest := match s.spring.ring with | r :: _ => r.seq | [] => s.get .SPRING_SEQ_NEXT_SEQ
  plans [fun _ => [setF .SPRING_SEQ_RETAINED_SEQ oldest, setF .SPRING_STATUS_RING_HIGH (b2n high),
      .spring (fun x => { x with risk := risk })],
    if high && s.get .SPRING_STATUS_RING_HIGH == 0 then postEvent 0x20 4 0 0 s.ringUse 0 else fun _ => [],
    if risk && !s.spring.risk then plans [fun _ => [setF .SPRING_STATUS_LG_AT_RISK 1],
      postEvent 0x24 4 0 0 s.unsent 0] else fun _ => []] s

/-- SEQ and STEP of the records that close a cut: MARK, SKIP, and an OPEN that stands for steps (R278, R282). -/
def cutsOf (rs : List RingRec) : List (Nat × Nat) :=
  (rs.filter (fun r => (r.type == 0x10 || r.type == 0x11 || r.type == 0x20) && r.step != noStep)).map (fun r => (r.seq, r.step))

/-- A record is released once every enabled pair has acknowledged it, and none is while no pair is enabled (R288;
notes/assumptions/49.md). -/
def releaseRing : Plan := fun s =>
  let next := s.get .SPRING_SEQ_NEXT_SEQ
  let keep := if s.enabledPairs.isEmpty then 0 else (s.enabledPairs.map s.pairAck).foldl min next
  let gone := s.spring.ring.filter (fun r => r.seq < keep)
  if gone.isEmpty then []
  else
    plans [fun _ => [.spring (fun x => { x with
        ring := x.ring.filter (fun r => !(r.seq < keep)), past := x.past ++ cutsOf gone })], noteRing] s

/-- The durable SEQ plus one under DURABLE_MODE (R287); 0 for none. -/
def State.durableSeq (s : State) : Nat :=
  let as := s.enabledPairs.map s.pairAck
  if s.get .SPRING_CFG_DURABLE_MODE = 0 then as.foldl max 0 else minOf 0 as

/-- SPRING_DURABLE takes its value: at clk 3 of a boundary while the module runs, and at once otherwise (R282;
notes/assumptions/47.md). -/
def noteDurable : Plan := fun s =>
  let cuts := (s.spring.past ++ cutsOf s.spring.ring).filter (fun c => c.1 < s.durableSeq)
  [setF .SPRING_DURABLE_STEP ((cuts.map (·.2)).foldl max 0), setF .SPRING_DURABLE_VALID (b2n (!cuts.isEmpty))]

def noteDurableIfHeld : Plan := fun s => if s.running then [] else noteDurable s

/-! Appending (R271 to R273). -/

/-- A record with a SEQ, the generation active as it is appended, and HCRC (R271, R273). -/
def State.sealedAs (s : State) (seq : Nat) (bs : List Nat) : List Nat :=
  let h := bs.take 8 ++ leBytes 8 seq ++ (bs.drop 16).take 8 ++ leBytes 4 (s.get .CLAY_GEN_ACTIVE)
  h ++ leBytes 4 (crc32c h) ++ bs.drop 32

/-- A record as Spring appends it: it takes the next SEQ. -/
def State.sealed (s : State) (bs : List Nat) : List Nat := s.sealedAs (s.get .SPRING_SEQ_NEXT_SEQ) bs

/-- A Drift record's STEP is the step current on the clk it is appended (R273). -/
def State.stampNow (s : State) (bs : List Nat) : List Nat :=
  bs.take 16 ++ leBytes 8 (fieldOf bs 16 8 / 2 ^ 44 * 2 ^ 44 + s.get .BEAT_STEP_STEP) ++ bs.drop 24

/-- The cut that a record counts in, by its type (R277). -/
def cutCount (type step : Nat) : List Upd :=
  if type = 1 then [cutAdd step (fun c => { c with rows := c.rows + 1 })]
  else if 2 ≤ type ∧ type ≤ 4 then [cutAdd step (fun c => { c with drift := c.drift + 1 })]
  else if type = 5 then [cutAdd step (fun c => { c with dense := c.dense + 1 })]
  else []

/-- A record goes into the ring at an address with the next SEQ. -/
def putRecord (a : Nat) (bs : List Nat) : Plan := fun s =>
  let seq := s.get .SPRING_SEQ_NEXT_SEQ
  let step := fieldOf bs 16 8 % 2 ^ 44
  plans [writeMem a (s.sealed bs), fun _ =>
    [setF .SPRING_SEQ_NEXT_SEQ (seq + 1),
     .spring (fun x => { x with ring := x.ring ++ [⟨seq, a, bs.length, bs.getD 0 0, step⟩], head := a + bs.length })] ++
    cutCount (bs.getD 0 0) step] s

/-- Whether a record finds room. -/
def State.ringRoom (s : State) (n : Nat) : Bool := (s.ringPlace n).isSome

/-- A record is appended, after a PAD where the region ends before it (R272); without room nothing is. -/
def appendRecord (bs : List Nat) : Plan := fun s =>
  match s.ringPlace bs.length with
  | some (pad, a) => plans [
      (if pad = 0 then fun _ => []
       else putRecord s.ringHead (recHeader 0x3F 0 s.rank pad 0 ++ List.replicate (pad - 32) 0)),
      putRecord a bs, noteRing, releaseRing] s
  | none => []

/-! Emitters held for room (R82). Emitters 0 to 15 are the Silt engines, 16 is Spring, 17 and up are queues. -/

def State.stuck (s : State) (e : Nat) : Bool := Sparse.get 0 s.spring.stuck e == 1

def setStuck (e v : Nat) : Upd := .spring (fun x => { x with stuck := Sparse.set 0 x.stuck e v })

/-- A window is to end at the end of a step (R283); what asked first names the reason. -/
def closeWindow (step why : Nat) : Plan := fun s =>
  if s.spring.closeAt = 0 then [.spring (fun x => { x with closeAt := step + 1, closeWhy := why })] else []

/-- Bytes held in the coalescing buffer, and its size. -/
def State.heldBytes (s : State) : Nat := (s.spring.held.map (·.len)).foldl (· + ·) 0
def State.coalSize (s : State) : Nat := (s.region 8 0).2 * 65536

/-- The step of a held record. -/
def Coal.step (h : Coal) : Nat := bits h.val 128 44

/-- The last step of the window under way (R283). While its mark waits, records of later steps belong to the next one. -/
def State.windowEnd (s : State) : Nat :=
  let full := s.spring.markNext - s.get .SPRING_COALESCE_POSITION + s.get .SPRING_COALESCE_W - 1
  if s.spring.closeAt = 0 then full else min full (s.spring.closeAt - 1)

/-- A held record that one of a key, FIRST and step replaces: of the same window (R284). -/
def State.sameHeld (s : State) (key first step : Nat) (h : Coal) : Bool :=
  h.key == key && h.first == first && (decide (h.step ≤ s.windowEnd) == decide (step ≤ s.windowEnd))

/-- FIRST of a record, where it has one. -/
def recFirst (bs : List Nat) : Nat := if bs.getD 0 0 = 5 then fieldOf bs 40 4 else 0

/-- A ROW or DENSE record of an open window is held, replacing one of its key and FIRST; or the buffer is full, the
window closes with the step, and the record is appended (R82, R284). -/
def holdRecord (bs : List Nat) : Plan := fun s =>
  let key := fieldOf bs 32 8
  let first := recFirst bs
  let same := s.sameHeld key first (fieldOf bs 16 8 % 2 ^ 44)
  if s.spring.held.any same then
    let new : Coal := ⟨key, first, true, bs.length, ofLe (bs.take 1 ++ [1] ++ bs.drop 2)⟩
    [.spring (fun x => { x with held := x.held.map (fun h => if same h then new else h) }),
     s.addF .SPRING_COALESCE_MERGED 1]
  else if s.heldBytes + bs.length ≤ s.coalSize then
    [.spring (fun x => { x with held := x.held ++ [⟨key, first, false, bs.length, ofLe bs⟩] })]
  else
    let new := s.spring.closeAt = 0
    plans [closeWindow (s.get .BEAT_STEP_STEP) 1,
      (if new then fun s' => [s'.addF .TIER_CLASS_EVENTS_FULL 1 (8 * 256), s'.addF .TIER_CLASS_EVENTS_OUTCOME 1 (8 * 256)]
       else fun _ => []),
      appendRecord bs] s

/-- A held record is appended and leaves the buffer, where the ring has room. -/
def flushOne (h : Coal) : Plan := fun s =>
  if s.ringRoom h.len then
    plans [fun _ => [.spring (fun x => { x with held := x.held.filter (· != h) })], appendRecord (leBytes h.len h.val)] s
  else []

/-- The held ROW of a key is appended before a Drift record of the key (R285). -/
def flushKey (key : Nat) : Plan := fun s =>
  planEach ((s.spring.held.filter (fun h => h.key == key && h.first == 0)).mergeSort (fun a b => a.step ≤ b.step)) flushOne s

/-- A record that an emitter offers is held or appended, and leaves the emitter; without room the emitter is held. Once
slices have stopped for a loss of input, nothing is held (R293). -/
def offerRecord (e : Nat) (bs : List Nat) (pop : Plan) : Plan := fun s =>
  let type := bs.getD 0 0
  let drift := decide (2 ≤ type ∧ type ≤ 4)
  let window := decide (s.get .SPRING_COALESCE_W > 1 ∧ s.var .lgPhase < 2) && (type == 1 || type == 5)
  let fits := window && (s.spring.held.any (s.sameHeld (fieldOf bs 32 8) (recFirst bs) (fieldOf bs 16 8 % 2 ^ 44)) ||
    s.heldBytes + bs.length ≤ s.coalSize)
  plans [if drift then flushKey (fieldOf bs 32 8) else fun _ => [], fun s' =>
    let blocked := (drift ∧ s'.spring.held.any (fun h => h.key == fieldOf bs 32 8 && h.first == 0)) ∨
      (e ≠ 16 ∧ Sparse.get [] s'.spring.link 16 ≠ []) ∨ (!fits && !s'.ringRoom bs.length)
    if blocked then [setStuck e 1]
    else plans [if window then holdRecord bs else appendRecord (if drift then s'.stampNow bs else bs), pop] s'] s

/-- The next item of a link: a record, or a notice, which counts in its step's cut (R267, R279). -/
def linkItem (e : Nat) : Plan := fun s =>
  let pop : Plan := fun _ => [.spring (fun x => { x with link := Sparse.set [] x.link e ((Sparse.get [] x.link e).drop 1) })]
  match Sparse.get [] s.spring.link e with
  | [] => []
  | .notice step skip _ :: _ =>
    plans [pop, fun _ => [cutAdd step (fun c => { c with notes := c.notes + 1, skips := c.skips + b2n skip })]] s
  | .record len val :: _ => offerRecord e (leBytes len val) pop s

/-- A dense owner's tokens up to the end of one record, end token or discarded record (R271, R276). -/
def denseItem (q : Nat) : Nat → Plan
  | 0 => fun _ => []
  | fuel + 1 => fun s =>
    let d := Sparse.get {} s.spring.dense q
    let setD : DenseIn → Upd := fun v => .spring (fun x => { x with dense := Sparse.set {} x.dense q v })
    match (s.queue q).buf with
    | [] => []
    | t :: _ =>
      let tok := leBytes 256 t.toNat
      if d.left = 0 then
        let type := tok.getD 0 0
        let len := fieldOf tok 4 4
        let n := max 1 ((len + 255) / 256)
        if type = 0x0E ∧ len = 32 then
          let step := fieldOf tok 16 8 % 2 ^ 44
          plans [takeToken q, fun _ => [cutAdd step (fun c => { c with ends := c.ends + 1 })]] s
        else if type ≠ 5 ∨ len % 8 ≠ 0 ∨ len < 32 ∨ len > 65600 then
          plans [takeToken q, fun s' => [setD { left := n - 1, drop := true }, s'.addF .SPRING_REFILL_MALFORMED 1]] s
        else if n = 1 then offerRecord (17 + q) (tok.take len) (takeToken q) s
        else plans [takeToken q, fun _ => [setD { left := n - 1, bytes := tok }], denseItem q fuel] s
      else if d.drop then
        plans [takeToken q, fun _ => [setD (if d.left = 1 then {} else { d with left := d.left - 1 })], denseItem q fuel] s
      else if d.left = 1 then
        let bs := d.bytes ++ tok
        offerRecord (17 + q) (bs.take (fieldOf bs 4 4)) (plans [takeToken q, fun _ => [setD {}]]) s
      else plans [takeToken q, fun _ => [setD { d with left := d.left - 1, bytes := d.bytes ++ tok }], denseItem q fuel] s

/-- An emitter passes its next item to Spring, after `wait` clk of back-pressure (R82, R270). -/
def planRecord (e wait : Nat) : Plan := fun s =>
  let was := s.stuck e
  plans [fun s' => setStuck e 0 :: (if was then [s'.addF .TIER_CLASS_EVENTS_OUTCOME wait (7 * 256)] else []),
    if e ≤ 16 then linkItem e
    else if s.consKind (e - 17) = 3 then denseItem (e - 17) (s.queue (e - 17)).buf.length
    else fun _ => [],
    fun s' => setF .SPRING_STATUS_BACKPRESSURE (b2n (!s'.spring.stuck.isEmpty)) ::
      (if s'.stuck e && !was then [s'.addF .TIER_CLASS_EVENTS_FULL 1 (7 * 256)] else [])] s

/-- A Drift record, as an item of a link. -/
def LinkItem.isDrift : LinkItem → Bool
  | .record _ val => decide (2 ≤ val % 256 ∧ val % 256 ≤ 4)
  | .notice _ _ _ => false

/-- What a stack's Drift emits at clk 1 of a boundary reaches Spring on that clk, with what stands before it in the link: the
records belong to the step that ends there (R270, R273). -/
def drainDrift : Plan := planEach (List.range 16) (fun e s =>
  let l := Sparse.get [] s.spring.link e
  planEach (List.range (l.length - l.reverse.findIdx LinkItem.isDrift)) (fun _ => planRecord e 0) s)

/-- Every record that emitters have passed is appended, as far as the ring has room; the rest waits at Spring's own link.
What a reset finds not yet appended is so kept (R300). -/
def appendAll : Plan := fun s =>
  let held := (s.spring.held.mergeSort (fun a b => a.step < b.step || (a.step == b.step && a.key ≤ b.key))).map
    (fun h => leBytes h.len h.val)
  let linked := (16 :: List.range 16).flatMap (fun e => (Sparse.get [] s.spring.link e).filterMap (fun i => match i with
    | .record len val => some (leBytes len val)
    | .notice _ _ _ => none))
  plans [fun _ => [.spring (fun x => { x with held := [], link := [] })],
    planEach (held ++ linked) (fun bs s' =>
      if s'.ringRoom bs.length ∧ Sparse.get [] s'.spring.link 16 = [] then appendRecord bs s'
      else [.spring (fun x => { x with
        link := Sparse.set [] x.link 16 (Sparse.get [] x.link 16 ++ [.record bs.length (ofLe bs)]) })])] s

/-! OPEN and marks (R277 to R284). -/

/-- COALESCE_STEPS of the active image (R170). -/
def State.windowPolicy (s : State) : Nat := min 64 (max 1 (s.policy 4 0 1))

/-- An OPEN record for a first step (R278). -/
def openRecord (s : State) (start : Bool) (first : Nat) : List Nat :=
  let step := (first + 2 ^ 44 - 1) % 2 ^ 44
  recHeader 0x20 0 s.rank 72 step ++ leBytes 4 (s.get .SPRING_EPOCH_EPOCH) ++ leBytes 2 s.jobN ++
    leBytes 2 (s.prevN.getD 0) ++ leBytes 8 (if start then s.get .SPRING_OPEN_BASE_BASE else step) ++
    leBytes 2 s.windowPolicy ++ leBytes 6 0 ++ leBytes 16 (s.img.meas % 2 ^ 128)

/-- Spring opens a journal or a generation (R278): at START, at a flip, or at an activation in HOLD. At a flip the marks
of earlier steps are still due; otherwise closing begins with the first step under the image (R281, R283). -/
def springOpen (start flip : Bool) (first : Nat) : Plan := fun s =>
  let bs := openRecord s start first
  plans [(if s.ringRoom bs.length ∧ Sparse.get [] s.spring.link 16 = [] then appendRecord bs
      else fun _ => [.spring (fun x => { x with
        link := Sparse.set [] x.link 16 (Sparse.get [] x.link 16 ++ [.record bs.length (ofLe bs)]) })]),
    fun _ => [.spring (fun x => { x with prevCut := 0 }), setF .SPRING_MARKED_VALID 0],
    fun s' => if flip then []
      else [.spring (fun x => { x with
          markNext := first, closeAt := 0, closeWhy := 0, cuts := x.cuts.filter (fun p => first ≤ p.1) })] ++
        (if s'.spring.held.isEmpty then [setF .SPRING_COALESCE_W s'.windowPolicy, setF .SPRING_COALESCE_POSITION 0]
         else [])] s

def State.cut (s : State) (step : Nat) : Cut := Sparse.get {} s.spring.cuts step

/-- The held records of steps through `last`, in the order in which the window's end appends them (R284). -/
def State.heldOrder (s : State) (last : Nat) : List Coal :=
  (s.spring.held.filter (fun h => decide (h.step ≤ last))).mergeSort
    (fun a b => a.key < b.key || (a.key == b.key && a.first ≤ b.first))

/-- The held records of a window that ends with a step are appended, as far as the ring has room. -/
def flushHeld (last : Nat) : Plan := fun s => planEach (s.heldOrder last) flushOne s

/-- Sums over the steps of a cut, each saturating at 32 bits. -/
def State.cutSum (s : State) (last n : Nat) (f : Cut → Nat) : Nat :=
  min (2 ^ 32 - 1) (((List.range n).map (fun i => f (s.cut (last - i)))).foldl (· + ·) 0)

/-- The MARK or SKIP of a window of `n` steps that ends with step `last` (R277). -/
def markRecord (s : State) (skip : Bool) (last n close : Nat) : List Nat :=
  let prev := s.spring.prevCut
  let c := s.cut last
  recHeader (if skip then 0x11 else 0x10) 0 s.rank 96 last ++
  leBytes 8 (if prev = 0 then u64max else prev - 1) ++ leBytes 8 (s.cutSum last n (·.rows)) ++
  leBytes 4 (s.cutSum last n (·.dense)) ++ leBytes 4 (s.cutSum last n (·.drift)) ++
  leBytes 4 (s.cutSum last n (·.lateAdd)) ++ leBytes 4 (s.cutSum last n (·.lateDrop)) ++
  leBytes 4 (s.cutSum last n (·.mbDrop)) ++ leBytes 2 n ++
  leBytes 2 (s.cutSum last n (fun k => b2n (k.skips ≥ 16))) ++ leBytes 4 c.gHi ++ leBytes 4 c.norm ++
  leBytes 2 close ++ List.replicate 14 0

/-- Whether step s is complete at a boundary (R279). -/
def State.cutDone (s : State) (step : Nat) : Bool :=
  let c := s.cut step
  s.get .BEAT_STEP_STEP ≥ step + 1 && c.notes ≥ 16 && c.ends ≥ s.get .SPRING_DENSE_OWNERS_OWNERS &&
    Sparse.get [] s.spring.link 16 == []

/-- Spring closes its next step: inside a window it only counts it; at the window's end it appends what it held and the
mark (R279, R280, R283, R284). -/
def planMark : Plan := fun s =>
  let step := s.spring.markNext
  let c := s.cut step
  let n := s.get .SPRING_COALESCE_POSITION + 1
  let w := s.get .SPRING_COALESCE_W
  let asked := s.spring.closeAt ≠ 0 ∧ step + 1 ≥ s.spring.closeAt
  let mixed : Plan := if 0 < c.skips ∧ c.skips < 16 then
      plans [fun _ => [setF .SPRING_STATUS_MIXED_SKIP 1], postEvent 0x25 4 0 0 step 0]
    else fun _ => []
  if !s.cutDone step then []
  else if n < w ∧ ¬ asked then
    plans [fun _ => [setF .SPRING_COALESCE_POSITION n, .spring (fun x => { x with markNext := step + 1 })], mixed] s
  else plans [flushHeld step, fun s' =>
    if !(s'.heldOrder step).isEmpty ∨ !s'.ringRoom 96 then [setStuck 16 1, setF .SPRING_STATUS_BACKPRESSURE 1]
    else
      let skip := decide (c.skips ≥ 16)
      plans [appendRecord (markRecord s' skip step n (if n ≥ w then 0 else s'.spring.closeWhy)), fun s2 =>
        [.spring (fun x => { x with
            prevCut := s2.get .SPRING_SEQ_NEXT_SEQ, markNext := step + 1
            closeAt := if asked then 0 else x.closeAt, stuck := Sparse.set 0 x.stuck 16 0
            cuts := x.cuts.filter (fun p => step < p.1) }),
         setF .SPRING_MARKED_STEP step, setF .SPRING_MARKED_VALID 1, setF .SPRING_MARKED_SKIPPED (b2n skip),
         setF .SPRING_STATUS_BACKPRESSURE (b2n (s2.spring.stuck.any (fun p => p.1 != 16))),
         setF .SPRING_COALESCE_POSITION 0, setF .SPRING_COALESCE_W s2.windowPolicy] ++
        (if n < w then [s2.addF .SPRING_COALESCE_EARLY 1] else []), mixed] s'] s

/-- A write of SPRING_EPOCH (R271, R301): in STOPPED every retained record goes and SEQ begins at 0. -/
def planEpoch (v : Nat) : Plan := fun s =>
  if !s.stopped then []
  else
    [setF .SPRING_EPOCH_EPOCH v, setF .SPRING_SEQ_NEXT_SEQ 0, setF .SPRING_SEQ_RETAINED_SEQ 0,
     setF .SPRING_STATUS_RING_HIGH 0, setF .SPRING_MARKED_VALID 0, setF .SPRING_DURABLE_VALID 0,
     setF .SPRING_DURABLE_STEP 0,
     .spring (fun x => { x with
       ring := [], held := [], cuts := [], prevCut := 0, past := [], emitHalt := 0
       sinks := x.sinks.map (fun p =>
         (p.1, { p.2 with next := 0, sent := 0, incAck := 0, wrote := [], off := 0, since := 0 })) })] ++
    (List.range 8).map (fun k => setF .SPRING_SINK_ACKED_SEQ u64max k)

/-- The latches of clk 3 (R301). -/
def springLatch : Plan := plans [noteDurable, fun s =>
  let used := (s.ringUse + 4095) / 4096
  let un := (s.unsent + 4095) / 4096
  [setF .SPRING_RING_USE_USED used, setF .SPRING_RING_USE_PEAK (max used (s.get .SPRING_RING_USE_PEAK)),
   setF .SPRING_UNSENT_UNSENT un, setF .SPRING_UNSENT_PEAK (max un (s.get .SPRING_UNSENT_PEAK))]]

/-- SPRING_RECORD (R270). -/
def execSpringRecord (emitter wait : Nat) := answer (planRecord emitter wait)
/-- SPRING_MARK (R279). -/
def execSpringMark := answer planMark
/-- SPRING_COMMIT (R301). -/
def execSpringCommit := answer (fun _ => [setF .SPRING_STATUS_COMMIT_PENDING 1])
/-- CLOSE_WINDOW (R283). -/
def execCloseWindow := answer (fun s => closeWindow (s.get .BEAT_STEP_STEP) 3 s)
/-- SPRING_EPOCH_WRITE (R301). -/
def execSpringEpochWrite (epoch : Nat) := answer (planEpoch epoch)

end Sys2Proof.Machine
end

