-- ==== Sys2Proof/Machine/Sinks.lean ====
section
/-!
DEFINITION. Journal sinks: streaming over GT and RoCEv2 (R289, R292, R401, R402), acknowledgements and incarnations
(R286, R291), failover (R290), the last gasp (R293), reconnection (R272), and refill (R298, R299).
-/
namespace Sys2Proof.Machine

def State.qp (s : State) (k : Nat) : Qp := Sparse.get {} s.xport.qps k
def setQp (k : Nat) (f : Qp → Qp) : Upd :=
  .xport (fun x => { x with qps := Sparse.set {} x.qps k (f (Sparse.get {} x.qps k)) })

/-- A sink's connection is up. -/
def State.sinkUp (s : State) (k : Nat) : Bool :=
  if s.sinkRoce k then s.get .XPORT_ROCE_QP_STATE k == 1 else s.connUp (s.sinkEp k) 0

/-! DMA channels (R421). -/

/-- A DMA channel halts at a line: 0 Spring emit, 1 refill, 2 ingest. -/
def haltDma (ch a d1 : Nat) : Plan := fun s =>
  let l := canonDpa a / 64 * 64
  plans [noteRead 12 a, fun _ => [setF .ERR_DMA_STATE_HALTED 1 ch, setF .ERR_DMA_STATE_ADDR l ch],
    postEvent 3 9 (storeOf l).1 ch l d1] s

def State.dmaHalted (s : State) (ch : Nat) : Bool := s.get .ERR_DMA_STATE_HALTED ch == 1

/-! RoCEv2 (R401). -/

/-- A RoCEv2 packet from its base transport header to its padding: an address, a key and a length go with the first packet
of a write, an immediate with its own operations, and the last packet of a write asks for an acknowledgement. PRESUMED: the
InfiniBand layout (notes/assumptions/48.md). -/
def roceBytes (p : RocePkt) (qpn rkey : Nat) : List Nat :=
  let pad := (4 - p.data.length % 4) % 4
  [p.op, 16 * pad] ++ netBytes 2 0xFFFF ++ [0] ++ netBytes 3 qpn ++ [if p.op = 0x06 ∨ p.op = 0x07 then 0 else 128] ++
    netBytes 3 p.psn ++ (if p.op = 0x07 ∨ p.op = 0x08 then [] else netBytes 8 p.va ++ netBytes 4 rkey ++ netBytes 4 p.dma) ++
    (if p.op = 0x0B then netBytes 4 p.imm else []) ++ p.data ++ List.replicate pad 0

/-- The packet that an ICRC covers, from its IPv6 header on. -/
def State.rocePacket (s : State) (ep udp : Nat) (body : List Nat) : List Nat :=
  [0x60, 0, 0, 0] ++ netBytes 2 (12 + body.length) ++ [17, 0] ++ leBytes 16 (s.addrOf (s.get .PORT_FWD_CFG_OWN_ID)) ++
    leBytes 16 (s.addrOf ep) ++ udpHeader udp 4791 (body.length + 4) ++ body

/-- A packet leaves for a sink's queue pair. -/
def roceSend (k : Nat) (p : RocePkt) : Plan := fun s =>
  let d := s.sinkDecl k
  let ep := s.sinkEp k
  let udp := 0xC000 ||| ((0x100 + k) % 2 ^ 14)
  let qpn := bits (recGet d 28 4) 0 24
  let body := roceBytes p qpn (recGet d 48 4)
  let sum := icrc (s.rocePacket ep udp body)
  localFrame .roce ep udp 4791 0 [p.op, p.psn, qpn, p.va, recGet d 48 4, p.dma, p.imm, 0xFFFF, sum] p.data
    (body ++ leBytes 4 sum) s

/-- A new packet takes the next PSN; `dma` is the length of its write. -/
def roceNew (k op va imm dma : Nat) (data : List Nat) : Plan := fun s =>
  let p : RocePkt := ⟨s.get .XPORT_ROCE_QP_NEXT_PSN k, op, va, imm, data, dma⟩
  plans [roceSend k p, fun _ => [setF .XPORT_ROCE_QP_NEXT_PSN ((p.psn + 1) % 2 ^ 24) k,
    setQp k (fun q => { q with out := q.out ++ [p] })]] s

/-- An RDMA WRITE as packets of 4,096 B: First, Middle, Last, or Only (R401). -/
def roceWrite (k va : Nat) (data : List Nat) : Plan :=
  let n := (data.length + 4095) / 4096
  planEach (List.range n) (fun i =>
    let op := if n = 1 then 0x0A else if i = 0 then 0x06 else if i + 1 = n then 0x08 else 0x07
    roceNew k op (va + 4096 * i) 0 data.length ((data.drop (4096 * i)).take 4096))

/-- Whether a sink's region has room for bytes: none of them holds a record that the sink has not acknowledged. -/
def State.roceRoom (s : State) (k off n : Nat) : Bool :=
  (s.sink k).wrote.all (fun w => w.1 < s.ackOf k || w.2.1 + w.2.2 ≤ off || off + n ≤ w.2.1)

/-- Where the next record of a sink's region goes, with the PAD bytes in front of its end and their offset (R292): a record
written before goes again where it was, with the PAD that stood in front of it. -/
def State.rocePlace (s : State) (k seq len : Nat) : Option (Nat × Nat × Nat) :=
  let z := recGet (s.sinkDecl k) 40 8
  match (s.sink k).wrote.filter (fun w => w.1 == seq) with
  | [w] => some (0, w.2.1, w.2.1)
  | p :: w :: _ => some (p.2.2, p.2.1, w.2.1)
  | [] =>
    let off := (s.sink k).off
    let rest := z - off
    if len ≤ rest then (if s.roceRoom k off len then some (0, off, off) else none)
    else if len > z ∨ !s.roceRoom k off rest ∨ !s.roceRoom k 0 len then none
    else some (if rest < 32 then 0 else rest, off, 0)

/-- Spring writes a record into a RoCEv2 sink's region (R292). A PAD in front of it is no record of the journal: its SEQ,
which the spec does not give, is a free value. -/
def roceRecord (k : Nat) (r : RingRec) (bs : List Nat) : Plan := fun s =>
  let base := recGet (s.sinkDecl k) 32 8
  match s.rocePlace k r.seq r.len with
  | none => []
  | some (pad, at', off) =>
    let since := (s.sink k).since + pad + r.len
    let filler := recHeader 0x3F 0 s.rank pad 0 ++ List.replicate (pad - 32) 0
    plans [
      (if pad = 0 then fun _ => []
       else plans [roceWrite k (base + at') (s.sealedAs (s.free 64) filler),
        fun _ => [.var .freeCount 0 (s.var .freeCount + 1)]]),
      roceWrite k (base + off) bs,
      (if since ≥ 65536 ∨ r.type = 0x10 ∨ r.type = 0x11 then roceNew k 0x0B (base + off) (r.seq % 2 ^ 32) 0 []
       else fun _ => []),
      fun _ => [setSink k (fun x => { x with
        off := off + r.len, since := since % 65536
        wrote := x.wrote.filter (fun w => w.1 != r.seq) ++ (if pad = 0 then [] else [(r.seq, at', pad)]) ++
          [(r.seq, off, r.len)] })]] s

/-- Packets of the RDMA WRITEs of a record, its PAD and the immediate after them (R401). -/
def State.rocePackets (s : State) (k : Nat) (r : RingRec) : Nat :=
  (r.len + 4095) / 4096 + (match s.rocePlace k r.seq r.len with | some (pad, _) => (pad + 4095) / 4096 | none => 0) + 1

/-! Streaming (R289, R293). -/

/-- The record that a sink receives next. -/
def State.nextRecord (s : State) (k : Nat) : Option RingRec := s.spring.ring.find? (fun r => r.seq == (s.sink k).next)

/-- Whether Spring may send a sink its next record now. -/
def State.canStream (s : State) (k : Nat) (r : RingRec) : Bool :=
  let ep := s.sinkEp k
  let gasp := if s.var .lgPhase < 3 then true else
    s.var .lgPhase == 3 && s.var .lgPair == s.pairId k + 1 &&
      s.var .lgSent + r.len ≤ s.get .SPRING_CFG_LG_BUDGET * 2 ^ 20
  k < 8 && s.sinkSt k == 2 && s.pairOn (s.pairId k) && !s.dmaHalted 0 && gasp &&
  (if s.sinkRoce k then s.get .XPORT_ROCE_QP_STATE k == 1 && (s.rocePlace k r.seq r.len).isSome &&
      (s.qp k).out.length + s.rocePackets k r ≤ 128
    else s.connUp ep 0 && s.storeRoom ep r.len)

/-- Spring sends the next whole record to an active member (R289). -/
def planStream (k : Nat) : Plan := fun s =>
  match s.nextRecord k with
  | none => []
  | some r =>
    if !s.canStream k r then []
    else
      let lines := linesOf r.addr r.len
      match lines.find? s.lineBad with
      | some l => plans [haltDma 0 l r.seq, fun _ => [.spring (fun x => { x with emitHalt := r.seq + 1 })]] s
      | none =>
        let bs := s.bytesAt r.addr r.len
        let ch := if s.var .lgPhase = 3 then r.seq % 2 else 0
        let was := ((s.members (s.pairId k)).map (fun j => (s.sink j).sent)).foldl max 0
        let idle := (s.sink k).next ≤ s.pairAck (s.pairId k)
        plans [planEach lines (noteRead 12),
          if s.sinkRoce k then roceRecord k r bs
          else planEach (slotParts bs).zipIdx (fun p =>
            gtSend (s.sinkEp k) ch { op := 0x40, arg0 := r.seq, arg1 := 8960 * p.2, payload := p.1 }),
          fun s' => [setSink k (fun x => { x with
              next := r.seq + 1, sent := max x.sent (r.seq + 1)
              beat := if idle then s.get .BEAT_COUNT_COUNT else x.beat })] ++
            (if r.seq < was then [s'.addF .SPRING_SINK_STATS_RESENT 1 k] else []) ++
            (if s.var .lgPhase = 3 then [s'.addV .lgSent r.len, .var .lgLast 0 (r.seq + 1)] else []),
          noteRing] s

/-! Acknowledgements and incarnations (R286, R291). -/

/-- Streaming to an active member goes back to what its pair has not acknowledged, or to the oldest retained record where
the pair has been enabled (R301); what is unsent then is judged anew (R294). -/
def rewind (k : Nat) : Plan := fun s =>
  let oldest := s.get .SPRING_SEQ_RETAINED_SEQ
  let from' := if (s.sink k).whole then oldest else max (s.pairAck (s.pairId k)) oldest
  plans [fun _ => [setSink k (fun x => { x with next := from', beat := s.get .BEAT_COUNT_COUNT, whole := false })], noteRing] s

/-- A sink announces an incarnation. -/
def sinkInc (k inc : Nat) : Plan := fun s =>
  let x := s.sink k
  if x.inc = inc + 1 then []
  else plans [fun _ => [setSink k (fun y => { y with inc := inc + 1, incAck := 0 }),
      setF .SPRING_SINK_STATE_INCARNATION (inc % 2 ^ 48) k] ++
      (if x.inc = 0 then [] else [s.addF .SPRING_SINK_STATS_INCARNATIONS 1 k]),
    if x.inc ≠ 0 ∧ s.sinkSt k = 2 then rewind k else fun _ => []] s

/-- A sink acknowledges every record with SEQ at or below q (R286, R287, R288, R291). `ep`, `ch`, `seq` and `hdr` name the
frame that says so. -/
def sinkAck (k q : Nat) (inc : Option Nat) (ep ch seq hdr : Nat) : Plan := fun s =>
  if s.sinkSt k = 0 then []
  else if (s.sink k).sent ≤ q then violation ep ch 6 0x41 seq hdr 0 s
  else plans [(match inc with | some i => sinkInc k i | none => fun _ => []), fun s1 =>
    let x := s1.sink k
    let kept := s1.pairAck (s1.pairId k)
    if q + 1 < x.incAck then []
    else plans [
      (if q + 1 < kept ∧ x.incAck = 0 then plans [fun _ => [setF .SPRING_STATUS_ACK_REGRESS 1],
          postEvent 0x23 4 0 k (kept - 1) q] else fun _ => []),
      fun s2 =>
        let more := s2.ackOf k < q + 1
        [setSink k (fun y => { y with
          incAck := q + 1, next := max y.next (q + 1)
          beat := if more then s2.get .BEAT_COUNT_COUNT else y.beat
          wrote := y.wrote.filter (fun w => q < w.1) })] ++
        (if more then [setF .SPRING_SINK_ACKED_SEQ q k] else []),
      releaseRing, noteRing, noteDurableIfHeld] s1] s

/-- The payload of SINK_ACK: the SEQ and the sink's incarnation, 8 B each (notes/assumptions/46.md). -/
def recvSinkAck (f : GtFrame) : Plan := fun s =>
  match s.epSink f.ep with
  | some k => sinkAck k (fieldOf f.body.payload 0 8) (some (fieldOf f.body.payload 8 8)) f.ep f.ch f.seq (gtHeader8 f) s
  | none => []

/-- A write of SPRING_SINK_ACK (R292, R301). -/
def planAckWrite (q : Nat) : Plan := fun s =>
  let k := s.get .SPRING_SINK_SEL_SINK
  if s.sinkRoce k then sinkAck k q none (s.sinkEp k) 0 0 0 s else []

/-! Connections of sinks (R272, R289, R385). -/

/-- A sink's connection has come up: the primary, or a sink without a partner, becomes active. -/
def sinkReady (k : Nat) : Plan := fun s =>
  if s.sinkSt k = 1 then
    let busy := (s.activeOf (s.pairId k)).isSome
    plans [fun _ => [setF .SPRING_SINK_STATE_STATE (if busy then 3 else 2) k], if busy then fun _ => [] else rewind k,
      notePairs] s
  else []

/-- A declared sink's connection opens. -/
def connectSink (k : Nat) : Plan := fun s =>
  if s.sinkRoce k then
    if s.get .XPORT_ROCE_QP_STATE k = 0 then
      plans [fun _ => [setF .XPORT_ROCE_QP_STATE 1 k, setQp k (fun _ => {}),
        setF .XPORT_ROCE_QP_NEXT_PSN (s.get .XPORT_ROCE_QP_START_PSN k) k], sinkReady k] s
    else sinkReady k s
  else if s.connUp (s.sinkEp k) 0 then sinkReady k s else openEp (s.sinkEp k) s

/-- Every declared sink's connection opens. -/
def connectSinks : Plan := fun s => planEach ((List.range 8).filter (fun k => s.sinkSt k != 0)) connectSink s

/-- Declared sinks without a connection get one. -/
def connectNewSinks : Plan := fun s =>
  planEach ((List.range 8).filter (fun k => s.sinkSt k != 0 &&
    (if s.sinkRoce k then s.get .XPORT_ROCE_QP_STATE k == 0 else s.connState (s.sinkEp k) 0 == 0))) connectSink s

/-- The endpoints of the declared sinks become SINK with WATCH = 1; a sink outside the job prefix takes the lowest
service entry of kind NONE where none holds it, and one that does is left as it stands (R385). -/
def sinkKinds : Plan := fun s =>
  planEach ((List.range 8).filter (fun k => s.sinkSt k != 0)) (fun k s' =>
    let a := recGet (s'.sinkDecl k) 8 16
    match s'.epOf a with
    | some e => if e < 65536 then [setF .XPORT_EP_CFG_KIND 2 e, setF .XPORT_EP_CFG_WATCH 1 e] else []
    | none => match (List.range 256).find? (fun i => s'.get .XPORT_EP_CFG_KIND (65536 + i) == 0) with
      | some i => [setF .XPORT_EP_CFG_KIND 2 (65536 + i), setF .XPORT_EP_CFG_WATCH 1 (65536 + i),
          setF .XPORT_SVC_ADDR_HI_ADDR (bits a 0 64) (65536 + i), setF .XPORT_SVC_ADDR_LO_ADDR (bits a 64 64) (65536 + i)]
      | none => []) s

/-- The SPRING_SINKS records of a newly active image take effect: a sink whose record is unchanged keeps its state. -/
def declareSinks : Plan := fun s =>
  plans [planEach (List.range 8) (fun k s' =>
    match (s'.img.sec 0x0B).find? (fun r => recGet r 0 1 == k) with
    | none =>
      if s'.sinkSt k = 0 then []
      else [setF .SPRING_SINK_STATE_STATE 0 k, setF .SPRING_SINK_STATE_PAIR 255 k, setF .SPRING_SINK_STATE_ROLE 0 k,
        setF .SPRING_SINK_STATE_PROTOCOL 0 k, setF .SPRING_SINK_ACKED_SEQ u64max k,
        .spring (fun x => { x with sinks := Sparse.set {} x.sinks k {}, off := Sparse.set 0 x.off k 0 })]
    | some r =>
      if (s'.sink k).decl = r + 2 ^ 512 then []
      else
        let pair := recGet r 3 1
        let second := recGet r 1 1 == 1 && pair != 255
        [setF .SPRING_SINK_STATE_STATE (if second then 3 else 1) k, setF .SPRING_SINK_STATE_PAIR pair k,
         setF .SPRING_SINK_STATE_ROLE (recGet r 1 1) k, setF .SPRING_SINK_STATE_PROTOCOL (recGet r 2 1) k,
         setF .SPRING_SINK_STATE_INCARNATION 0 k, setF .SPRING_SINK_ACKED_SEQ u64max k,
         .spring (fun x => { x with
           sinks := Sparse.set {} x.sinks k { decl := r + 2 ^ 512, next := s'.get .SPRING_SEQ_RETAINED_SEQ }
           off := Sparse.set 0 x.off k 0 })]), releaseRing, notePairs] s

/-- The states of declared sinks before their connections open: the primaries connect, the secondaries stand by. -/
def sinkStates : Plan := fun s =>
  ((List.range 8).filter (fun k => s.sinkSt k != 0)).map (fun k => setF .SPRING_SINK_STATE_STATE
    (if s.get .SPRING_SINK_STATE_ROLE k = 1 ∧ s.get .SPRING_SINK_STATE_PAIR k ≠ 255 then 3
     else if s.pairOn (s.pairId k) then 1 else 5) k)

/-- SINKS_RECONNECT (R272, R301). -/
def planReconnect : Plan := fun s =>
  let ks := (List.range 8).filter (fun k => s.sinkSt k != 0)
  if ks.any (fun k => s.sinkUp k || (!s.sinkRoce k && s.connState (s.sinkEp k) 0 == 1) || s.sinkSt k == 1) then []
  else plans [sinkKinds, sinkStates, connectSinks, fun _ => [.var .sinksHeld 0 0]] s

/-! Failure of a sink (R290). -/

/-- The active member of a pair, connected or still connecting, is declared failed. -/
def failSink (k : Nat) : Plan := fun s => if s.sinkSt k = 1 ∨ s.sinkSt k = 2 then [setSink k (fun x => { x with due := 1 })] else []

/-- SPRING_CFG.ACK_TIMEOUT beats have passed without progress, with records outstanding. -/
def planAckTimeout (k : Nat) : Plan := fun s =>
  let t := s.get .SPRING_CFG_ACK_TIMEOUT
  let x := s.sink k
  if k < 8 ∧ t ≠ 0 ∧ s.sinkSt k = 2 ∧ s.pairAck (s.pairId k) < x.next ∧ s.get .BEAT_COUNT_COUNT ≥ x.beat + t
  then failSink k s else []

/-- At the next boundary the STANDBY member becomes active, or the pair is DOWN (R290). -/
def planFailover (k : Nat) : Plan := fun s =>
  if (s.sink k).due ≠ 1 then []
  else
    let p := s.pairId k
    let ack := s.pairAck p
    let shown := if ack = 0 then u64max else ack - 1
    plans [fun _ => [setF .SPRING_SINK_STATE_STATE 4 k, setSink k (fun x => { x with due := 0 })], fun s1 =>
      match (s1.members p).find? (fun j => s1.sinkSt j == 3 && s1.sinkUp j) with
      | some j => plans [fun s2 => setF .SPRING_SINK_STATE_STATE 2 j ::
            (s2.members p).map (fun m => s2.addF .SPRING_SINK_STATS_FAILOVERS 1 m),
          rewind j, postEvent 0x21 4 0 k shown j] s1
      | none => postEvent 0x22 4 0 k shown 0 s1, notePairs] s

/-- SWAP is asked for (R301). -/
def planSwap : Plan := fun s =>
  let k := s.get .SPRING_SINK_SEL_SINK
  if (s.sinkSt k = 3 ∨ s.sinkSt k = 4) ∧ s.sinkUp k then [setSink k (fun x => { x with due := 2 })] else []

/-- PAIR_ENABLE or PAIR_DISABLE is asked for (R288, R301). -/
def planTurn (v : Nat) : Plan := fun s =>
  let p := s.pairId (s.get .SPRING_SINK_SEL_SINK)
  if s.sinkSt p = 0 ∨ (v = 2 ∧ s.enabledPairs = [p]) then []
  else [.spring (fun x => { x with turn := Sparse.set 0 x.turn p v })]

/-- What SWAP, PAIR_ENABLE and PAIR_DISABLE asked for happens at a boundary (R301); the last enabled pair is not disabled.
What is unsent is judged against the LG_BUDGET in effect (R294). -/
def springBoundary : Plan := fun s =>
  plans [planEach ((List.range 8).filter (fun k => (s.sink k).due == 2)) (fun k s' =>
      plans [fun _ => ((s'.members (s'.pairId k)).filter (fun j => j != k && s'.sinkSt j == 2)).map (fun j =>
          setF .SPRING_SINK_STATE_STATE 3 j),
        fun _ => [setF .SPRING_SINK_STATE_STATE 2 k, setSink k (fun x => { x with due := 0 })], rewind k] s'),
    planEach s.spring.turn (fun t s' =>
      let ms := s'.members t.1
      if t.2 = 2 ∧ s'.enabledPairs = [t.1] then [.spring (fun x => { x with turn := Sparse.set 0 x.turn t.1 0 })]
      else plans [fun _ => [.spring (fun x => { x with
            turn := Sparse.set 0 x.turn t.1 0, off := Sparse.set 0 x.off t.1 (if t.2 = 2 then 1 else 0) })] ++
          ms.map (fun k => setF .SPRING_SINK_STATE_STATE
            (if t.2 = 2 then 5 else if s'.get .SPRING_SINK_STATE_ROLE k = 1 ∧ ms.length > 1 then 3 else 1) k) ++
          (if t.2 = 2 then [] else ms.map (fun k => setSink k (fun x =>
            { x with next := s'.get .SPRING_SEQ_RETAINED_SEQ, whole := true }))),
        if t.2 = 2 then fun _ => [] else connectSinks] s'),
    releaseRing, notePairs, noteRing] s

/-! Queue pairs (R401, R402). -/

/-- Outstanding packets from a PSN on leave again. -/
def roceAgain (k psn : Nat) : Plan := fun s =>
  planEach ((s.qp k).out.dropWhile (fun p => p.psn != psn)) (roceSend k) s

/-- A queue pair enters ERROR, posts it, and waits to be rearmed (R402). -/
def roceFail (k psn : Nat) : Plan := fun s =>
  plans [fun _ => [setF .XPORT_ROCE_QP_STATE 3 k, setF .XPORT_ROCE_QP_START_PSN ((psn + 2 ^ 23) % 2 ^ 24) k,
      s.addF .XPORT_ROCE_STATS_ERRORS 1 k, setQp k (fun _ => {})], postEvent 0x35 6 0 k k psn] s

/-- A retry counts; after seven without progress the pair fails. -/
def roceRetry (k psn tries : Nat) (go : Plan) : Plan := fun s =>
  if tries ≥ 7 then roceFail k psn s else plans [count .XPORT_ROCE_STATS_RETRIES 1 k, go] s

/-- A response arrives (R401). `kind`: 0 ACK, 1 RNR NAK, 2 PSN sequence error NAK, 3 a fatal NAK, 4 an incoming request or
CNP. `psn` is the last PSN acknowledged, or the PSN that the NAK names. -/
def planRoceResponse (k kind psn : Nat) : Plan := fun s =>
  let q := s.qp k
  if k ≥ 8 then []
  else if kind ≥ 4 then [s.addF .XPORT_ROCE_STATS_DISCARDED 1 k]
  else if s.get .XPORT_ROCE_QP_STATE k ≠ 1 ∨ !q.out.any (fun p => p.psn == psn) then []
  else if kind = 0 then [setQp k (fun q => { q with
      out := (q.out.dropWhile (fun p => p.psn != psn)).drop 1, tries := 0, rnr := 0, wait := false })]
  else if kind = 3 then roceFail k psn s
  else
    let cut : Upd := setQp k (fun q => { q with out := q.out.dropWhile (fun p => p.psn != psn) })
    if kind = 1 then
      cut :: s.addF .XPORT_ROCE_STATS_RNR 1 k ::
        (if q.rnr ≥ 7 then roceFail k psn s else [setQp k (fun q => { q with rnr := q.rnr + 1, wait := true })])
    else cut :: roceRetry k psn q.tries
      (plans [fun _ => [setQp k (fun q => { q with tries := q.tries + 1 })], roceAgain k psn]) (s.apply cut)

/-- 65,536 clk without an ACK, or the end of an RNR wait (R401): the pair goes back to its oldest packet. -/
def planRoceTimeout (k : Nat) : Plan := fun s =>
  let q := s.qp k
  match q.out with
  | [] => []
  | p :: _ =>
    if k ≥ 8 ∨ s.get .XPORT_ROCE_QP_STATE k ≠ 1 then []
    else if q.wait then plans [fun _ => [setQp k (fun q => { q with wait := false })], count .XPORT_ROCE_STATS_RETRIES 1 k,
      roceAgain k p.psn] s
    else roceRetry k p.psn q.tries
      (plans [fun _ => [setQp k (fun q => { q with tries := q.tries + 1 })], roceAgain k p.psn]) s

/-- A queue pair leaves WAIT_REARM, and Spring resumes above the pair's acknowledged SEQ (R402). -/
def roceRearm (k : Nat) : Plan := fun s =>
  if s.get .XPORT_ROCE_QP_STATE k = 3 then
    plans [fun _ => [setF .XPORT_ROCE_QP_STATE 1 k, setQp k (fun _ => {}),
      setF .XPORT_ROCE_QP_NEXT_PSN (s.get .XPORT_ROCE_QP_START_PSN k) k],
      if s.sinkSt k = 2 then rewind k else fun _ => [], sinkReady k] s
  else []

/-- QP_READY of a sink: a new PSN and destination queue pair (R402). -/
def recvQpReady (f : GtFrame) : Plan := fun s =>
  match s.epSink f.ep with
  | some k =>
    if s.get .XPORT_ROCE_QP_STATE k ≠ 3 then []
    else plans [fun _ => [setF .XPORT_ROCE_QP_START_PSN (fieldOf f.body.payload 0 4 % 2 ^ 24) k,
      setSink k (fun x => { x with decl := recPut (x.decl % 2 ^ 512) 28 4 (fieldOf f.body.payload 4 4 % 2 ^ 24) + 2 ^ 512 })],
      roceRearm k] s
  | none => []

/-! The last gasp (R293). -/

/-- At clk 64 no slice issues, and what the coalescing buffer holds is abandoned. -/
def planGaspStop : Plan := fun s =>
  if s.var .lgPhase = 1 then [.var .lgPhase 0 2, .spring (fun x => { x with held := [] })] else []

/-- At clk 512 the flush begins, to the enabled pair with the highest acknowledged SEQ. -/
def planGaspFlush : Plan := fun s =>
  if s.var .lgPhase = 2 then
    [.var .lgPhase 0 3, .var .lgSent 0 0, .var .lgPair 0 (match s.flushPair with | some p => p + 1 | none => 0)] else []

/-- Whether the flush has nothing more to send within its budget. -/
def State.gaspDone (s : State) : Bool :=
  match (if s.var .lgPair = 0 then none else s.activeOf (s.var .lgPair - 1)) with
  | none => true
  | some k => match s.nextRecord k with
    | none => true
    | some r => s.var .lgSent + r.len > s.get .SPRING_CFG_LG_BUDGET * 2 ^ 20

/-- The LAST_GASP record (R278). -/
def gaspRecord (s : State) : List Nat :=
  recHeader 0x21 0 s.rank 48 (s.get .BEAT_STEP_STEP) ++
    leBytes 8 (if s.var .lgLast = 0 then u64max else s.var .lgLast - 1) ++ leBytes 8 s.unsent

/-- The flush ends: by its budget, by exhaustion, or at clk 1,440,000 of the loss. LAST_GASP is sent. -/
def gaspEnd (clk : Nat) : Plan := fun s =>
  if s.var .lgPhase ≠ 3 ∨ !(s.gaspDone || clk ≥ 1440000) then []
  else
    plans [appendRecord (gaspRecord s), fun s' =>
      let (r, bs) := match s'.spring.ring.getLast? with
        | some r => if r.type = 0x21 then (r, s'.bytesAt r.addr r.len)
          else (⟨s.get .SPRING_SEQ_NEXT_SEQ, 0, 48, 0x21, 0⟩, s.sealed (gaspRecord s))
        | none => (⟨s.get .SPRING_SEQ_NEXT_SEQ, 0, 48, 0x21, 0⟩, s.sealed (gaspRecord s))
      match (if s.var .lgPair = 0 then none else s'.activeOf (s.var .lgPair - 1)) with
       | some k =>
         if s'.sinkRoce k then roceRecord k r bs s'
         else gtSend (s'.sinkEp k) (r.seq % 2) { op := 0x40, arg0 := r.seq, payload := bs } s'
       | none => [],
      fun _ => [.var .lgPhase 0 4]] s

/-! Refill (R298, R299). -/

/-- The DPA of a shard's header, from the shard index at the base of the MASTER region (R299). -/
def State.shardHeader (s : State) (key : Nat) : Option Nat :=
  ((List.range (min (s.shardCount) 65536)).find? (fun i => s.leAt (s.shardIndex + 16 + 16 * i) 8 == key)).map
    s.shardAt

/-- Bytes of a moment area of a fragment of `e` elements (R276), and of its scales. -/
def fragScales (e : Nat) : Nat := roundUp (2 * ((e + 31) / 32)) 8
def fragArea (mf e : Nat) : Nat := if mf = 0 then roundUp (4 * e) 8 else fragScales e + 32 * ((e + 31) / 32)

/-- Areas that a shard of an optimiser kind keeps (R263: row-wise Adagrad acts as Adagrad). -/
def shardAreas (kind : Nat) : Nat :=
  let (a, b) := kindMoments (if kind = 4 then 3 else kind)
  b2n a + b2n b

/-- A moment area of a fragment goes into the bank's area at `a` (R263). -/
def putArea (a mf n first e : Nat) (bs : List Nat) : Plan :=
  if mf = 0 then writeMem (a + 4 * first) (bs.take (4 * e))
  else plans [writeMem (a + 2 * (first / 32)) (bs.take (2 * ((e + 31) / 32))),
    writeMem (a + roundUp (2 * ((n + 31) / 32)) 16 + first) ((bs.drop (fragScales e)).take (32 * ((e + 31) / 32)))]

/-- Bytes of a moment area of a bank of `n` elements. -/
def bankArea (mf n : Nat) : Nat := if mf = 0 then 4 * n else roundUp (momentArea mf n) 64

/-- A DENSE fragment goes into bank 0; with the last one of a step the header line is written (R299). -/
def putFragment (h : Nat) (bs : List Nat) : Plan := fun s =>
  let key := fieldOf bs 32 8
  let first := fieldOf bs 40 4
  let e := fieldOf bs 44 4
  let n := fieldOf bs 48 4
  let kind := fieldOf bs 52 1
  let mf := fieldOf bs 53 1
  let step := fieldOf bs 16 8 % 2 ^ 44
  let bank := h + 64
  let areas := bank + roundUp (8 * n) 64
  let rest := bs.drop (64 + 8 * e)
  let got := (Sparse.get [] s.spring.frags key).filter (fun f => f.1 != first) ++ [(first, e, step)]
  let whole := (got.filter (fun f => f.2.2 == step)).length * 4096 ≥ n
  plans [writeMem (bank + 8 * first) ((bs.drop 64).take (8 * e)),
    planEach (List.range (shardAreas kind)) (fun i =>
      putArea (areas + i * bankArea mf n) mf n first e (rest.drop (i * fragArea mf e))),
    fun _ => [.spring (fun x => { x with frags := Sparse.set [] x.frags key (if whole then [] else got) })],
    if whole then
      let flags := s.leAt (h + 13) 1
      plans [writeMem (h + 13) [putBits flags 0 1 0], writeMem (h + 16) (leBytes 8 (step + 2 ^ 63)),
        writeMem (h + 24) (leBytes 8 (putBits (s.leAt (h + 24) 8) 63 1 0))]
    else fun _ => []] s

/-- What becomes of a refill record: routed, malformed, refused, or halted at a line. -/
inductive RefillOutcome where
  | route (p : Plan)
  | malformed
  | refused
  | halt (a : Nat)

/-- The checks and the routing of a refill record (R298). -/
def refillCheck (s : State) (bs : List Nat) : RefillOutcome :=
  let type := bs.getD 0 0
  let key := fieldOf bs 32 8
  let stack := bits (fieldOf bs 16 8) 44 4
  if crc32c (bs.take 28) ≠ fieldOf bs 28 4 then .malformed
  else if type = 1 ∨ type = 2 then
    match s.table (keyTable key) with
    | none => .refused
    | some t => if bs.length ≠ tblSlot t + 40 then .malformed else .route (planRefillRow stack key (bs.drop 40))
  else if type = 4 then
    let kind := fieldOf bs 43 1
    if bs.length ≠ 48 ∨ kind > 1 then .malformed
    else if homeStack key ≠ stack ∨ homeModule key s.jobN ≠ s.rank then .refused
    else .route (if kind = 1 then dmPlace stack key (mkLoc kMoved (fieldOf bs 40 2) (fieldOf bs 42 1) 0)
      else fun s' => if locKind (s'.dmLoc stack key) = kMoved then dmFree stack key s' else [])
  else if type = 5 then
    let n := fieldOf bs 48 4
    let first := fieldOf bs 40 4
    let e := fieldOf bs 44 4
    let mf := fieldOf bs 53 1
    if e = 0 ∨ e > 4096 ∨ first % 4096 ≠ 0 ∨ e ≠ min 4096 (n - first) ∨
        bs.length ≠ 64 + 8 * e + shardAreas (fieldOf bs 52 1) * fragArea mf e then .malformed
    else if s.running then .refused
    else match (linesOf s.shardIndex (16 + 16 * min s.shardCount 65536)).find? s.lineBad with
      | some l => .halt l
      | none => match s.shardHeader key with
        | none => .refused
        | some h => if s.lineBad h then .halt h else .route (putFragment h bs)
  else .malformed

/-- Whole records of a connection's refill bytes are checked and routed in turn (R298, R421). -/
def pumpRefill (ep ch : Nat) : Nat → Plan
  | 0 => fun _ => []
  | fuel + 1 => fun s =>
    let i := connIdx ep ch
    let r := Sparse.get {} s.spring.refill i
    let len := fieldOf r.bytes 4 4
    let setR : RefillIn → Upd := fun v => .spring (fun x => { x with refill := Sparse.set {} x.refill i v })
    let bad : Plan := fun s' => s'.addF .SPRING_REFILL_MALFORMED 1 :: violation ep ch 0x0A 0x42 r.seq r.hdr r.number s'
    if s.dmaHalted 1 ∨ r.bytes.length < 32 then []
    else if len % 8 ≠ 0 ∨ len < 32 ∨ len > 65600 then
      plans [fun _ => [setR { r with number := r.number + 1, bytes := [] }], bad] s
    else if r.bytes.length < len then []
    else
      let next : Upd := setR { r with number := r.number + 1, bytes := r.bytes.drop len }
      match refillCheck s (r.bytes.take len) with
      | .halt a => plans [haltDma 1 a r.number, fun _ => [.spring (fun x => { x with refHalt := i + 1 })]] s
      | .route p => plans [fun s' => [next, s'.addF .SPRING_REFILL_ACCEPTED 1], p, pumpRefill ep ch fuel] s
      | .malformed => plans [fun _ => [next], bad, pumpRefill ep ch fuel] s
      | .refused => plans [fun s' => [next, s'.addF .SPRING_REFILL_REFUSED 1],
          sendNak ep ch 0x0B 0 0x42 r.seq r.number, pumpRefill ep ch fuel] s

/-- A REFILL frame's bytes join the record under way on its connection (R298, R383). Bytes that do not go on from it
begin a record at offset 0, or are a BAD_PAYLOAD violation. -/
def recvRefill (f : GtFrame) : Plan := fun s =>
  let i := connIdx f.ep f.ch
  let r := Sparse.get {} s.spring.refill i
  let b := f.body
  let go : RefillIn → Plan := fun v => plans [fun _ => [.spring (fun x => { x with refill := Sparse.set {} x.refill i v })],
    pumpRefill f.ep f.ch 281]
  if b.arg1 = r.bytes.length ∧ b.arg0 = r.number then go ⟨r.number, r.bytes ++ b.payload, f.seq, gtHeader8 f⟩ s
  else if b.arg1 = 0 then go ⟨b.arg0, b.payload, f.seq, gtHeader8 f⟩ s
  else violation f.ep f.ch 7 0x42 f.seq (gtHeader8 f) 0 s

/-- DMA_RESTART and DMA_RESTART_SKIP of the Spring emit channel (R421). -/
def restartEmit (skip : Bool) : Plan := fun s =>
  let seq := s.spring.emitHalt - 1
  plans [fun s' => [setF .ERR_DMA_STATE_HALTED 0 0, .spring (fun x => { x with emitHalt := 0 })] ++
      (if skip then [s'.addF .ERR_DMA_STATE_SKIPPED 1 0] else []),
    match (if skip then s.spring.ring.find? (fun r => r.seq == seq) else none) with
    | some r =>
      let h := recHeader 0x3F 0 s.rank r.len 0
      let h := h.take 8 ++ leBytes 8 r.seq ++ leBytes 8 0 ++ leBytes 4 (s.get .CLAY_GEN_ACTIVE)
      plans [writeMem r.addr (h ++ leBytes 4 (crc32c h) ++ List.replicate (r.len - 32) 0),
        fun _ => [.spring (fun x => { x with
          ring := x.ring.map (fun y => if y.seq = r.seq then { y with type := 0x3F, step := 0 } else y) })]]
    | none => fun _ => []] s

/-- The same of the refill channel: the record at which it halted is tried again, or discarded. -/
def restartRefill (skip : Bool) : Plan := fun s =>
  let i := s.spring.refHalt - 1
  plans [fun s' =>
      let r := Sparse.get {} s'.spring.refill i
      let next : RefillIn := { r with number := r.number + 1, bytes := r.bytes.drop (fieldOf r.bytes 4 4) }
      [setF .ERR_DMA_STATE_HALTED 0 1, .spring (fun x => { x with
        refHalt := 0, refill := if skip then Sparse.set {} x.refill i next else x.refill })] ++
      (if skip then [s'.addF .ERR_DMA_STATE_SKIPPED 1 1] else []),
    planEach s.spring.refill (fun p => pumpRefill (p.1 / 4) (p.1 % 4) 281)] s

/-- SPRING_STREAM (R289). -/
def execSpringStream (sink : Nat) := answer (planStream sink)
/-- SINK_ACK_TIMEOUT (R290). -/
def execSinkAckTimeout (sink : Nat) := answer (planAckTimeout sink)
/-- SINK_FAILOVER (R290). -/
def execSinkFailover (sink : Nat) := answer (planFailover sink)
/-- SINK_SWAP (R301). -/
def execSinkSwap := answer planSwap
/-- PAIR_ENABLE (R301). -/
def execPairEnable := answer (planTurn 1)
/-- PAIR_DISABLE (R288, R301). -/
def execPairDisable := answer (planTurn 2)
/-- SINKS_RECONNECT (R272). -/
def execSinksReconnect := answer planReconnect
/-- SPRING_SINK_ACK_WRITE (R292). -/
def execSpringSinkAckWrite (seq : Nat) := answer (planAckWrite seq)
/-- LAST_GASP_STOP (R293). -/
def execLastGaspStop := answer planGaspStop
/-- LAST_GASP_FLUSH (R293). -/
def execLastGaspFlush := answer planGaspFlush
/-- ROCE_RESPONSE (R401). -/
def execRoceResponse (sink kind psn : Nat) := answer (planRoceResponse sink kind psn)
/-- ROCE_RETRY_TIMEOUT (R401). -/
def execRoceRetryTimeout (sink : Nat) := answer (planRoceTimeout sink)
/-- ROCE_REARM (R402): of the selected queue pair. -/
def execRoceRearm := answer (fun s => roceRearm (s.get .XPORT_ROCE_SEL_SINK) s)

end Sys2Proof.Machine
end

