-- ==== Sys2Proof/Machine/Fetch.lean ====
section
/-!
DEFINITION. Shard fetches, their versions and leases (R345 to R348), the view of the job's ranks (R327, R328), and what
the collective engines do at a boundary.
-/
namespace Sys2Proof.Machine

/-! The owner's side (R263, R264, R345 to R347). -/

/-- The version of a bank of the shard header at `h`: VALID and its step. -/
def State.bankVersion (s : State) (h b : Nat) : Nat := s.leAt (h + 16 + 8 * b) 8 % 2 ^ 44
def State.bankValid (s : State) (h b : Nat) : Bool := (s.leAt (h + 16 + 8 * b) 8).testBit 63

/-- The version that a shard's header names as current. -/
def State.curVersion (s : State) (h : Nat) : Nat := s.bankVersion h (s.activeBank h)

/-- The bank that serves a fetch: the active one, or for a version that has a successor the other one while a lease on it
remains (R347). -/
def State.serveBank (s : State) (key h : Nat) (named : Option Nat) : Option Nat :=
  let b := s.activeBank h
  match named with
  | none => some b
  | some v =>
    if s.bankValid h b ∧ s.bankVersion h b = v then some b
    else if s.bankValid h (1 - b) ∧ s.bankVersion h (1 - b) = v ∧ s.coll.lent.any (fun l => l.key == key && l.version == v)
    then some (1 - b)
    else none

/-- The format of a fetched copy: that of the directory entry, BF16 without one (notes/assumptions/53.md). -/
def State.fetchFmt (s : State) (key : Nat) : Nat :=
  match s.dirOf key with
  | some (_, d) => dirFmt d
  | none => 2

/-- Elements of a frame of fetched data. -/
def fetchChunk (fmt : Nat) : Nat := 8192 / max 1 (fmtWidth fmt / 8)

/-- A fetch request from a rank reaches the owner (R345 to R347). -/
def recvFetchReq (rank : Nat) (b : GtBody) : Plan := fun s =>
  let key := b.arg0
  let named := if b.arg1.testBit 0 then some b.step else none
  let gone : Plan := plans [count .COLL_STALE_SERVED 1, toRank rank 0 { op := 0x35, step := b.step, arg0 := key }]
  match s.shardHeader key with
  | none => gone s
  | some h => match s.serveBank key h named with
    | none => gone s
    | some bank =>
      let v := s.bankVersion h bank
      let n := s.leAt (h + 8) 4
      let a := s.bankAddr h bank
      let fmt := s.fetchFmt key
      let w := fmtWidth fmt / 8
      let k := fetchChunk fmt
      let elem := fun i =>
        if s.lineBad (a + 8 * i) then (encodeElem fmt .nan).1 else cvtFrom32 fmt (s.leAt (a + 8 * i) 4)
      let lease : Lease := ⟨rank, key, v⟩
      plans [planEach (linesOf a (8 * n)) (noteRead 7),
        fun s' =>
          if s'.coll.lent.contains lease then [.coll (fun c => { c with ended := c.ended.filter (· != lease) })]
          else if s'.coll.lent.length ≥ 16384 then [s'.addF .COLL_LEASE_NO_ROOM 1]
          else [.coll (fun c => { c with lent := c.lent ++ [lease] })],
        planEach (List.range ((n + k - 1) / k)) (fun j =>
          toRank rank 0 { op := 0x34, step := v, arg0 := key, arg1 := j * k
                          payload := ((List.range (min k (n - j * k))).map (fun i => leBytes w (elem (j * k + i)))).flatten })] s

/-- A lease release from a requester: a lease whose fetch is in progress stays until its last frame departs (R346). -/
def recvRelease (rank : Nat) (b : GtBody) : Plan := fun s =>
  let es := (chunks 16 b.payload).map (fun e => (fieldOf e 0 8, fieldOf e 8 8))
  let mine : Lease → Bool := fun l => l.rank == rank && es.contains (l.key, l.version)
  [.coll (fun c => { c with
    lent := c.lent.filter (fun l => !mine l || s.serving l)
    ended := c.ended ++ c.lent.filter (fun l => mine l && s.serving l && !c.ended.contains l) })]

/-- Every lease on a version is revoked and counted (R347). -/
def revoke (key version : Nat) : Plan := fun s =>
  let mine : Lease → Bool := fun l => l.key == key && l.version == version
  [s.addF .COLL_LEASE_EXPIRED (s.coll.lent.filter mine).length,
   .coll (fun c => { c with lent := c.lent.filter (fun l => !mine l), ended := c.ended.filter (fun l => !mine l) })]

/-- Versions with a successor are noted at the first boundary that finds it active, and one whose every holder is LOST is
released (R347). -/
def leaseSweep : Plan := fun s =>
  let vs := (s.coll.lent.map (fun l => (l.key, l.version))).eraseDups
  let old := vs.filter (fun p => match s.shardHeader p.1 with
    | some h => s.curVersion h != p.2
    | none => true)
  let known := s.coll.old.filter (fun o => old.contains (o.1, o.2.1))
  let fresh := old.filter (fun p => !known.any (fun o => (o.1, o.2.1) == p))
  let lost := old.filter (fun p =>
    s.coll.lent.all (fun l => (l.key, l.version) != p || s.get .COLL_PEER_STATE l.rank == 1))
  plans [fun _ => [.coll (fun c => { c with
      old := known ++ fresh.map (fun p => (p.1, p.2, s.get .BEAT_COUNT_COUNT)) })],
    planEach lost (fun p => revoke p.1 p.2)] s

/-- LEASE_EXPIRY (R347): LEASE_BEATS after its successor became active. -/
def planLeaseExpiry (key version : Nat) : Plan := fun s =>
  match s.coll.old.find? (fun o => o.1 == key && o.2.1 == version) with
  | some o =>
    if s.get .BEAT_COUNT_COUNT ≥ o.2.2 + s.get .COLL_CFG_LEASE_BEATS then
      plans [revoke key version, fun _ => [.coll (fun c => { c with
        old := c.old.filter (fun x => !(x.1 == key && x.2.1 == version)) })]] s
    else []
  | none => []

/-! The requester's side (R345, R348). -/

/-- The key of a recorded version. -/
def verIdx (slot entry : Nat) : Nat := slot * 65536 + entry

/-- A fetch ends without data: its recorded version is invalid and its micro-batch is dropped (R345, R84). -/
def fetchLost (f : Fetch) : Plan := fun s =>
  [.coll (fun c => { c with
    fetches := c.fetches.filter (fun x => !(x == f)), versions := Sparse.set 0 c.versions (verIdx f.slot f.entry) 0 })] ++
  (if f.slot < 8 ∧ s.var .mbDropNext f.slot = 0 then [.var .mbDropNext f.slot 6] else [])

/-- A fetch of an entry begins: a backward one names the version recorded for its slot and entry (R345). -/
def fetchStart (entry d slot cls : Nat) (bwd : Bool) : Plan := fun s =>
  let fmt := dirFmt d
  let f : Fetch := ⟨entry, dirKey d, dirOwner d, slot, cls, bwd, dirFetch d, dirElems d * (fmtWidth fmt / 8), 0⟩
  let v := Sparse.get 0 s.coll.versions (verIdx slot entry)
  if !s.live f.owner then fetchLost f s
  else
    let named := bwd ∧ v ≠ 0
    let arg := if named then 1 else 0
    plans [fun _ => [.coll (fun c => { c with fetches := c.fetches ++ [f] })],
      toRank f.owner 0 { op := 0x33, step := if named then v - 1 else 0, arg0 := f.key, arg1 := arg }] s

/-- COLL_GATHER (R330, R345). -/
def planGather (die : Nat) : Plan := fun s =>
  match s.collItem die with
  | some (x, _, w) =>
    if itemOp w ≠ 2 then []
    else plans [startSlice 4 die,
      planEach (List.range (itemCount w)) (fun k s' =>
        match s'.dirAt (itemFirst w + k) with
        | some d =>
          let n := dirElems d * (fmtWidth (dirFmt d) / 8)
          if dirDie d = die ∧ dirFlag d 1 ∧ dirOwner d ≠ s'.rank ∧ s'.inRegion 3 0 (dirFetch d) n then
            fetchStart (itemFirst w + k) d x.slot (itemClass w) (w.testBit 14) s'
          else []
        | none => []),
      fun _ => [endSlice 4 die 0]] s
  | none => []

/-- Fetched data arrive from a rank: they go into the buffer, and the first frame records the version (R345). -/
def recvFetchData (rank : Nat) (b : GtBody) : Plan := fun s =>
  match s.coll.fetches.find? (fun f => f.key == b.arg0 && f.owner == rank) with
  | none => []
  | some f =>
    match s.dirAt f.entry with
    | none => []
    | some d =>
      let off := b.arg1 * (fmtWidth (dirFmt d) / 8)
      let bs := b.payload.take (f.len - off)
      let f' := { f with got := f.got + bs.length }
      let lease : Lease := ⟨rank, f.key, b.step⟩
      plans [writeMem (f.dpa + off) bs, fun _ => [.coll (fun c => { c with
        fetches := if f'.got ≥ f.len then c.fetches.filter (fun x => !(x == f))
          else c.fetches.map (fun x => if x == f then f' else x)
        versions := Sparse.set 0 c.versions (verIdx f.slot f.entry) (b.step + 1)
        borrowed := if c.borrowed.contains lease then c.borrowed else c.borrowed ++ [lease] })]] s

/-- A STALE reply: the current version is fetched, and STALE_MODE says what becomes of the gradient (R348). -/
def recvFetchStale (rank : Nat) (b : GtBody) : Plan := fun s =>
  match s.coll.fetches.find? (fun f => f.key == b.arg0 && f.owner == rank) with
  | none => []
  | some f =>
    plans [fun s' => s'.addF .COLL_STALE_REPLIES 1 ::
        (if s'.policy 3 f.cls 0 = 1 then [s'.addF .COLL_STALE_USED_CURRENT 1]
         else [.coll (fun c => { c with stale := c.stale.filter (· != (f.slot, f.entry)) ++ [(f.slot, f.entry)] })]),
      toRank rank 0 { op := 0x33, arg0 := f.key }] s

/-! The view (R327, R328, R337, R338, R343, R345, R347). -/

/-- Whether a frame carries traffic of the collectives, the rows' all-to-all among them, to a rank (R327, R383). -/
def isColl (b : GtBody) : Bool := 0x20 ≤ b.op && b.op ≤ 0x36

/-- What waits to be sent to a rank that is now absent is not sent; the pushes among it count (R327, R349). -/
def dropWaiting (rank : Nat) : Plan := fun s =>
  let all := ((List.range 4).map (fun ch => (s.conn rank ch).wait)).flatten
  let pushes := ((all.filter (fun b => b.op == 0x22)).map (fun b => (pushEntries s 560 b.payload).length)).foldl (· + ·) 0
  if !all.any isColl then []
  else plans [planEach (List.range 4) (fun ch s' =>
      let c := s'.conn rank ch
      [setConn rank ch { c with wait := c.wait.filter (fun b => !isColl b) }]),
    fun s' => if pushes = 0 then [] else [s'.addF .COLL_MISSING_PUSH_LOST pushes], endLeases] s

/-- A rank becomes LOST in the view, with what every collective does for it. -/
def peerLost (rank : Nat) : Plan := fun s =>
  let root := s.root
  let mine := s.coll.fetches.filter (fun f => f.owner == rank)
  let owing := (s.listedVar .qOwed).filter (fun q => match s.img.queueRec q with
    | some r => recGet r 4 1 == 5 && recGet r 6 2 == rank
    | none => false)
  plans [fun _ => setF .COLL_PEER_STATE 1 rank :: owing.map (fun q => .var .qOwed q 0),
    chainLost rank, dropWaiting rank, rootLost root, planEach mine fetchLost, leaseSweep, driftLost rank] s

/-- A keepalive of a rank with the REJOIN flag and its start step J (R328). -/
def noteRejoin (rank j : Nat) : Plan := fun s =>
  let st := s.get .COLL_PEER_STATE rank
  if rank = s.rank ∨ st ≠ 1 then []
  else setF .COLL_PEER_JOIN_STEP j rank ::
    (if s.get .BEAT_STEP_STEP ≥ j then [setF .COLL_STATUS_REJOIN_LATE 1] else [setF .COLL_PEER_STATE 2 rank])

/-- REJOIN_LIVE (R328): the boundary that opens step J. -/
def planRejoinLive (rank : Nat) : Plan := fun s =>
  if s.get .COLL_PEER_STATE rank = 2 ∧ s.get .BEAT_STEP_STEP ≥ s.get .COLL_PEER_JOIN_STEP rank then
    [setF .COLL_PEER_STATE 0 rank] else []

/-! Boundaries. -/

/-- What the engines do at a boundary; `fresh` says that it opens a step. The late contributions that the steps before it
added without a norm are then counted (R344). -/
def collBoundary (fresh : Bool) : Plan := fun s =>
  let step := s.get .BEAT_STEP_STEP
  plans [if fresh then plans [
      fun s' => planEach ((s'.spring.cuts.map (·.1)).filter (· < step)) (fun t => settleLate t false) s', chainStep step]
    else fun _ => [], leaseSweep,
    fun s' => if s'.get .COLL_JOIN_REJOIN = 1 ∧ step > s'.get .COLL_JOIN_JOIN_STEP then [setF .COLL_JOIN_REJOIN 0] else []] s

/-- Whether a COLL_DIR commit must keep the directory (R357): a CHAIN hop or a GATHER is in progress. -/
def State.dirBusy (s : State) : Bool := s.coll.chains.any (fun h => !h.done) || !s.coll.fetches.isEmpty

/-- COLL_GATHER (R345). -/
def execCollGather (die : Nat) := answer (planGather die)
/-- LEASE_EXPIRY (R347). -/
def execLeaseExpiry (key version : Nat) := answer (planLeaseExpiry key version)
/-- REJOIN_LIVE (R328). -/
def execRejoinLive (rank : Nat) := answer (planRejoinLive rank)
/-- COLL_COMMIT (R357): a write of COLL_CTRL.COMMIT. -/
def execCollCommit := answer (fun _ => [setF .COLL_STATUS_COMMIT_PENDING 1])

end Sys2Proof.Machine
end

