-- ==== Sys2Proof/Machine/Perm.lean ====
section
/-!
DEFINITION. Resharding in place: the permutation's walks over the rows of a stack (R350, R351).
-/
namespace Sys2Proof.Machine

/-- The tables of the image in ascending id. -/
def State.tablesById (s : State) : List Nat := (s.img.sec 9).mergeSort (fun a b => tblId a ≤ tblId b)

/-- The key of the row that a stack holds at a position of a table: ways of buckets in order, then Drift-area slots. -/
def State.rowAt (s : State) (stack t pos : Nat) : Option Nat :=
  let id := tblId t * 2 ^ 48
  if pos < 16 * tblBuckets t then
    let g := s.leAt (tblDpa stack t + pos / 16 * bucketBytes t + 8 * (pos % 16)) 8
    if tagUsed g then some (id + tagIndex g) else none
  else
    let n := pos - 16 * tblBuckets t
    if s.areaBit stack t n then
      (s.rows.dmap.find? (fun p => p.1 / 2 ^ 21 == stack && locKind p.2.2 == kResident && locLast p.2.2 == n &&
        keyTable p.2.1 == tblId t)).map (fun p => p.2.1)
    else none

/-- The next row of a stack's walk that belongs to another module, with the table and position after it. -/
def State.permNext (s : State) (stack : Nat) (w : PermWalk) : Option (Nat × Nat × Nat) :=
  s.tablesById.zipIdx.findSome? (fun p =>
    let size := 16 * tblBuckets p.1 + tblSpare p.1
    if p.2 < w.table then none
    else
      let from' := if p.2 = w.table then w.pos else 0
      (List.range (size - from')).findSome? (fun k =>
        match s.rowAt stack p.1 (from' + k) with
        | some key => if homeModule key s.jobN = s.rank then none else some (key, p.2, from' + k + 1)
        | none => none))

/-- A walk takes a new state. -/
def setWalk (stack : Nat) (w : PermWalk) : Upd := .coll (fun c => { c with walks := c.walks.set stack w })

/-- A row that is LEAVING, PENDING or TORN is passed over (R351). -/
def State.permBlocked (s : State) (stack key : Nat) : Bool :=
  s.leaving stack key || locPending (s.dmLoc stack key) || s.tornRow stack key ||
  s.rows.drifts.any (isDrift stack key)

/-- The permutation starts to move a row to its home (R227, R350). -/
def permSend (stack key : Nat) : Plan := fun s =>
  match s.table (keyTable key) with
  | none => []
  | some t => match s.resolve stack t key true with
    | .at p => [.rows (fun r => { r with drifts := r.drifts ++
        [{ stack, key, rank := homeModule key s.jobN, dest := homeStack key, place := p, stage := 0, cause := 1 }] })]
    | _ => []

/-- PERM_MOVE (R351): a walking stack with room in its window goes on to its next row; a walk that finds none is followed
by the revisit, and then ends. -/
def planPermMove (stack : Nat) : Plan := fun s =>
  let w := s.walk stack
  if stack ≥ 16 ∨ s.get .COLL_STATUS_PERM_STATE ≠ 1 ∨ w.phase = 2 ∨ s.permMoves stack ≥ s.get .COLL_CFG_PERM_WINDOW then []
  else if w.phase = 0 then
    match s.permNext stack w with
    | some (key, table, pos) =>
      if s.permBlocked stack key then [setWalk stack { w with table, pos, again := w.again ++ [key] }]
      else plans [fun _ => [setWalk stack { w with table, pos }], permSend stack key] s
    | none => plans [fun _ => [setWalk stack { w with phase := if w.again.isEmpty then 2 else 1 }], permCheck] s
  else match w.again with
    | key :: rest =>
      plans [fun _ => [setWalk stack { w with again := rest, phase := if rest.isEmpty then 2 else 1 }],
        if s.tornRow stack key then count .COLL_PERM_SKIPPED 1
        else if s.permBlocked stack key then fun _ => [] else permSend stack key, permCheck] s
    | [] => plans [fun _ => [setWalk stack { w with phase := 2 }], permCheck] s

/-- PERM_START (R350): ignored outside resharding and while a permutation runs. -/
def planPermStart : Plan := fun s =>
  let st := s.get .COLL_STATUS_PERM_STATE
  if s.prevN.isNone ∨ st = 1 ∨ st = 2 then []
  else [.coll (fun c => { c with walks := List.replicate 16 {}, aborted := false }),
    setF .COLL_STATUS_PERM_STATE 1, setF .COLL_PERM_MOVED 0, setF .COLL_PERM_SKIPPED 0]

/-- PERM_ABORT (R351): the walks stop, and moves in flight complete. -/
def planPermAbort : Plan := fun s =>
  if s.get .COLL_STATUS_PERM_STATE = 1 then
    plans [fun _ => [.coll (fun c => { c with walks := c.walks.map (fun w => { w with phase := 2 }), aborted := true })],
      permCheck] s
  else []

/-- PERM_START (R350). -/
def execPermStart := answer planPermStart
/-- PERM_ABORT (R351). -/
def execPermAbort := answer planPermAbort
/-- PERM_MOVE (R351). -/
def execPermMove (stack : Nat) := answer (planPermMove stack)

end Sys2Proof.Machine
end

