-- ==== Sys2Proof/Machine/Ingest.lean ====
section
/-!
DEFINITION. The ingest engine (R403 to R408, R421): a stream's bytes become records, and records tokens of the stream's
target queues.
-/
namespace Sys2Proof.Machine

def State.stream (s : State) (k : Nat) : GsrStream := Sparse.get {} s.xport.gsr k
def setStream (k : Nat) (x : GsrStream) : Upd := .xport (fun y => { y with gsr := Sparse.set {} y.gsr k x })

/-- The targets of a stream (R405): queues with their section masks. A queue that is not an ingest queue is unused. -/
def State.targets (s : State) (k : Nat) : List (Nat × Nat) :=
  (List.range 2).flatMap (fun n =>
    let i := k * 2 + n
    let one := fun (v q m : Nat) => if v = 1 ∧ s.prodKind q = 6 then [(q, m)] else []
    one (s.get .XPORT_INGEST_MAP_VALID_A i) (s.get .XPORT_INGEST_MAP_QUEUE_A i) (s.get .XPORT_INGEST_MAP_MASK_A i) ++
    one (s.get .XPORT_INGEST_MAP_VALID_B i) (s.get .XPORT_INGEST_MAP_QUEUE_B i) (s.get .XPORT_INGEST_MAP_MASK_B i))

/-- Bytes of a section's data before padding (R404). -/
def secBytes (kind n : Nat) : Nat := if kind = 2 then 12 * n else if kind ≤ 3 then 8 * n else 4 * n

/-- The sections of a record, each whole with its header; none where a KIND is not defined. The second part says whether
the sections end exactly where the bytes do. -/
def splitSections : Nat → List Nat → Option (List (List Nat) × Bool)
  | 0, l => some ([], l.isEmpty)
  | n + 1, l =>
    let kind := fieldOf l 0 1
    let len := 8 + roundUp (secBytes kind (fieldOf l 4 4)) 8
    if l.length < 8 then some ([], false)
    else if kind = 0 ∨ kind > 5 then none
    else if len > l.length then some ([], false)
    else match splitSections n (l.drop len) with
      | some (xs, ok) => some (l.take len :: xs, ok)
      | none => none

/-- Why a header cannot be trusted, 0 for no reason (R407). -/
def headerFault (h : List Nat) : Nat :=
  let len := fieldOf h 4 4
  if fieldOf h 28 4 ≠ crc32c (h.take 28) then 1
  else if fieldOf h 0 2 ≠ 1 then 2
  else if len % 8 ≠ 0 ∨ len < 32 ∨ len > 1048576 then 3
  else 0

/-- Micro-batch of a header: step and slot. -/
def gsrMb (h : List Nat) : Nat := mbOrder (bits (fieldOf h 8 8) 0 44) (bits (fieldOf h 8 8) 44 3)

/-- Why a record with a trusted header is malformed, 0 for no reason (R407). -/
def recordFault (k : Nat) (x : GsrStream) (r : List Nat) : Nat :=
  let n := fieldOf r 18 2
  if n = 0 ∨ n > 64 then 5
  else match splitSections n (r.drop 32) with
    | none => 5
    | some (_, false) => 4
    | some (xs, true) =>
      if fieldOf r 20 4 > 16383 ∨ fieldOf r 20 4 + 1 ≤ Sparse.get 0 x.samples (gsrMb r) then 6
      else if fieldOf r 16 2 ≠ k then 7
      else if fieldOf r 2 2 ≥ 2 ∨ fieldOf r 8 8 ≥ 2 ^ 47 ∨ fieldOf r 24 4 ≠ 0 ∨ xs.any (fun y => fieldOf y 1 1 != 0) then 8
      else 0

/-- A HISTORY section of more than 8,192 events keeps the last of them (R408). -/
def cutHistory (x : List Nat) : List Nat :=
  let n := fieldOf x 4 4
  if fieldOf x 0 1 = 3 ∧ n > 8192 then x.take 4 ++ leBytes 4 8192 ++ ((x.drop (8 + 8 * (n - 8192))).take (8 * 8192)) else x

/-- A target's copy of a record as tokens (R405): the sections its mask selects, LENGTH and SECTIONS rewritten. -/
def copyTokens (mask : Nat) (r : List Nat) (secs : List (List Nat)) : List Token :=
  let mine := secs.filter (fun x => mask.testBit (fieldOf x 0 1 - 1))
  let body := mine.flatten
  let h := r.take 4 ++ leBytes 4 (32 + body.length) ++ (r.drop 8).take 10 ++ leBytes 2 mine.length ++
    (r.drop 20).take 8 ++ leBytes 4 0
  let bs := h ++ body
  (List.range ((bs.length + 255) / 256)).map (fun i => BitVec.ofNat 2048 (ofLe ((bs.drop (256 * i)).take 256)))

/-- Tokens of a record on its way leave while their queues have credit, those of two copies on one queue in the order of
the targets (R405). -/
def pumpTargets (k : Nat) : Plan := fun s =>
  planEach (s.stream k).going.zipIdx (fun g =>
    planEach g.1.2 (fun t s' =>
      if (s'.queue g.1.1).credits = 0 ∨ ((s'.stream k).going.take g.2).any (fun y => y.1 == g.1.1 && !y.2.isEmpty) then []
      else plans [fun s2 =>
          let x := s2.stream k
          [setStream k { x with going := x.going.modify g.2 (fun y => (y.1, y.2.drop 1)) }],
        sendToken g.1.1 t.toNat] s')) s

/-- A record passes to the targets of its stream. -/
def passRecord (k : Nat) (r : List Nat) : Plan := fun s =>
  let secs := match splitSections (fieldOf r 18 2) (r.drop 32) with
    | some (xs, _) => xs
    | none => []
  let long := secs.any (fun x => fieldOf x 0 1 == 3 && decide (fieldOf x 4 4 > 8192))
  let x := s.stream k
  plans [fun s' => [setStream k { x with
        samples := Sparse.set 0 x.samples (gsrMb r) (fieldOf r 20 4 + 1)
        going := (s.targets k).map (fun t => (t.1, copyTokens t.2 r (secs.map cutHistory))) },
      s'.addF .XPORT_GSR_RECORDS 1] ++ (if long then [s'.addF .XPORT_GSR_TRUNCATED 1] else []),
    pumpTargets k] s

/-- Whole records of a stream's bytes are checked and passed on, until one waits for credit. `ep` and `ch` name the
connection, `start` the stream offset of the record start that the last frame names, `fuel` bounds the records. -/
def pumpStream (k ep ch : Nat) (start : Option Nat) : Nat → Plan
  | 0 => fun _ => []
  | fuel + 1 => fun s =>
    let x := s.stream k
    let base := x.expect - x.buf.length
    let next := pumpStream k ep ch start fuel
    if x.going.any (fun g => !g.2.isEmpty) ∨ x.skip ∨ x.buf.length < 32 then []
    else
      let sub := headerFault x.buf
      let len := fieldOf x.buf 4 4
      if sub ≠ 0 then
        let (cut, go) := match start with
          | some a => if base < a ∧ a ≤ x.expect then (a - base, true) else (x.buf.length, false)
          | none => (x.buf.length, false)
        plans [fun s' => [s'.addF .XPORT_GSR_MALFORMED 1, s'.addF .XPORT_GSR_DROP_SKIPPED_BYTES cut,
            setStream k { x with buf := x.buf.drop cut, skip := !go, drop := false, going := [] }],
          sendNak ep ch 9 sub 0x50 x.seq base, next] s
      else if x.buf.length < len then []
      else
        let r := x.buf.take len
        let x' := { x with buf := x.buf.drop len, drop := false, going := [] }
        let sub := recordFault k x r
        if x.drop then plans [fun s' => [setStream k x', s'.addF .ERR_DMA_STATE_SKIPPED 1 2], next] s
        else if sub ≠ 0 then
          plans [fun s' => [setStream k x', s'.addF .XPORT_GSR_MALFORMED 1], sendNak ep ch 9 sub 0x50 x.seq base, next] s
        else plans [fun _ => [setStream k x'], passRecord k r, next] s

/-- Whether the ingest engine takes a frame of a stream now: it does not run while halted, nor past a record on its way. -/
def State.streamReady (s : State) (k : Nat) : Bool :=
  !s.dmaHalted 2 && !(s.stream k).going.any (fun g => !g.2.isEmpty)

/-- A GSR frame's bytes join their stream (R403). While the stream skips, bytes before the record start that ARG1 names
are counted and dropped (R407). -/
def recvGsr (f : GtFrame) : Plan := fun s =>
  let b := f.body
  let k := b.arg1 % 65536
  let at' := bits b.arg1 16 16
  let x := s.stream k
  if k ≥ 256 ∨ b.arg0 ≠ x.expect then violation f.ep f.ch 7 0x50 f.seq (gtHeader8 f) 0 s
  else
    let start := if at' = 0xFFFF then none else some (b.arg0 + at')
    let n := b.payload.length
    let cut := if x.skip then (if at' < n then at' else n) else 0
    let y : GsrStream := { x with
      expect := x.expect + n, buf := x.buf ++ b.payload.drop cut, skip := x.skip && decide (at' ≥ n)
      conn := connIdx f.ep f.ch + 1, seq := f.seq }
    plans [fun s' => setStream k y :: (if cut = 0 then [] else [s'.addF .XPORT_GSR_DROP_SKIPPED_BYTES cut]),
      pumpStream k f.ep f.ch start (y.buf.length / 32 + 1)] s

/-- A stream goes on once its targets have credit. -/
def resumeStream (k : Nat) : Plan := fun s =>
  let x := s.stream k
  plans [pumpTargets k, pumpStream k ((x.conn - 1) / 4) ((x.conn - 1) % 4) none (x.buf.length / 32 + 1)] s

/-- Streams of a connection that opens anew begin at offset 0 (notes/assumptions/58.md). -/
def resetStreams (i : Nat) : Upd :=
  .xport (fun y => { y with gsr := y.gsr.filter (fun p => p.2.conn != i + 1) })

/-- The ingest engine reads a line as UE, and its channel halts at a stream (R421). -/
def haltIngest (k a : Nat) : Plan := planIf (fun s => s.lineBad a && !s.dmaHalted 2)
  (plans [haltDma 2 a k, fun _ => [.var .ingestHalt 0 (k + 1)]])

/-- DMA_RESTART and DMA_RESTART_SKIP of the ingest channel: the record is taken again, or discarded without a NAK. -/
def restartIngest (skip : Bool) : Plan := fun s =>
  let k := s.var .ingestHalt - 1
  let x := s.stream k
  [setF .ERR_DMA_STATE_HALTED 0 2, .var .ingestHalt 0 0] ++ (if skip then [setStream k { x with drop := true }] else [])

end Sys2Proof.Machine
end

