-- ==== Sys2Proof/Machine/Xport.lean ====
section
/-!
DEFINITION. The receiving side of Garnis Transport (R382 to R400): the checks of a frame, connections, sequencing,
acknowledgement and retransmission, keepalive and silence, and the messages that frames or the NoC carry to units.
-/
namespace Sys2Proof.Machine

/-! The checks of a frame (R382, R383). -/

/-- The opcodes of R383. -/
def gtOpcodes : List Nat :=
  [0, 1, 2, 3, 4, 0x10, 0x11, 0x20, 0x21, 0x22, 0x23, 0x28, 0x29, 0x2A, 0x2B, 0x2C, 0x2D, 0x2E, 0x30, 0x31, 0x32, 0x33,
   0x34, 0x35, 0x36, 0x40, 0x41, 0x42, 0x43, 0x50]

/-- Whether an opcode is accepted from an endpoint kind: 1 MODULE, 2 SINK, 3 FEEDER, 4 CONTROLLER. -/
def gtAccepted (op kind : Nat) : Bool :=
  op ≤ 4 || (kind == 1 && decide (0x10 ≤ op ∧ op ≤ 0x40)) || (kind == 2 && decide (0x41 ≤ op ∧ op ≤ 0x43)) ||
  (kind == 3 && op == 0x50)

/-- Whether entries of variable length fill a payload exactly. -/
def entriesFill (es : List (List Nat)) (n : Nat) : Bool := (es.map List.length).foldl (· + ·) 0 == n

/-- Bytes of a slot of a key's table, and its dimension. -/
def State.slotBytes (s : State) (key : Nat) : Option (Nat × Nat) :=
  (s.table (keyTable key)).map (fun t => (tblSlot t, tblDim t))

/-- Whether a payload's layout is consistent with its length (R382, check 6). A layout that turns on a table or a directory
entry is tested where this module declares it. -/
def State.payloadOk (s : State) (b : GtBody) : Bool :=
  let n := b.payload.length
  match b.op with
  | 0x00 => n == 32
  | 0x01 => n == 8
  | 0x02 | 0x03 | 0x04 | 0x41 => n == 16
  | 0x10 => decide (1 ≤ b.arg0 ∧ b.arg0 ≤ 34 ∧ n = 256 * b.arg0)
  | 0x11 => n == 4 * b.arg0
  | 0x20 => decide (n % 24 = 0 ∧ n ≤ 8952)
  | 0x21 => entriesFill (replyEntries 374 b.payload) n
  | 0x22 => entriesFill (pushEntries s 560 b.payload) n
  | 0x28 =>
    let part := bits b.arg1 8 8
    decide (0 < n ∧ part ≤ bits b.arg1 16 8) && (match s.slotBytes b.arg0 with
      | some (slot, _) => n == min 8960 (slot - 8960 * part) && bits b.arg1 16 8 == (slot - 1) / 8960
      | none => true)
  | 0x2E => decide (8 ≤ n ∧ n % 4 = 0) && (match s.slotBytes b.arg0 with | some (_, d) => n == 8 + 4 * d | none => true)
  | 0x30 => decide (n % 8 = 0 ∧ n ≤ 8192)
  | 0x31 => n == (if bits b.arg1 0 4 = 0 then 8 else 8 * (bits b.arg1 4 5 + 1))
  | 0x32 => n == (if bits b.arg1 0 4 = 0 then 16 else roundUp (8 * (bits b.arg1 4 5 + 1) + 5) 8)
  | 0x36 => n == 16 * b.arg0
  | 0x43 => n == 8
  | 0x34 => decide (0 < n) && n % max 1 (fmtWidth (s.fetchFmt b.arg0) / 8) == 0
  | 0x40 | 0x42 | 0x50 => true
  | _ => n == 0

/-- The reason of the first of checks 4 to 6 that a frame fails, 0 for none (R382). -/
def State.gtFault (s : State) (f : GtFrame) : Nat :=
  if !gtOpcodes.contains f.body.op then 2
  else if !gtAccepted f.body.op (s.get .XPORT_EP_CFG_KIND f.ep) then 0x0C
  else if f.body.payload.length > 8960 ∨ !s.payloadOk f.body then 7
  else 0

/-! Acknowledgements (R392, R393). -/

/-- The SACK bitmap: bit i says that SEQ ACK + 1 + i has been received (R383). -/
def Conn.sack (c : Conn) : Nat :=
  (List.range 64).foldl (fun t i => t + b2n (c.ahead.any (fun f => f.seq == (c.rcv + 1 + i) % 2 ^ 32)) * 2 ^ i) 0

/-- A standalone ACK leaves (R392). -/
def sendAck (ep ch : Nat) : Plan := fun s =>
  let c := s.conn ep ch
  plans [fun _ => [setConn ep ch { c with owe := false }],
    sendUnseq ep ch true { op := 1, payload := leBytes 8 c.sack }] s

/-- The retransmit store cannot give back a frame: its connection closes, drops what it holds, and opens again (R394, R418).
-/
def storeLost (ep ch : Nat) : Plan := fun s =>
  plans [dropConn ep ch 0, match s.epSink ep with
    | some k => if s.sinkSt k = 2 ∧ ch = 0 then rewind k else fun _ => []
    | none => fun _ => [], openConn ep ch] s

/-- A frame leaves again, with RETX = 1 and its own SEQ (R393), as its retransmit store gives it (R410, R418). -/
def resend (ep ch : Nat) (x : Sent) : Plan := fun s =>
  let send : Plan := plans [fun s =>
    s.frame ep ch 12 x.seq (s.conn ep ch) x.body ++
    [s.addF .XPORT_TOTALS_TX 1, s.addF .XPORT_CONN_STATS_RETX 1 (connIdx ep ch)],
    fun s => [setConn ep ch { s.conn ep ch with owe := false }]]
  if !(s.conn ep ch).unacked.any (fun y => y.seq == x.seq) then []
  else if x.ecc = 0 then send s
  else if x.ecc = 1 then
    plans [noteWord 5 (s.storeDie ep) 1 10, fun s => [setConn ep ch { s.conn ep ch with
      unacked := (s.conn ep ch).unacked.map (fun y => if y.seq == x.seq then { y with ecc := 0 } else y) }], send] s
  else plans [noteWord 5 (s.storeDie ep) 2 10, storeLost ep ch] s

/-- Room in the retransmit stores lets frames, and tokens for other modules, go on (R391). -/
def storeFreed : Plan := plans [unpark, fun s =>
  planEach ((s.xport.outbox.map (·.1)).filter (fun q => s.consKind q == 5)) drainOutbox s]

/-- What ACK and CREDIT of a frame say: frames before ACK are done, and frames that wait may leave (R381, R391). -/
def takeAck (ep ch ack credit : Nat) : Plan := fun s =>
  let c := s.conn ep ch
  plans [fun _ => [setConn ep ch { c with
      unacked := c.unacked.filter (fun x => !serialBefore x.seq ack)
      credit := if serialBefore c.credit credit then credit else c.credit }], drainConn ep ch, storeFreed] s

/-- An ACK's bitmap: a frame with 3 or more received above it leaves again, once for each SACK that adds one (R393). -/
def takeSack (ep ch ack map : Nat) : Plan := fun s =>
  let c := s.conn ep ch
  let place := fun (x : Sent) => (x.seq + 2 ^ 32 - ack) % 2 ^ 32
  let above := fun (x : Sent) => ((List.range 64).filter (fun i => map.testBit i && decide (i + 1 > place x))).length
  let got := fun (x : Sent) => place x ≥ 1 && map.testBit (place x - 1)
  let lost := c.unacked.filter (fun x => !got x && decide (above x ≥ 3 ∧ above x > x.above))
  plans [fun _ => [setConn ep ch { c with unacked := c.unacked.map (fun x =>
      if lost.contains x then { x with above := above x } else x) }],
    planEach lost (resend ep ch)] s

/-! Queues between modules (R39, R41, R343, R395, R491). -/

/-- A token of another module arrives at its consumer's queue. -/
def recvToken (q gen t : Nat) : Plan := fun s =>
  let x := s.queue q
  let drop : List Upd := [s.addF .CLAY_FLIP_DISCARD_COUNT 1]
  if s.prodKind q ≠ 5 ∨ gen % 16 ≠ x.gen % 16 then drop
  else if s.var .qOwed q > 0 then
    plans [fun _ => [.var .qOwed q (s.var .qOwed q - 1), s.addV .qReport 1 q], lateDrop 1] s
  else if x.held ≥ x.depth then drop
  else .queue q (.recvRemote (BitVec.ofNat 2048 t)) :: keepToken q t s

/-- QTOKEN (R395). -/
def recvTokens (b : GtBody) : Plan :=
  plans [planEach (chunks 256 b.payload) (fun t => recvToken (b.arg1 % 8192) b.gen (ofLe t)), rootFeeds]

/-- Credits of another module arrive at their producer's queue. -/
def recvCredit (q gen n : Nat) : Plan :=
  planEach (List.range n) (fun _ s =>
    let x := s.queue q
    if s.consKind q ≠ 5 ∨ gen % 16 ≠ x.gen % 16 ∨ x.held ≥ x.depth then [s.addF .CLAY_FLIP_DISCARD_COUNT 1]
    else [.queue q .creditRemote])

/-- QCREDIT (R395). -/
def recvCredits (b : GtBody) : Plan :=
  planEach (chunks 4 b.payload) (fun e =>
    plans [recvCredit (fieldOf e 0 2) b.gen (fieldOf e 2 2), drainOutbox (fieldOf e 0 2)])

/-- QCREDIT_REPORT (R395): the credits of dequeues that no frame has reported, for the queues that a rank produces; each
entry names the queue by the producer's id. -/
def planReport (rank : Nat) : Plan := fun s =>
  let qs := (s.listedVar .qReport).filter (fun q => match s.img.queueRec q with
    | some r => s.prodKind q == 5 && recGet r 6 2 == rank
    | none => false)
  let es := qs.map (fun q => leBytes 2 (recGet ((s.img.queueRec q).getD 0) 20 4) ++ leBytes 2 (s.var .qReport q))
  if qs.isEmpty then []
  else plans [fun _ => qs.map (fun q => .var .qReport q 0),
    gtSend rank 0 { op := 0x11, arg0 := es.length, payload := es.flatten }] s

/-! Messages to units. -/

/-- A message of a module opcode from a rank reaches the unit it is for. -/
def unitBody (rank : Nat) (b : GtBody) : Plan :=
  match b.op with
  | 0x20 => recvLookups b
  | 0x21 => recvReplies b
  | 0x22 => recvPushes b
  | 0x23 => endMark rank b
  | 0x28 => recvCopy rank b
  | 0x29 => recvCopyAck b
  | 0x2A => recvCopyNak b
  | 0x2B => recvSwitch b
  | 0x2C => recvSwitchAck b
  | 0x2D => recvCancel b
  | 0x2E => recvFwd b
  | 0x30 => recvChain b
  | 0x31 => recvContrib rank b
  | 0x32 => recvResult rank b
  | 0x33 => recvFetchReq rank b
  | 0x34 => recvFetchData rank b
  | 0x35 => recvFetchStale rank b
  | 0x36 => recvRelease rank b
  | _ => fun _ => []

/-- Keys of another rank's lookups and pushes that its end markers count: those that it forwards for others are not its
unit's (R349). -/
def noteTraffic (rank : Nat) (b : GtBody) : Plan := fun s =>
  let own : List (List Nat) → Nat := fun es => (es.filter (fun e => fieldOf e 15 1 == 0)).length
  match b.op with
  | 0x20 => noteKeys rank 0 (own (chunks 24 b.payload)) s
  | 0x22 => noteKeys rank 1 (own (pushEntries s 560 b.payload)) s
  | _ => []

/-- A sequenced frame is delivered to its unit (R383, R390). -/
def deliver (f : GtFrame) : Plan :=
  match f.body.op with
  | 0x10 => recvTokens f.body
  | 0x11 => recvCredits f.body
  | 0x41 => recvSinkAck f
  | 0x42 => recvRefill f
  | 0x43 => recvQpReady f
  | 0x50 => recvGsr f
  | _ => plans [noteTraffic f.ep f.body, unitBody f.ep f.body]

/-- Whether a frame's unit takes it now (R391, R421). -/
def State.takes (s : State) (f : GtFrame) : Bool :=
  match f.body.op with
  | 0x42 => !s.dmaHalted 1
  | 0x50 => s.streamReady (f.body.arg1 % 65536)
  | _ => true

/-- Frames received in order are delivered while their units take them. -/
def pumpConn (ep ch : Nat) : Plan := fun s =>
  planEach (s.conn ep ch).ready (fun f s' =>
    let c := s'.conn ep ch
    if c.ready.head? = some f ∧ s'.takes f then
      plans [fun _ => [setConn ep ch { c with ready := c.ready.drop 1 }], deliver f] s'
    else []) s

/-- Every connection with frames that wait for their unit goes on. -/
def pumpAll : Plan := fun s =>
  planEach (s.xport.conns.filter (fun p => !p.2.ready.isEmpty)) (fun p => pumpConn (p.1 / 4) (p.1 % 4)) s

/-! Sequencing (R390 to R392). -/

/-- Frames ahead of a gap in SEQ order. -/
def insertAhead (f : GtFrame) : List GtFrame → List GtFrame
  | [] => [f]
  | g :: gs => if serialBefore f.seq g.seq then f :: g :: gs else g :: insertAhead f gs

/-- Frames that now follow in order. -/
def inOrder (rcv : Nat) : List GtFrame → List GtFrame
  | [] => []
  | g :: gs => if g.seq = rcv then g :: inOrder ((rcv + 1) % 2 ^ 32) gs else []

/-- An immediate ACK, at most one per 64 clk of a connection (R392). -/
def ackNow (ep ch : Nat) : Plan := fun s =>
  let c := s.conn ep ch
  if c.ackAt = 0 ∨ s.var .clk + 1 ≥ c.ackAt + 64 then
    plans [fun _ => [setConn ep ch { c with ackAt := s.var .clk + 1 }], sendAck ep ch] s
  else []

/-- A sequenced frame on an open connection. -/
def recvSeq (f : GtFrame) : Plan := fun s =>
  let c := s.conn f.ep f.ch
  if serialBefore f.seq c.rcv then sendAck f.ep f.ch s
  else if !serialBefore f.seq c.grant then violation f.ep f.ch 5 f.body.op f.seq (gtHeader8 f) 0 s
  else if f.seq = c.rcv then
    let run := f :: inOrder ((f.seq + 1) % 2 ^ 32) c.ahead
    plans [fun _ => [setConn f.ep f.ch { c with
        rcv := (c.rcv + run.length) % 2 ^ 32, ahead := c.ahead.drop (run.length - 1), ready := c.ready ++ run, owe := true }],
      pumpConn f.ep f.ch] s
  else plans [fun _ => if c.ahead.any (fun g => g.seq == f.seq) then []
      else [setConn f.ep f.ch { c with ahead := insertAhead f c.ahead, owe := true }],
    ackNow f.ep f.ch] s

/-! Connections (R388, R389, R398, R400). -/

/-- The index under which an endpoint's silence is held. -/
def silIdx (ep : Nat) : Nat := ep * 4

/-- A connection opens with a peer's hello: both sides begin at SEQ 0 (R388). What units have handed over and has not left
stays, except on the reset of R389, whose frames are discarded. -/
def openWith (f : GtFrame) (reset : Bool) : Plan := fun s =>
  let c := s.conn f.ep f.ch
  let i := connIdx f.ep f.ch
  let journal := fieldOf f.body.payload 8 8
  let begun := s.connState f.ep f.ch = 1
  plans [fun _ => [setConn f.ep f.ch { viol := c.viol, nakAt := c.nakAt
                                       win := if begun then c.win else s.get .XPORT_CFG_RX_WINDOW
                                       udp := if begun then c.udp else s.newPort f.ep
                                       chans := if begun then c.chans else s.newChannels f.ep
                                       credit := fieldOf f.body.payload 4 4, wait := if reset then [] else c.wait },
      setF .XPORT_EP_STATE_PEER_INC f.inc i, resetStreams i,
      .spring (fun x => { x with refill := Sparse.set {} x.refill i {} })] ++
      (if s.connState f.ep f.ch = 3 then [] else [setF .XPORT_EP_STATE_CONN 2 i]) ++
      (if reset then [s.addF .XPORT_CONN_STATS_DISCARDED (c.unacked.length + c.wait.length) i] else []),
    if f.body.op = 3 then sendUnseq f.ep f.ch false (helloBody s 4) else fun _ => [],
    match s.epSink f.ep with
    | some k => if f.ch = 0 then plans [sinkInc k journal, if reset ∧ s.sinkSt k = 2 then rewind k else fun _ => [], sinkReady k]
      else fun _ => []
    | none => fun _ => [],
    drainConn f.ep f.ch, storeFreed] s

/-- HELLO (R388, R389). An endpoint has no connection on a channel that it does not have (R387). -/
def recvHello (f : GtFrame) : Plan := fun s =>
  let i := connIdx f.ep f.ch
  let st := s.connState f.ep f.ch
  if st = 4 ∨ f.ch ≥ s.channels f.ep then sendNoConn f.port f.ep f.ch 3 0 s
  else if (st = 2 ∨ st = 3) ∧ s.get .XPORT_EP_STATE_PEER_INC i = f.inc then
    sendUnseq f.ep f.ch false (helloBody s 4) s
  else openWith f (decide (st = 2 ∨ st = 3)) s

/-- A NAK (R389, R398): NO_CONN makes this side reopen the connection; any other changes nothing. -/
def recvNak (f : GtFrame) : Plan := fun s =>
  if fieldOf f.body.payload 0 1 = 4 ∧ s.connState f.ep f.ch = 2 then
    plans [dropConn f.ep f.ch 0, match s.epSink f.ep with
      | some k => if f.ch = 0 ∧ s.sinkSt k = 2 then rewind k else fun _ => []
      | none => fun _ => [], openConn f.ep f.ch] s
  else []

/-- A KEEPALIVE may announce a rejoin (R328, R396). -/
def recvKeepalive (f : GtFrame) : Plan := fun s =>
  if s.get .XPORT_EP_CFG_KIND f.ep = 1 ∧ fieldOf f.body.payload 3 1 % 2 = 1 then
    noteRejoin f.ep (fieldOf f.body.payload 8 8 % 2 ^ 44) s
  else []

/-- A frame that has passed the checks and belongs to its connection. -/
def gtTake (f : GtFrame) : Plan := fun s =>
  let st := s.connState f.ep f.ch
  let op := f.body.op
  let acks := f.flags.testBit 3 && (st == 2 || st == 3)
  let quiet : Plan := fun s' => s'.addF .XPORT_TOTALS_RX 1 ::
    (if f.flags.testBit 1 then [] else [setF .XPORT_EP_STATE_SILENCE 0 (silIdx f.ep),
      .var .heardAt f.ep (s'.get .BEAT_COUNT_COUNT)])
  if acks ∧ serialBefore (s.conn f.ep f.ch).next f.ack then
    violation f.ep f.ch 6 op f.seq (gtHeader8 f) 0 s
  else if st = 3 ∧ op ≠ 0 ∧ op ≠ 1 ∧ op ≠ 3 then
    plans [quiet, sendNak f.ep f.ch 8 0 op f.seq 0] s
  else plans [quiet, if acks then takeAck f.ep f.ch f.ack f.credit else fun _ => [],
    match op with
    | 0 => recvKeepalive f
    | 1 => takeSack f.ep f.ch f.ack (ofLe f.body.payload)
    | 2 => recvNak f
    | 3 => recvHello f
    | 4 => if st = 1 then openWith f false else fun _ => []
    | _ => if st = 2 then recvSeq f else sendNoConn f.port f.ep f.ch op f.seq] s

/-- A keepalive of a LOST rank without a rejoin is ignored (R327). -/
def State.ignored (s : State) (f : GtFrame) : Bool :=
  f.body.op == 0 && s.get .XPORT_EP_CFG_KIND f.ep == 1 && s.get .COLL_PEER_STATE f.ep == 1 &&
  fieldOf f.body.payload 3 1 % 2 == 0

/-- A GT frame whose header is sound arrives (R382, R389, R397). -/
def gtArrive (f : GtFrame) : Plan := fun s =>
  let op := f.body.op
  let i := connIdx f.ep f.ch
  let st := s.connState f.ep f.ch
  let fault := s.gtFault f
  if s.get .XPORT_EP_CFG_KIND f.ep = 0 ∨ f.ep ≥ 65792 then sendNoConn f.port f.ep f.ch op f.seq s
  else if fault ≠ 0 then violation f.ep f.ch fault op f.seq (gtHeader8 f) 0 s
  else if s.ignored f then []
  else if op ≠ 3 ∧ (st = 2 ∨ st = 3) ∧ s.get .XPORT_EP_STATE_PEER_INC i ≠ f.inc then
    sendNoConn f.port f.ep f.ch op f.seq s
  else if (op ≤ 1 ∨ op ≥ 5) ∧ st ≠ 2 ∧ st ≠ 3 then sendNoConn f.port f.ep f.ch op f.seq s
  else gtTake f s

/-- A frame of one opcode arrives. -/
def gtRow (op : Nat) (f : GtFrame) : Plan := planIf (fun _ => f.body.op == op) (gtArrive f)

/-- A message between units arrives, over the NoC or in a GT frame. -/
def viaRow (op : Nat) : Via → Plan
  | .noc n => fun s => nocArrive op n (unitBody s.rank) s
  | .gt f => gtRow op f

/-- GT_UNDEFINED_OPCODE (R382): a frame that fails a check is discarded as a violation. `reason` 1 or 3 says that the
header, or the length, is bad; any other, that the frame is as it stands. -/
def planReject (f : GtFrame) (reason : Nat) : Plan := fun s =>
  if s.get .XPORT_EP_CFG_KIND f.ep = 0 then sendNoConn f.port f.ep f.ch f.body.op f.seq s
  else if reason = 1 then violation f.ep f.ch 1 0xFF f.seq (gtHeader8 f) 0 s
  else if reason = 3 then violation f.ep f.ch 3 f.body.op f.seq (gtHeader8 f) 0 s
  else if s.gtFault f ≠ 0 then gtArrive f s
  else []

/-! Timers (R388, R392 to R394). -/

/-- GT_RTO (R393, R394): an unacknowledged frame leaves again, or after 64 times to an unwatched endpoint its connection
is FAILED. -/
def planRto (ep ch seq : Nat) : Plan := fun s =>
  let c := s.conn ep ch
  match c.unacked.find? (fun x => x.seq == seq) with
  | none => []
  | some x =>
    let x' := { x with tries := x.tries + 1 }
    if !s.connUp ep ch then []
    else if x'.tries ≥ 64 ∧ s.get .XPORT_EP_CFG_WATCH ep = 0 then
      plans [dropConn ep ch 4, postEvent 0x33 6 0 (ep % 65536) (epShown ep) ch] s
    else plans [fun _ => [setConn ep ch { c with unacked := c.unacked.map (fun y => if y.seq = seq then x' else y) }],
      resend ep ch x'] s

/-- GT_ACK_TIMER (R392). -/
def planAckTimer (ep ch : Nat) : Plan := planIf (fun s => (s.conn ep ch).owe && s.connUp ep ch) (sendAck ep ch)

/-- GT_HELLO_RETRY (R388). -/
def planHelloRetry (ep ch : Nat) : Plan := fun s =>
  if s.connState ep ch = 1 then sendUnseq ep ch false (helloBody s 3) s else []

/-! Keepalive and silence (R396, R397). -/

/-- The payload of a KEEPALIVE (R396): STATE numbers STOPPED, RUNNING and HOLD. -/
def State.keepalive (s : State) : GtBody :=
  let rejoin := s.get .COLL_JOIN_REJOIN = 1 ∧ !s.stopped
  { op := 0, payload := leBytes 2 (s.get .PORT_FWD_CFG_OWN_ID) ++ [s.get .BEAT_STATUS_STATE, if rejoin then 1 else 0] ++
      leBytes 4 (s.get .BEAT_COUNT_COUNT) ++ leBytes 8 (if rejoin then s.get .COLL_JOIN_JOIN_STEP else 0) ++
      leBytes 4 (s.get .CLAY_GEN_ACTIVE) ++ List.replicate 12 0 }

/-- KEEPALIVE_SEND (R396): at an even boundary, or by the clock in HOLD and STOPPED. -/
def planKeepalive : Plan := fun s =>
  if s.running ∧ s.get .BEAT_COUNT_COUNT % 2 = 1 then []
  else planEach ((s.listed .XPORT_EP_CFG_WATCH).filter (fun ep => s.connState ep 0 == 2))
    (fun ep => sendUnseq ep 0 true s.keepalive) s

/-- The silence counts of watched endpoints rise by one (R397). -/
def silenceTick : Plan := fun s =>
  if s.var .graceLeft > 0 then []
  else (s.listed .XPORT_EP_CFG_WATCH).map (fun ep =>
    setF .XPORT_EP_STATE_SILENCE (min 15 (s.get .XPORT_EP_STATE_SILENCE (silIdx ep) + 1)) (silIdx ep))

/-- Whether a watched endpoint silent for 6 beats is still to be declared lost. -/
def State.lostDue (s : State) (ep : Nat) : Bool :=
  s.get .XPORT_EP_CFG_WATCH ep == 1 && s.get .XPORT_EP_STATE_SILENCE (silIdx ep) ≥ 6 &&
  (if s.get .XPORT_EP_CFG_KIND ep = 1 then ep != s.rank && s.get .COLL_PEER_STATE ep != 1
   else (List.range (s.channels ep)).any (fun ch => s.connState ep ch != 0))

/-- PEER_LOST (R327, R394, R397): a module becomes LOST in the view, a sink is handled as R290 states, and the endpoint's
connections are CLOSED. -/
def planPeerLost (ep : Nat) : Plan := fun s =>
  if !s.lostDue ep then []
  else plans [if s.get .XPORT_EP_CFG_KIND ep = 1 then
        plans [peerLost ep, postEvent 0x32 6 0 ep ep (s.var .heardAt ep)]
      else match s.epSink ep with
        | some k => failSink k
        | none => fun _ => [],
    planEach (List.range (s.channels ep)) (fun ch s' =>
      let c := s'.conn ep ch
      let other := fun (b : GtBody) => b.op != 0x30 && b.op != 0x31
      if s'.connState ep ch = 0 then []
      else plans [fun _ => [setConn ep ch { c with
          unacked := c.unacked.filter (fun x => other x.body), wait := c.wait.filter other }], dropConn ep ch 0] s'),
    storeFreed] s

/-! The controller's writes (R400, R409). -/

/-- The endpoint that XPORT_EP_SEL names. -/
def State.selEp (s : State) : Nat :=
  if s.get .XPORT_EP_SEL_SVC = 1 then 65536 + s.get .XPORT_EP_SEL_ENDPOINT % 256 else s.get .XPORT_EP_SEL_ENDPOINT

/-- QUAR_CLEAR (R400). -/
def planQuarClear : Plan := fun s =>
  ((List.range 4).filter (fun ch => s.connState s.selEp ch == 3)).map (fun ch => setF .XPORT_EP_STATE_CONN 2 (connIdx s.selEp ch))

/-- The connections of an endpoint close, discarding their frames; those that the transport itself opens reopen (R388, R409). -/
def resetEp (ep : Nat) : Plan := fun s =>
  plans [planEach (List.range 4) (fun ch s' => if s'.connState ep ch = 0 then [] else dropConn ep ch 0 s'),
    match s.epSink ep with
    | some k => if s.sinkSt k = 2 then rewind k else fun _ => []
    | none => fun _ => [],
    if (s.get .XPORT_EP_CFG_KIND ep = 1 ∧ ep ≠ s.rank) ∨ s.get .XPORT_EP_CFG_KIND ep = 2 then openEp ep else fun _ => [],
    storeFreed] s

/-- CREDIT_ARRIVAL (R38): tokens that waited for the credit depart, and streams that waited for it go on. -/
def planCreditIn (q : Nat) : Plan := plans [planCredit q, fun s =>
  if s.prodKind q = 6 then
    planEach (s.xport.gsr.filter (fun p => p.2.going.any (fun g => g.1 == q && !g.2.isEmpty))) (fun p => resumeStream p.1) s
  else [], pumpAll]

/-- GT_KEEPALIVE (R397). -/
def execGtKeepalive (f : GtFrame) := answer (gtRow 0 f)
/-- GT_ACK (R392). -/
def execGtAck (f : GtFrame) := answer (gtRow 1 f)
/-- GT_NAK (R398). -/
def execGtNak (f : GtFrame) := answer (gtRow 2 f)
/-- GT_HELLO (R388). -/
def execGtHello (f : GtFrame) := answer (gtRow 3 f)
/-- GT_HELLO_ACK (R388). -/
def execGtHelloAck (f : GtFrame) := answer (gtRow 4 f)
/-- GT_UNDEFINED_OPCODE (R382). -/
def execGtUndefinedOpcode (f : GtFrame) (reason : Nat) := answer (planReject f reason)
/-- QTOKEN (R395). -/
def execQtoken (f : GtFrame) := answer (gtRow 0x10 f)
/-- QCREDIT (R395). -/
def execQcredit (f : GtFrame) := answer (gtRow 0x11 f)
/-- QCREDIT_REPORT (R395). -/
def execQcreditReport (rank : Nat) := answer (planReport rank)
/-- LOOKUP_REQ (R211). -/
def execLookupReq (m : Via) := answer (viaRow 0x20 m)
/-- LOOKUP_REPLY (R211). -/
def execLookupReply (m : Via) := answer (viaRow 0x21 m)
/-- PUSH (R246). -/
def execPush (m : Via) := answer (viaRow 0x22 m)
/-- END_MARK (R349). -/
def execEndMark (m : Via) := answer (viaRow 0x23 m)
/-- DRIFT_COPY (R227). -/
def execDriftCopy (m : Via) := answer (viaRow 0x28 m)
/-- COPY_ACK (R227). -/
def execCopyAck (m : Via) := answer (viaRow 0x29 m)
/-- COPY_NAK (R229). -/
def execCopyNak (m : Via) := answer (viaRow 0x2A m)
/-- SWITCH (R227). -/
def execSwitch (m : Via) := answer (viaRow 0x2B m)
/-- SWITCH_ACK (R227). -/
def execSwitchAck (m : Via) := answer (viaRow 0x2C m)
/-- DRIFT_CANCEL (R229). -/
def execDriftCancel (m : Via) := answer (viaRow 0x2D m)
/-- DRIFT_FWD (R228). -/
def execDriftFwd (m : Via) := answer (viaRow 0x2E m)
/-- CHAIN_SEG (R335). -/
def execChainSeg (m : Via) := answer (viaRow 0x30 m)
/-- ROOT_CONTRIB (R338). -/
def execRootContrib (m : Via) := answer (viaRow 0x31 m)
/-- ROOT_RESULT (R340). -/
def execRootResult (m : Via) := answer (viaRow 0x32 m)
/-- FETCH_REQ (R345). -/
def execFetchReq (m : Via) := answer (viaRow 0x33 m)
/-- FETCH_DATA (R345). -/
def execFetchData (m : Via) := answer (viaRow 0x34 m)
/-- FETCH_STALE (R348). -/
def execFetchStale (m : Via) := answer (viaRow 0x35 m)
/-- LEASE_RELEASE (R346). -/
def execLeaseRelease (m : Via) := answer (viaRow 0x36 m)
/-- SINK_ACK (R286). -/
def execSinkAck (f : GtFrame) := answer (gtRow 0x41 f)
/-- REFILL (R298). -/
def execRefill (f : GtFrame) := answer (gtRow 0x42 f)
/-- QP_READY (R402). -/
def execQpReady (f : GtFrame) := answer (gtRow 0x43 f)
/-- GSR (R405): `line` is the line of its store that the ingest engine reads, which halts it where it reads as UE (R421). -/
def execGsr (f : GtFrame) (line : Nat) := answer (plans [haltIngest (f.body.arg1 % 65536) line, gtRow 0x50 f])
/-- GT_RTO (R393). -/
def execGtRto (ep ch seq : Nat) := answer (planRto ep ch seq)
/-- GT_ACK_TIMER (R392). -/
def execGtAckTimer (ep ch : Nat) := answer (planAckTimer ep ch)
/-- GT_HELLO_RETRY (R388). -/
def execGtHelloRetry (ep ch : Nat) := answer (planHelloRetry ep ch)
/-- KEEPALIVE_SEND (R396). -/
def execKeepaliveSend := answer planKeepalive
/-- PEER_LOST (R327). -/
def execPeerLost (ep : Nat) := answer (planPeerLost ep)
/-- XPORT_COMMIT (R409). -/
def execXportCommit := answer (fun _ => [setF .XPORT_STATUS_COMMIT_PENDING 1])
/-- QUAR_CLEAR (R400). -/
def execQuarClear := answer planQuarClear
/-- CONN_RESET (R409). -/
def execConnReset := answer (fun s => resetEp s.selEp s)
/-- CREDIT_ARRIVAL (R38). -/
def execCreditArrival (q : Nat) := answer (planCreditIn q)

end Sys2Proof.Machine
end

