-- ==== Sys2Proof/Machine/Err.lean ====
section
/-!
DEFINITION. Scrubbing, channel restarts, clears, page retirement, a lost cell and the error history (R412, R415, R419 to
R431).
-/
namespace Sys2Proof.Machine

/-- A correctable error in one line is gone once the line is rewritten (R412). -/
def rewriteLine (l : Nat) : Plan := fun s =>
  (s.unitErr.filter (fun p => l ≤ p.1 && p.1 < l + 64 && p.2 == 1)).map (fun p => .unitErr p.1 0)

/-- ECC_WRITEBACK (R412): the line of a stored address is written back. -/
def planWriteback (a : Nat) : Plan := fun s =>
  let l := canonDpa a / 64 * 64
  if s.lineOutcome l = 1 then rewriteLine l s else []

/-! The scrubber (R415). A position is a DPA divided by 64. -/

/-- The populated line at or after a position of the map of R72. -/
def scrubNext (l : Nat) : Option Nat :=
  let a := 64 * l
  let cells := 0x400000000000
  let dies := 0x410000000000
  if a < 0x020000000000 then some l
  else if a < cells then some (cells / 64)
  else if a < cells + 144 * 0x200000 then
    if populated a then some l
    else
      let next := a / 0x200000 * 0x200000 + 0x200000
      some ((if next < cells + 144 * 0x200000 then next else dies) / 64)
  else if a < dies then some (dies / 64)
  else if a < 0x410010000000 then
    if populated a then some l
    else
      let next := (a - dies) / 0x8000000 * 0x8000000 + 0x8000000 + dies
      if next < 0x410010000000 then some (next / 64) else none
  else none

/-- A pass ends: SCRUB_DONE. -/
def scrubEnd : Plan := fun s =>
  setF .ERR_STATUS_SCRUB_STATE 3 :: postEvent 4 9 0 0 (s.get .ERR_SCRUB_SUM0_LINES)
    (s.get .ERR_SCRUB_SUM1_UE + s.get .ERR_SCRUB_SUM1_POISONED * 2 ^ 32) s

/-- A write of SCRUB_GO (R415). -/
def planScrubGo : Plan := fun s =>
  let st := s.get .ERR_STATUS_SCRUB_STATE
  let go : Plan := fun s' => if s'.var .scrubLeft = 0 then scrubEnd s' else [setF .ERR_STATUS_SCRUB_STATE 1]
  if st = 2 then go s
  else if st = 1 then []
  else plans [fun _ => [setF .ERR_SCRUB_SUM0_LINES 0, setF .ERR_SCRUB_SUM0_CORRECTED 0, setF .ERR_SCRUB_SUM1_UE 0,
      setF .ERR_SCRUB_SUM1_POISONED 0, setF .ERR_SCRUB_FIRST_UE_LINE 0, setF .ERR_SCRUB_LAST_UE_LINE 0,
      setF .ERR_SCRUB_NEXT_LINE (s.get .ERR_SCRUB_BASE_LINE), .var .scrubLeft 0 (s.get .ERR_SCRUB_LEN_LINES)], go] s

/-- A write of SCRUB_ABORT (R415). -/
def planScrubAbort : Plan := fun s =>
  let st := s.get .ERR_STATUS_SCRUB_STATE
  if st = 1 ∨ st = 2 then scrubEnd s else []

/-- The scrubber reads its next line (R415): a hole is passed over, a correctable line is rewritten, a poisoned line is
counted, and an uncorrectable one halts the pass. -/
def planScrubLine : Plan := fun s =>
  if s.get .ERR_STATUS_SCRUB_STATE ≠ 1 then []
  else match scrubNext (s.get .ERR_SCRUB_NEXT_LINE) with
  | none => scrubEnd s
  | some l =>
    let a := canonDpa (64 * l)
    let o := s.lineOutcome a
    let seen : Plan := fun s' => [s'.addF .ERR_SCRUB_SUM0_LINES 1, setF .ERR_SCRUB_NEXT_LINE (l + 1),
      .var .scrubLeft 0 (s'.var .scrubLeft - 1)]
    let found : Plan := match o with
      | 0 => fun _ => []
      | 1 => plans [count .ERR_SCRUB_SUM0_CORRECTED 1, rewriteLine a]
      | 2 => fun s' => [s'.addF .ERR_SCRUB_SUM1_UE 1, setF .ERR_SCRUB_LAST_UE_LINE (a / 64)] ++
          (if s'.get .ERR_SCRUB_SUM1_UE = 0 then [setF .ERR_SCRUB_FIRST_UE_LINE (a / 64)] else [])
      | _ => count .ERR_SCRUB_SUM1_POISONED 1
    plans [noteRead 13 a, found, seen, fun s' =>
      if o = 2 then [setF .ERR_STATUS_SCRUB_STATE 2]
      else if s'.var .scrubLeft = 0 then scrubEnd s' else []] s

/-! Channels (R421). -/

/-- DMA_RESTART and DMA_RESTART_SKIP: the selected channel, if it is halted, goes on. -/
def planDmaRestart (skip : Bool) : Plan := fun s =>
  let ch := s.get .ERR_DMA_SEL_CHANNEL
  if !s.dmaHalted ch then []
  else
    let go : Plan := if ch = 0 then restartEmit skip else if ch = 1 then restartRefill skip else restartIngest skip
    plans [go, pumpAll] s

/-! Clears (R419, R420). -/

/-- The bucket of a declared table whose 128 B tag line holds a direct DPA. -/
def State.tagLineAt (s : State) (a : Nat) : Option Nat :=
  (s.img.sec 9).findSome? (fun t =>
    let base := tblDpa (a / 0x1000000000) t
    let b := (a - base) / bucketBytes t
    if a < base + driftAreaOff t ∧ base ≤ a ∧ (a - base) % bucketBytes t < 128 then some (base + b * bucketBytes t)
    else none)

/-- LINE_CLEAR (R420). -/
def planLineClear : Plan := fun s =>
  if s.get .ERR_CLEAR_ADDR_TARGET = 0 then
    let a := 64 * s.get .ERR_CLEAR_ADDR_LINE
    if a < 0x010000000000 then
      match s.tagLineAt a with
      | some b => writeMem b (List.replicate 128 0) s
      | none => []
    else []
  else
    let stack := s.get .ERR_CLEAR_ADDR_STACK
    let set := dmSet (s.get .DRIFT_PROBE_KEY_KEY stack)
    [.rows (fun r => { r with
      dmap := r.dmap.filter (fun p => p.1 / 8 != stack * 2 ^ 18 + set)
      dmapBad := Sparse.set 0 r.dmapBad (stack * 2 ^ 18 + set) 0 })]

/-- STACK_CLEAR (R419): the stack serves again what it deferred, but for rows on its torn list. DESIGN CHOICE
(notes/assumptions/106.md): its lists are then as if written anew. -/
def planStackClear : Plan := fun s =>
  let stack := s.get .ERR_STORE_SEL_INDEX
  let lost := s.get .ERR_STATUS_STATE_LOST
  let mine : HeldReq → Bool := fun h => h.stack == stack && !s.tornRow stack h.key
  if stack < 16 ∧ lost.testBit stack then
    plans [fun _ => [setF .ERR_STATUS_STATE_LOST (putBits lost stack 1 0),
        .rows (fun r => { r with
          deferred := r.deferred.filter (fun h => !mine h)
          listBad := Sparse.set 0 (Sparse.set 0 r.listBad (2 * stack) 0) (2 * stack + 1) 0 })],
      planEach (s.rows.deferred.filter mine) reserve] s
  else []

/-! Page retirement (R426 to R428). -/

/-- Whether bytes [a, a + n) overlap a page. -/
def onPage (page a n : Nat) : Bool := page < a + n && a < page + 4096

/-- Indices of units of `size` bytes from `base` on, below `n`, that overlap a page. -/
def unitsOn (page base size n : Nat) : List Nat :=
  (List.range (4096 / max 1 size + 2)).map (fun i => (page - base) / max 1 size + i)
    |>.filter (fun i => i < n && onPage page (base + i * size) size)

/-- Positions of a table's rows whose slot or tag line overlaps a page, in the order of the walk (R427). -/
def pagePositions (stack page t : Nat) : List Nat :=
  let base := tblDpa stack t
  let ways := (unitsOn page base (bucketBytes t) (tblBuckets t)).flatMap (fun b =>
    let bucket := base + b * bucketBytes t
    (List.range 16).filterMap (fun w =>
      if onPage page bucket 128 || onPage page (bucket + 128 + w * tblSlot t) (tblSlot t) then some (16 * b + w) else none))
  ways ++ (unitsOn page (base + driftAreaOff t) (tblSlot t) (tblSpare t)).map (fun n => 16 * tblBuckets t + n)

/-- Whether a page lies outside every table's buckets and Drift area, or overlaps a free bitmap (NOT_TABLE). -/
def State.notTable (s : State) (stack page : Nat) : Bool :=
  !(s.img.sec 9).any (fun t => onPage page (tblDpa stack t) (bitmapOff t)) ||
  (s.img.sec 9).any (fun t => onPage page (tblDpa stack t + bitmapOff t) (regionLen t - bitmapOff t))

/-- The retirement starts to move one row within its stack (R427). -/
def retireRow (stack key : Nat) : Plan := fun s =>
  match s.table (keyTable key) with
  | none => []
  | some t => match s.resolve stack t key true with
    | .at p => [.rows (fun r => { r with drifts := r.drifts ++
        [{ stack, key, rank := s.rank, dest := stack, place := p, stage := 0, cause := 2 }] })]
    | _ => []

/-- RETIRE_DONE is posted with the result (R428). -/
def retireEnd (page result moved : Nat) : Plan :=
  plans [fun _ => [setF .ERR_STATUS_RETIRE_STATE 2, setF .ERR_STATUS_RETIRE_RESULT result, .var .retirePage 0 0],
    postEvent 5 9 0 (page / 0x1000000000) page (result + moved * 2 ^ 32)]

/-- RETIRE_GO (R426 to R428). -/
def planRetireGo : Plan := fun s =>
  let page := s.get .ERR_RETIRE_ADDR_PAGE * 4096
  let stack := page / 0x1000000000
  let listed := Sparse.get [] s.rows.retired stack
  if s.get .ERR_STATUS_RETIRE_STATE = 1 then []
  else if listed.contains page then retireEnd page 5 0 s
  else if listed.length ≥ 4096 then retireEnd page 4 0 s
  else
    let outside := s.notTable stack page
    let keys := s.tablesById.flatMap (fun t => (pagePositions stack page t).filterMap (s.rowAt stack t))
    let fits : Nat → Bool := fun k => !s.permBlocked stack k
    let list : List Upd := [.rows (fun r => { r with retired := Sparse.set [] r.retired stack (listed ++ [page]) }),
      setF .ERR_RETIRE_STATS_PAGES (s.get .ERR_RETIRE_STATS_PAGES + 1)]
    if outside then plans [fun _ => list, retireEnd page 3 0] s
    else
      plans [planEach (keys.filter fits) (retireRow stack),
        fun _ => [setF .ERR_STATUS_RETIRE_STATE 1, setF .ERR_STATUS_RETIRE_RESULT 0, .var .retirePage 0 (page + 1),
          .var .retireRows 0 0, .var .retireLeft 0 0, .var .retireRevisit 0 0,
          .rows (fun r => { r with revisit := keys.filter (fun k => !fits k) })],
        planEach s.tablesById (fun t =>
          planEach (unitsOn page (tblDpa stack t + driftAreaOff t) (tblSlot t) (tblSpare t))
            (fun n => setAreaBit stack t n true)),
        fun _ => list] s

/-- A row passed over is visited again (R427): one still TORN stays and is counted. -/
def retireAgain (stack key : Nat) : Plan := fun s =>
  if s.tornRow stack key then [s.addF .ERR_RETIRE_STATS_LEFT 1, s.addV .retireLeft 1]
  else if s.permBlocked stack key then []
  else retireRow stack key s

/-- RETIRE_DONE (R427, R428): once every move has ended the rows passed over are visited again, and once theirs have
ended too the outcome is reported. -/
def planRetireDone : Plan := fun s =>
  let moving : State → Bool := fun s' => s'.rows.drifts.any (fun d => d.cause == 2)
  let page := s.var .retirePage - 1
  let fin : Plan := fun s' =>
    if moving s' then []
    else retireEnd page (if s'.var .retireLeft = 0 then 1 else 2) (s'.var .retireRows) s'
  if s.get .ERR_STATUS_RETIRE_STATE ≠ 1 ∨ moving s then []
  else if s.var .retireRevisit = 0 then
    plans [fun _ => [.var .retireRevisit 0 1, .rows (fun r => { r with revisit := [] })],
      planEach s.rows.revisit (retireAgain (page / 0x1000000000)), fin] s
  else fin s

/-! A lost cell (R423). -/

/-- CELL_LOST (R423): cause 0 for parity and 1 for a failed probe. -/
def planCellLost (cell cause : Nat) : Plan := fun s =>
  if cell < 144 then
    plans [fun _ => [setF .CLAY_CELL_FAIL_FAILED (putBits (s.get .CLAY_CELL_FAIL_FAILED (cell / 64)) (cell % 64) 1 1) (cell / 64)],
      postEvent 0x12 0 0 cell (cause % 2) 0, raiseFault false] s
  else []

/-! The error history (R430). -/

/-- The 64 B record of an event, without its CRC. -/
def histBody (s : State) (uptime : Nat) (e : Event) : List Nat :=
  leBytes 8 uptime ++ leBytes 8 e.beat ++ leBytes 2 e.code ++ leBytes 2 e.index ++ [e.unit, e.store, 0, 0] ++
  leBytes 8 e.d0 ++ leBytes 8 e.d1 ++ leBytes 4 (s.get .SPRING_EPOCH_EPOCH) ++ leBytes 2 s.rank ++ [0, 0] ++
  leBytes 4 (s.get .CLAY_GEN_ACTIVE) ++ leBytes 4 (s.var .histCount) ++ leBytes 4 0

/-- ERROR_HISTORY_APPEND (R430): the oldest qualifying event goes into the ring. -/
def planHistAppend (uptime : Nat) : Plan := fun s =>
  match s.logs.owed with
  | [] => []
  | e :: rest =>
    let b := histBody s uptime e
    let n := s.var .histCount
    [.logs (fun l => { l with owed := rest, hist := Sparse.set 0 l.hist (n % 2 ^ 20) (ofLe (b ++ leBytes 4 (crc32c b))) }),
     .var .histCount 0 (n + 1)]

/-- ECC_WRITEBACK (R412). -/
def execEccWriteback (dpa : Nat) := answer (planWriteback dpa)
/-- SCRUB_GO (R415). -/
def execScrubGo := answer planScrubGo
/-- SCRUB_ABORT (R415). -/
def execScrubAbort := answer planScrubAbort
/-- SCRUB_LINE_READ (R415). -/
def execScrubLineRead := answer planScrubLine
/-- DMA_RESTART (R421). -/
def execDmaRestart := answer (planDmaRestart false)
/-- DMA_RESTART_SKIP (R421). -/
def execDmaRestartSkip := answer (planDmaRestart true)
/-- RETIRE_GO (R426). -/
def execRetireGo := answer planRetireGo
/-- RETIRE_DONE (R428). -/
def execRetireDone := answer planRetireDone
/-- LINE_CLEAR (R420). -/
def execLineClear := answer planLineClear
/-- STACK_CLEAR (R419). -/
def execStackClear := answer planStackClear
/-- CELL_LOST (R423). -/
def execCellLost (cell cause : Nat) := answer (planCellLost cell cause)
/-- ERROR_HISTORY_APPEND (R430). -/
def execErrorHistoryAppend (uptime : Nat) := answer (planHistAppend uptime)

end Sys2Proof.Machine
end

