-- ==== Sys2Proof/Machine/RegTable.lean ====
section
/-!
DEFINITION. The control space as data: every register of the spec's register maps, with its address, its repeats
(blocks of one unit, registers in one block), the selector that picks its instance, and its fields (R14, R43, R97,
R125, R154, R191, R234, R235, R269, R301, R326, R357, R378, R379, R409, R431, R463, R488, R489).
-/
namespace Sys2Proof.Machine

/-- The access codes of R14. `rwsClass` is the mixed row of TIER_CLASS_REGION (R97). -/
inductive Access where
  | rw | ro | wo | w1c | rws | rc | rwsClass
  deriving DecidableEq, Repr

/-- How a register picks the instance its fields show: by its place alone, or through a selector register. -/
inductive Sel where
  | plain | rsEntry | rsHist | tierClass | tierStream | tierTarn | embTable | driftTable | springSink | seqLayer
  | collPeer | xportEp | xportConn | xportStream | xportSvc | roceSink | errStore | errDma | fmpRing | pwrSensor
  deriving DecidableEq, Repr

/-- One field of a register: its lowest bit, its name, its access code, and its instance (`mul * i + add`). -/
structure FieldDesc where
  lo  : Nat
  fld : Fld
  acc : Access
  mul : Nat := 1
  add : Nat := 0
  deriving DecidableEq, Repr

/-- One row of a register map: `n1` blocks at stride `s1`, each with `n2` registers at stride 8 from `base`. -/
structure RegDesc where
  base   : Nat
  n1     : Nat
  s1     : Nat
  n2     : Nat
  sel    : Sel
  fields : List FieldDesc
  deriving DecidableEq, Repr

/-- The BEAT registers. -/
def regsBeat : List RegDesc := [
    ⟨0x10000, 1, 0x0, 1, .plain, [⟨0, .BEAT_CTRL_START, .wo, 1, 0⟩, ⟨1, .BEAT_CTRL_HOLD_REQ, .wo, 1, 0⟩, ⟨2,
    .BEAT_CTRL_HOLD_MODE, .rw, 1, 0⟩, ⟨4, .BEAT_CTRL_RESUME, .wo, 1, 0⟩]⟩,
    ⟨0x10008, 1, 0x0, 1, .plain, [⟨0, .BEAT_STATUS_STATE, .ro, 1, 0⟩, ⟨2, .BEAT_STATUS_HOLD_CAUSE, .ro, 1, 0⟩, ⟨4,
    .BEAT_STATUS_RESUME_REFUSED, .w1c, 1, 0⟩, ⟨5, .BEAT_STATUS_STRETCHED, .ro, 1, 0⟩, ⟨32, .BEAT_STATUS_PHASE, .ro, 1,
    0⟩]⟩,
    ⟨0x10010, 1, 0x0, 1, .plain, [⟨0, .BEAT_COUNT_COUNT, .ro, 1, 0⟩]⟩,
    ⟨0x10018, 1, 0x0, 1, .plain, [⟨0, .BEAT_STEP_STEP, .ro, 1, 0⟩, ⟨44, .BEAT_STEP_OFFSET, .ro, 1, 0⟩]⟩,
    ⟨0x10020, 1, 0x0, 1, .plain, [⟨0, .BEAT_STRETCH_LIMIT, .ro, 1, 0⟩, ⟨16, .BEAT_STRETCH_COUNT, .rc, 1, 0⟩, ⟨48,
    .BEAT_STRETCH_MAX, .rc, 1, 0⟩]⟩,
    ⟨0x10028, 1, 0x0, 1, .plain, [⟨0, .BEAT_OVERRUN_INDEX, .ro, 1, 0⟩, ⟨8, .BEAT_OVERRUN_UNIT, .ro, 1, 0⟩, ⟨16,
    .BEAT_OVERRUN_BEAT, .ro, 1, 0⟩]⟩,
    ⟨0x10030, 1, 0x0, 1, .plain, [⟨0, .BEAT_QPROBE_SEL_QUEUE, .rw, 1, 0⟩]⟩,
    ⟨0x10038, 1, 0x0, 1, .plain, [⟨0, .BEAT_QPROBE_STATE_VALID, .ro, 1, 0⟩, ⟨1, .BEAT_QPROBE_STATE_DEPTH, .ro, 1, 0⟩,
    ⟨10, .BEAT_QPROBE_STATE_CREDITS, .ro, 1, 0⟩, ⟨19, .BEAT_QPROBE_STATE_OCCUPANCY, .ro, 1, 0⟩, ⟨28,
    .BEAT_QPROBE_STATE_GEN, .ro, 1, 0⟩, ⟨32, .BEAT_QPROBE_STATE_STALL_CLK, .ro, 1, 0⟩]⟩,
    ⟨0x10040, 1, 0x0, 1, .plain, [⟨0, .BEAT_QPROBE_TOTAL_SENT, .ro, 1, 0⟩]⟩,
    ⟨0x10048, 1, 0x0, 1, .plain, [⟨0, .BEAT_START_STEP_STEP, .rw, 1, 0⟩]⟩]

/-- The TIER registers. -/
def regsTier : List RegDesc := [
    ⟨0x40000, 1, 0x0, 1, .plain, [⟨0, .TIER_CTRL_COMMIT, .wo, 1, 0⟩, ⟨1, .TIER_CTRL_HOT_FLUSH, .wo, 1, 0⟩]⟩,
    ⟨0x40008, 1, 0x0, 1, .plain, [⟨0, .TIER_STATUS_COMMIT_PENDING, .ro, 1, 0⟩, ⟨1, .TIER_STATUS_HOT_FLUSH_BUSY, .ro,
    1, 0⟩, ⟨2, .TIER_STATUS_COMMIT_KEPT, .w1c, 1, 0⟩, ⟨4, .TIER_STATUS_KEPT_CLASS, .ro, 1, 0⟩]⟩,
    ⟨0x40010, 1, 0x0, 1, .plain, [⟨0, .TIER_CLASS_SEL_CLASS, .rw, 1, 0⟩, ⟨8, .TIER_CLASS_SEL_INSTANCE, .rw, 1, 0⟩]⟩,
    ⟨0x40018, 1, 0x0, 1, .tierClass, [⟨0, .TIER_CLASS_REGION_BASE, .rwsClass, 1, 0⟩, ⟨32, .TIER_CLASS_REGION_SIZE,
    .rwsClass, 1, 0⟩]⟩,
    ⟨0x40020, 1, 0x0, 1, .tierClass, [⟨0, .TIER_CLASS_USE_IN_USE, .ro, 1, 0⟩, ⟨32, .TIER_CLASS_USE_PEAK, .rc, 1, 0⟩]⟩,
    ⟨0x40028, 1, 0x0, 1, .tierClass, [⟨0, .TIER_CLASS_EVENTS_FULL, .rc, 1, 0⟩, ⟨32, .TIER_CLASS_EVENTS_OUTCOME, .rc,
    1, 0⟩]⟩,
    ⟨0x40030, 1, 0x0, 1, .plain, [⟨26, .TIER_WINDOW_BASE, .rw, 1, 0⟩]⟩,
    ⟨0x40038, 1, 0x0, 1, .plain, [⟨0, .TIER_HOLE_LAST, .ro, 1, 0⟩, ⟨48, .TIER_HOLE_COUNT, .rc, 1, 0⟩]⟩,
    ⟨0x40040, 1, 0x0, 1, .tierTarn, [⟨0, .TIER_BANK_STALL_TARN, .rw, 1, 0⟩, ⟨16, .TIER_BANK_STALL_LAST_BEAT, .ro, 1,
    0⟩, ⟨32, .TIER_BANK_STALL_TOTAL, .rc, 1, 0⟩]⟩,
    ⟨0x40048, 1, 0x0, 1, .plain, [⟨0, .TIER_HOT_DIRTY_W, .ro, 1, 0⟩, ⟨32, .TIER_HOT_DIRTY_E, .ro, 1, 0⟩]⟩,
    ⟨0x40050, 1, 0x0, 1, .tierStream, [⟨0, .TIER_STREAM_STREAM, .rw, 1, 0⟩, ⟨8, .TIER_STREAM_READY, .ro, 1, 0⟩, ⟨16,
    .TIER_STREAM_FILLING, .ro, 1, 0⟩, ⟨32, .TIER_STREAM_WAIT_CLK, .rc, 1, 0⟩]⟩]

/-- The CELL registers. -/
def regsCell : List RegDesc := [
    ⟨0x100000, 144, 0x1000, 1, .plain, [⟨0, .CELL_ID_ID, .ro, 1, 0⟩, ⟨8, .CELL_ID_DIE, .ro, 1, 0⟩, ⟨9, .CELL_ID_ROW,
    .ro, 1, 0⟩, ⟨12, .CELL_ID_COL, .ro, 1, 0⟩]⟩,
    ⟨0x100008, 144, 0x1000, 1, .plain, [⟨0, .CELL_CTRL_COMMIT, .wo, 1, 0⟩]⟩,
    ⟨0x100010, 144, 0x1000, 1, .plain, [⟨0, .CELL_ARRAY_STATUS_BUSY, .ro, 1, 0⟩, ⟨1, .CELL_ARRAY_STATUS_WAITING, .ro,
    1, 0⟩, ⟨2, .CELL_ARRAY_STATUS_KEPT, .ro, 1, 0⟩, ⟨3, .CELL_ARRAY_STATUS_LAST_MODE, .ro, 1, 0⟩, ⟨5,
    .CELL_ARRAY_STATUS_LAST_PATH, .ro, 1, 0⟩, ⟨7, .CELL_ARRAY_STATUS_LAST_STATUS, .ro, 1, 0⟩, ⟨32,
    .CELL_ARRAY_STATUS_LAST_DESC, .ro, 1, 0⟩]⟩,
    ⟨0x100018, 144, 0x1000, 1, .plain, [⟨0, .CELL_ARRAY_OPS_RETIRED, .rc, 1, 0⟩, ⟨48, .CELL_ARRAY_OPS_NOOP, .rc, 1,
    0⟩]⟩,
    ⟨0x100020, 144, 0x1000, 1, .plain, [⟨0, .CELL_ARRAY_BUSY_LAST_BEAT, .ro, 1, 0⟩, ⟨32, .CELL_ARRAY_BUSY_TOTAL, .rc,
    1, 0⟩]⟩,
    ⟨0x100028, 144, 0x1000, 1, .plain, [⟨0, .CELL_TILE_WAIT_LAST_BEAT, .ro, 1, 0⟩, ⟨32, .CELL_TILE_WAIT_TOTAL, .rc, 1,
    0⟩]⟩,
    ⟨0x100030, 144, 0x1000, 1, .plain, [⟨0, .CELL_ARRAY_CLAMP_COUNT, .rc, 1, 0⟩, ⟨32, .CELL_ARRAY_CLAMP_LAST_FIELD,
    .ro, 1, 0⟩]⟩,
    ⟨0x100038, 144, 0x1000, 1, .plain, [⟨0, .CELL_ARRAY_UE_COUNT, .rc, 1, 0⟩, ⟨32, .CELL_ARRAY_UE_LAST_OFFSET, .ro, 1,
    0⟩]⟩,
    ⟨0x100040, 144, 0x1000, 1, .plain, [⟨0, .CELL_RS_SEL_ENTRY, .rw, 1, 0⟩, ⟨8, .CELL_RS_SEL_HIST, .rw, 1, 0⟩]⟩,
    ⟨0x100048, 144, 0x1000, 1, .rsEntry, [⟨0, .CELL_RS_CFG_FMT, .rws, 1, 0⟩, ⟨1, .CELL_RS_CFG_MARGIN, .rws, 1, 0⟩, ⟨5,
    .CELL_RS_CFG_HOLD_EXP, .rws, 1, 0⟩, ⟨8, .CELL_RS_CFG_EXP, .rws, 1, 0⟩, ⟨16, .CELL_RS_CFG_ACTIVE, .ro, 1, 0⟩]⟩,
    ⟨0x100050, 144, 0x1000, 1, .rsEntry, [⟨0, .CELL_RS_AMAX_CUR_AMAX, .ro, 1, 0⟩, ⟨32, .CELL_RS_AMAX_H, .ro, 1, 0⟩]⟩,
    ⟨0x100058, 144, 0x1000, 1, .rsHist, [⟨0, .CELL_RS_HIST_VALUE, .ro, 1, 0⟩, ⟨32, .CELL_RS_HIST_NEXT, .ro, 1, 0⟩]⟩,
    ⟨0x100060, 144, 0x1000, 1, .rsEntry, [⟨0, .CELL_RS_OVF_OVF, .rc, 1, 0⟩, ⟨32, .CELL_RS_OVF_INF_AMAX, .rc, 1, 0⟩]⟩,
    ⟨0x100800, 144, 0x1000, 1, .plain, [⟨0, .CELL_SEQ_CTRL_RESTART, .wo, 1, 0⟩, ⟨16, .CELL_SEQ_CTRL_RESTART_PC, .rw,
    1, 0⟩]⟩,
    ⟨0x100808, 144, 0x1000, 1, .plain, [⟨0, .CELL_SEQ_STATUS_STATE, .ro, 1, 0⟩, ⟨2, .CELL_SEQ_STATUS_HOLD_REASON, .ro,
    1, 0⟩, ⟨16, .CELL_SEQ_STATUS_PC, .ro, 1, 0⟩, ⟨32, .CELL_SEQ_STATUS_LOOP_DEPTH, .ro, 1, 0⟩, ⟨36,
    .CELL_SEQ_STATUS_SLOT, .ro, 1, 0⟩, ⟨40, .CELL_SEQ_STATUS_DROPPED, .ro, 1, 0⟩]⟩,
    ⟨0x100810, 144, 0x1000, 1, .plain, [⟨0, .CELL_SEQ_PROG_LENGTH, .ro, 1, 0⟩, ⟨32, .CELL_SEQ_PROG_BASE, .ro, 1, 0⟩]⟩,
    ⟨0x100818, 144, 0x1000, 1, .plain, [⟨0, .CELL_SEQ_ISSUED_COUNT, .rc, 1, 0⟩, ⟨48, .CELL_SEQ_ISSUED_MACROS, .rc, 1,
    0⟩]⟩,
    ⟨0x100820, 144, 0x1000, 1, .plain, [⟨0, .CELL_SEQ_STALL_LAST_BEAT, .ro, 1, 0⟩, ⟨32, .CELL_SEQ_STALL_TOTAL, .rc, 1,
    0⟩]⟩,
    ⟨0x100828, 144, 0x1000, 1, .plain, [⟨0, .CELL_SEQ_FLAGS_CVT_INVALID, .w1c, 1, 0⟩, ⟨1, .CELL_SEQ_FLAGS_LOAD_UE,
    .w1c, 1, 0⟩, ⟨16, .CELL_SEQ_FLAGS_CVT_COUNT, .rc, 1, 0⟩, ⟨32, .CELL_SEQ_FLAGS_UE_COUNT, .rc, 1, 0⟩]⟩,
    ⟨0x100830, 144, 0x1000, 1, .plain, [⟨0, .CELL_TRAP_CAUSE, .ro, 1, 0⟩, ⟨8, .CELL_TRAP_CODE, .ro, 1, 0⟩, ⟨32,
    .CELL_TRAP_PC, .ro, 1, 0⟩, ⟨48, .CELL_TRAP_BEAT, .ro, 1, 0⟩]⟩,
    ⟨0x100838, 144, 0x1000, 1, .plain, [⟨0, .CELL_TRAP_INSN_INSN, .ro, 1, 0⟩]⟩,
    ⟨0x100840, 144, 0x1000, 1, .plain, [⟨0, .CELL_TRAP_ADDR_DETAIL, .ro, 1, 0⟩]⟩,
    ⟨0x100848, 144, 0x1000, 1, .plain, [⟨0, .CELL_REG_SEL_FILE, .rw, 1, 0⟩, ⟨8, .CELL_REG_SEL_INDEX, .rw, 1, 0⟩, ⟨16,
    .CELL_REG_SEL_LANE, .rw, 1, 0⟩]⟩,
    ⟨0x100850, 144, 0x1000, 1, .plain, [⟨0, .CELL_REG_DATA_DATA, .rw, 1, 0⟩]⟩,
    ⟨0x100858, 144, 0x1000, 1, .plain, [⟨0, .CELL_SEQ_CLAMP_COUNT, .rc, 1, 0⟩, ⟨32, .CELL_SEQ_CLAMP_LAST_OPCODE, .ro,
    1, 0⟩]⟩]

/-- The CLAY registers. -/
def regsClay : List RegDesc := [
    ⟨0x20000, 1, 0x0, 1, .plain, [⟨0, .CLAY_CTRL_LOAD, .wo, 1, 0⟩, ⟨1, .CLAY_CTRL_CANCEL, .wo, 1, 0⟩, ⟨2,
    .CLAY_CTRL_ARM, .wo, 1, 0⟩, ⟨3, .CLAY_CTRL_GROUP_COMMIT, .wo, 1, 0⟩]⟩,
    ⟨0x20008, 1, 0x0, 1, .plain, [⟨0, .CLAY_STATUS_LOAD_STATE, .ro, 1, 0⟩, ⟨8, .CLAY_STATUS_ERROR, .ro, 1, 0⟩, ⟨16,
    .CLAY_STATUS_ARMED, .ro, 1, 0⟩, ⟨17, .CLAY_STATUS_FLIP_REFUSED, .w1c, 1, 0⟩, ⟨18, .CLAY_STATUS_FLIP_LATE, .w1c, 1,
    0⟩, ⟨19, .CLAY_STATUS_LOAD_BUSY, .w1c, 1, 0⟩, ⟨20, .CLAY_STATUS_ACTIVE_WIDE, .ro, 1, 0⟩, ⟨24,
    .CLAY_STATUS_FLIP_BLOCK, .ro, 1, 0⟩, ⟨32, .CLAY_STATUS_GROUP_PENDING, .ro, 1, 0⟩]⟩,
    ⟨0x20010, 1, 0x0, 1, .plain, [⟨16, .CLAY_SRC_BASE, .rw, 1, 0⟩]⟩,
    ⟨0x20018, 1, 0x0, 1, .plain, [⟨0, .CLAY_SRC_LEN_LENGTH, .rw, 1, 0⟩]⟩,
    ⟨0x20020, 1, 0x0, 1, .plain, [⟨0, .CLAY_FLIP_BEAT_BEAT, .rw, 1, 0⟩]⟩,
    ⟨0x20028, 1, 0x0, 1, .plain, [⟨0, .CLAY_GEN_ACTIVE, .ro, 1, 0⟩, ⟨32, .CLAY_GEN_SHADOW, .ro, 1, 0⟩]⟩,
    ⟨0x20030, 1, 0x0, 1, .plain, [⟨0, .CLAY_COMMIT_GROUP_MASK, .rw, 1, 0⟩]⟩,
    ⟨0x20038, 1, 0x0, 1, .plain, [⟨0, .CLAY_CLAMP_COUNT, .rc, 1, 0⟩, ⟨32, .CLAY_CLAMP_LAST_SECTION, .ro, 1, 0⟩, ⟨40,
    .CLAY_CLAMP_LAST_RECORD, .ro, 1, 0⟩]⟩,
    ⟨0x20040, 1, 0x0, 1, .plain, [⟨0, .CLAY_FLIP_DISCARD_COUNT, .rc, 1, 0⟩, ⟨32, .CLAY_FLIP_DISCARD_QUIESCE_SKIPPED,
    .rc, 1, 0⟩, ⟨48, .CLAY_FLIP_DISCARD_MB_DROPPED, .rc, 1, 0⟩]⟩,
    ⟨0x20048, 1, 0x0, 1, .plain, [⟨0, .CLAY_LOAD_TIME_CLK, .ro, 1, 0⟩]⟩,
    ⟨0x20050, 1, 0x0, 1, .plain, [⟨0, .CLAY_RB_SEL_PLANE, .rw, 1, 0⟩, ⟨8, .CLAY_RB_SEL_SECTION, .rw, 1, 0⟩, ⟨16,
    .CLAY_RB_SEL_CELL, .rw, 1, 0⟩, ⟨32, .CLAY_RB_SEL_RECORD, .rw, 1, 0⟩, ⟨56, .CLAY_RB_SEL_VALID, .ro, 1, 0⟩]⟩,
    ⟨0x20058, 1, 0x0, 8, .plain, [⟨0, .CLAY_RB_DATA_DATA, .ro, 1, 0⟩]⟩,
    ⟨0x20098, 1, 0x0, 4, .plain, [⟨0, .CLAY_MEAS_ACTIVE_DIGEST, .ro, 1, 0⟩]⟩,
    ⟨0x200b8, 1, 0x0, 4, .plain, [⟨0, .CLAY_MEAS_SHADOW_DIGEST, .ro, 1, 0⟩]⟩,
    ⟨0x200d8, 1, 0x0, 3, .plain, [⟨0, .CLAY_CELL_FAIL_FAILED, .ro, 1, 0⟩]⟩]

/-- The EMB registers. -/
def regsEmb : List RegDesc := [
    ⟨0x200000, 2, 0x80000, 1, .plain, [⟨0, .EMB_CTRL_COMMIT, .wo, 1, 0⟩, ⟨1, .EMB_CTRL_SKETCH_CLEAR, .wo, 1, 0⟩]⟩,
    ⟨0x200008, 2, 0x80000, 1, .plain, [⟨0, .EMB_STATUS_COMMIT_PENDING, .ro, 1, 0⟩, ⟨1, .EMB_STATUS_RESHARD, .ro, 1,
    0⟩, ⟨4, .EMB_STATUS_LAST_SUBBATCHES, .ro, 1, 0⟩]⟩,
    ⟨0x200010, 2, 0x80000, 1, .plain, [⟨0, .EMB_HOT_CFG_ADMIT_THRESHOLD, .rws, 1, 0⟩, ⟨16, .EMB_HOT_CFG_DECAY_BEATS,
    .rws, 1, 0⟩]⟩,
    ⟨0x200018, 2, 0x80000, 1, .plain, [⟨0, .EMB_DRIFT_POLICY_ENABLE, .rws, 1, 0⟩, ⟨8, .EMB_DRIFT_POLICY_IMBALANCE,
    .rws, 1, 0⟩, ⟨16, .EMB_DRIFT_POLICY_MAX_MOVES, .rws, 1, 0⟩]⟩,
    ⟨0x200020, 2, 0x80000, 1, .plain, [⟨0, .EMB_TABLE_SEL_TABLE, .rw, 1, 0⟩]⟩,
    ⟨0x200028, 2, 0x80000, 1, .embTable, [⟨0, .EMB_TABLE_COUNT_FETCHED, .rc, 1, 0⟩, ⟨32, .EMB_TABLE_COUNT_ABSENT, .rc,
    1, 0⟩]⟩,
    ⟨0x200030, 2, 0x80000, 1, .embTable, [⟨0, .EMB_TABLE_EXCL_INVALID, .rc, 1, 0⟩, ⟨16, .EMB_TABLE_EXCL_ERR, .rc, 1,
    0⟩, ⟨32, .EMB_TABLE_EXCL_TIMEOUT, .rc, 1, 0⟩, ⟨48, .EMB_TABLE_EXCL_FULL, .rc, 1, 0⟩]⟩,
    ⟨0x200038, 2, 0x80000, 1, .plain, [⟨0, .EMB_COALESCE_UNKNOWN, .rc, 1, 0⟩, ⟨32, .EMB_COALESCE_OVERFLOW, .rc, 1, 0⟩,
    ⟨48, .EMB_COALESCE_SAT, .rc, 1, 0⟩]⟩,
    ⟨0x200040, 2, 0x80000, 1, .plain, [⟨0, .EMB_REPLY_LATE, .rc, 1, 0⟩, ⟨32, .EMB_REPLY_FWD_LIMIT, .rc, 1, 0⟩, ⟨48,
    .EMB_REPLY_TORN_FULL, .rc, 1, 0⟩]⟩,
    ⟨0x200048, 2, 0x80000, 1, .plain, [⟨0, .EMB_HOT_STATS_HITS, .rc, 1, 0⟩, ⟨32, .EMB_HOT_STATS_ADMITS, .rc, 1, 0⟩,
    ⟨48, .EMB_HOT_STATS_EVICTIONS, .rc, 1, 0⟩]⟩,
    ⟨0x200050, 2, 0x80000, 1, .plain, [⟨0, .EMB_RESHARD_FWD_TO_OLD, .rc, 1, 0⟩, ⟨32, .EMB_RESHARD_CREATED_AT_NEW, .rc,
    1, 0⟩]⟩,
    ⟨0x201000, 2, 0x80000, 256, .plain, [⟨0, .EMB_WORK_ITEM, .rws, 1, 0⟩]⟩]

/-- The DRIFT registers. -/
def regsDrift : List RegDesc := [
    ⟨0x308000, 16, 0x10000, 1, .plain, [⟨0, .DRIFT_CMD_KEY_KEY, .rw, 1, 0⟩]⟩,
    ⟨0x308008, 16, 0x10000, 1, .plain, [⟨0, .DRIFT_CMD_GO, .wo, 1, 0⟩, ⟨8, .DRIFT_CMD_DEST_STACK, .rw, 1, 0⟩, ⟨16,
    .DRIFT_CMD_DEST_RANK, .rw, 1, 0⟩]⟩,
    ⟨0x308010, 16, 0x10000, 1, .plain, [⟨0, .DRIFT_STATUS_IN_FLIGHT, .ro, 1, 0⟩, ⟨8, .DRIFT_STATUS_LAST_RESULT, .ro,
    1, 0⟩]⟩,
    ⟨0x308018, 16, 0x10000, 1, .plain, [⟨0, .DRIFT_MAP_USE_RESIDENT, .ro, 1, 0⟩, ⟨22, .DRIFT_MAP_USE_MOVED, .ro, 1,
    0⟩, ⟨44, .DRIFT_MAP_USE_CACHED, .ro, 1, 0⟩]⟩,
    ⟨0x308020, 16, 0x10000, 1, .plain, [⟨0, .DRIFT_PROBE_KEY_KEY, .rw, 1, 0⟩]⟩,
    ⟨0x308028, 16, 0x10000, 1, .plain, [⟨0, .DRIFT_PROBE_LOCATION, .ro, 1, 0⟩]⟩,
    ⟨0x308030, 16, 0x10000, 1, .plain, [⟨0, .DRIFT_PROBE_EST_EST, .ro, 1, 0⟩]⟩,
    ⟨0x308038, 16, 0x10000, 1, .plain, [⟨0, .DRIFT_STATS_DONE, .rc, 1, 0⟩, ⟨16, .DRIFT_STATS_ABORTED, .rc, 1, 0⟩, ⟨32,
    .DRIFT_STATS_DUP_DISCARD, .rc, 1, 0⟩, ⟨48, .DRIFT_STATS_REFUSED, .rc, 1, 0⟩]⟩,
    ⟨0x308040, 16, 0x10000, 1, .plain, [⟨0, .DRIFT_FWD_FORWARDED, .rc, 1, 0⟩, ⟨32, .DRIFT_FWD_SET_FULL, .rc, 1, 0⟩]⟩,
    ⟨0x308048, 16, 0x10000, 1, .plain, [⟨0, .DRIFT_LOAD_SEL_TABLE, .rw, 1, 0⟩, ⟨12, .DRIFT_LOAD_SEL_ALL, .rw, 1, 0⟩]⟩,
    ⟨0x308050, 16, 0x10000, 1, .driftTable, [⟨0, .DRIFT_LOAD_LOOKUPS, .ro, 1, 0⟩, ⟨32, .DRIFT_LOAD_UPDATES, .ro, 1,
    0⟩]⟩,
    ⟨0x308058, 16, 0x10000, 1, .plain, [⟨0, .DRIFT_HEAVY_SEL_INDEX, .rw, 1, 0⟩]⟩,
    ⟨0x308060, 16, 0x10000, 1, .plain, [⟨0, .DRIFT_HEAVY_KEY_KEY, .ro, 1, 0⟩]⟩,
    ⟨0x308068, 16, 0x10000, 1, .plain, [⟨0, .DRIFT_HEAVY_EST_EST, .ro, 1, 0⟩, ⟨16, .DRIFT_HEAVY_EST_VALID, .ro, 1,
    0⟩]⟩]

/-- The SILT registers. -/
def regsSilt : List RegDesc := [
    ⟨0x300000, 16, 0x10000, 1, .plain, [⟨0, .SILT_CTRL_COMMIT, .wo, 1, 0⟩]⟩,
    ⟨0x300008, 16, 0x10000, 1, .plain, [⟨0, .SILT_STATUS_PHASE, .ro, 1, 0⟩, ⟨3, .SILT_STATUS_COMMIT_PENDING, .ro, 1,
    0⟩, ⟨4, .SILT_STATUS_COMMIT_KEPT, .w1c, 1, 0⟩, ⟨16, .SILT_STATUS_STEP, .ro, 1, 0⟩]⟩,
    ⟨0x300010, 16, 0x10000, 1, .plain, [⟨0, .SILT_MERGE_BASE, .rws, 1, 0⟩, ⟨32, .SILT_MERGE_SIZE, .rws, 1, 0⟩]⟩,
    ⟨0x300018, 16, 0x10000, 1, .plain, [⟨0, .SILT_MERGE_USE_IN_USE, .ro, 1, 0⟩, ⟨32, .SILT_MERGE_USE_FULL, .rc, 1, 0⟩,
    ⟨48, .SILT_MERGE_USE_UNSCHEDULED, .rc, 1, 0⟩]⟩,
    ⟨0x300020, 16, 0x10000, 1, .plain, [⟨0, .SILT_MERGE_STATS_KEYS, .ro, 1, 0⟩, ⟨32, .SILT_MERGE_STATS_CONTRIB, .ro,
    1, 0⟩]⟩,
    ⟨0x300028, 16, 0x10000, 1, .plain, [⟨0, .SILT_DISCARD_FROZEN, .rc, 1, 0⟩, ⟨32, .SILT_DISCARD_DUPLICATE, .rc, 1,
    0⟩, ⟨48, .SILT_DISCARD_AHEAD, .rc, 1, 0⟩]⟩,
    ⟨0x300030, 16, 0x10000, 1, .plain, [⟨0, .SILT_NORM_PART_HI, .ro, 1, 0⟩, ⟨32, .SILT_NORM_PART_LO, .ro, 1, 0⟩]⟩,
    ⟨0x300038, 16, 0x10000, 1, .plain, [⟨0, .SILT_NORM_G_HI, .ro, 1, 0⟩, ⟨32, .SILT_NORM_NORM, .ro, 1, 0⟩]⟩,
    ⟨0x300040, 16, 0x10000, 1, .plain, [⟨0, .SILT_NORM_STEP_STEP, .ro, 1, 0⟩, ⟨44, .SILT_NORM_STEP_VALID, .ro, 1, 0⟩,
    ⟨45, .SILT_NORM_STEP_NONFINITE, .ro, 1, 0⟩, ⟨48, .SILT_NORM_STEP_SKIPPED, .rc, 1, 0⟩]⟩,
    ⟨0x300048, 16, 0x10000, 1, .plain, [⟨0, .SILT_ROWS_APPLIED, .rc, 1, 0⟩, ⟨32, .SILT_ROWS_CREATED, .rc, 1, 0⟩, ⟨48,
    .SILT_ROWS_NONFINITE, .rc, 1, 0⟩]⟩,
    ⟨0x300050, 16, 0x10000, 1, .plain, [⟨0, .SILT_LANES_LOG_IN_USE, .ro, 1, 0⟩, ⟨16, .SILT_LANES_LOG_WAIT, .rc, 1, 0⟩,
    ⟨48, .SILT_LANES_CONFLICT_WAIT, .rc, 1, 0⟩]⟩,
    ⟨0x300058, 16, 0x10000, 1, .plain, [⟨0, .SILT_TORN_COUNT, .ro, 1, 0⟩, ⟨20, .SILT_TORN_SWEEP_BUSY, .ro, 1, 0⟩, ⟨32,
    .SILT_TORN_UPD_DROPPED, .rc, 1, 0⟩, ⟨48, .SILT_TORN_DEFERRED, .ro, 1, 0⟩]⟩,
    ⟨0x300060, 16, 0x10000, 1, .plain, [⟨0, .SILT_TORN_SEL_INDEX, .rw, 1, 0⟩, ⟨63, .SILT_TORN_SEL_VALID, .ro, 1, 0⟩]⟩,
    ⟨0x300068, 16, 0x10000, 1, .plain, [⟨0, .SILT_TORN_KEY_KEY, .ro, 1, 0⟩]⟩,
    ⟨0x300070, 16, 0x10000, 1, .plain, [⟨0, .SILT_REFILL_INSTALLED, .rc, 1, 0⟩, ⟨32, .SILT_REFILL_DISCARDED, .rc, 1,
    0⟩]⟩,
    ⟨0x301000, 16, 0x10000, 64, .plain, [⟨0, .SILT_WORK_ITEM, .rws, 1, 0⟩]⟩]

/-- The SPRING registers. -/
def regsSpring : List RegDesc := [
    ⟨0x400000, 1, 0x0, 1, .plain, [⟨0, .SPRING_CTRL_COMMIT, .wo, 1, 0⟩, ⟨1, .SPRING_CTRL_CLOSE_WINDOW, .wo, 1, 0⟩, ⟨2,
    .SPRING_CTRL_SWAP, .wo, 1, 0⟩, ⟨3, .SPRING_CTRL_PAIR_ENABLE, .wo, 1, 0⟩, ⟨4, .SPRING_CTRL_PAIR_DISABLE, .wo, 1,
    0⟩, ⟨5, .SPRING_CTRL_SINKS_RECONNECT, .wo, 1, 0⟩]⟩,
    ⟨0x400008, 1, 0x0, 1, .plain, [⟨0, .SPRING_STATUS_COMMIT_PENDING, .ro, 1, 0⟩, ⟨1, .SPRING_STATUS_RING_HIGH, .ro,
    1, 0⟩, ⟨2, .SPRING_STATUS_BACKPRESSURE, .ro, 1, 0⟩, ⟨3, .SPRING_STATUS_LG_AT_RISK, .w1c, 1, 0⟩, ⟨4,
    .SPRING_STATUS_ACK_REGRESS, .w1c, 1, 0⟩, ⟨5, .SPRING_STATUS_PAIR_DOWN, .ro, 1, 0⟩, ⟨6, .SPRING_STATUS_MIXED_SKIP,
    .w1c, 1, 0⟩]⟩,
    ⟨0x400010, 1, 0x0, 1, .plain, [⟨0, .SPRING_CFG_DURABLE_MODE, .rws, 1, 0⟩, ⟨16, .SPRING_CFG_ACK_TIMEOUT, .rws, 1,
    0⟩, ⟨32, .SPRING_CFG_LG_BUDGET, .rws, 1, 0⟩]⟩,
    ⟨0x400018, 1, 0x0, 1, .plain, [⟨0, .SPRING_EPOCH_EPOCH, .rw, 1, 0⟩]⟩,
    ⟨0x400020, 1, 0x0, 1, .plain, [⟨0, .SPRING_SEQ_NEXT_SEQ, .ro, 1, 0⟩]⟩,
    ⟨0x400028, 1, 0x0, 1, .plain, [⟨0, .SPRING_SEQ_RETAINED_SEQ, .ro, 1, 0⟩]⟩,
    ⟨0x400030, 1, 0x0, 1, .plain, [⟨0, .SPRING_RING_USE_USED, .ro, 1, 0⟩, ⟨32, .SPRING_RING_USE_PEAK, .rc, 1, 0⟩]⟩,
    ⟨0x400038, 1, 0x0, 1, .plain, [⟨0, .SPRING_UNSENT_UNSENT, .ro, 1, 0⟩, ⟨32, .SPRING_UNSENT_PEAK, .rc, 1, 0⟩]⟩,
    ⟨0x400040, 1, 0x0, 1, .plain, [⟨0, .SPRING_DURABLE_STEP, .ro, 1, 0⟩, ⟨44, .SPRING_DURABLE_VALID, .ro, 1, 0⟩]⟩,
    ⟨0x400048, 1, 0x0, 1, .plain, [⟨0, .SPRING_DURABLE_SEQ_SEQ, .ro, 1, 0⟩]⟩,
    ⟨0x400050, 1, 0x0, 1, .plain, [⟨0, .SPRING_MARKED_STEP, .ro, 1, 0⟩, ⟨44, .SPRING_MARKED_VALID, .ro, 1, 0⟩, ⟨45,
    .SPRING_MARKED_SKIPPED, .ro, 1, 0⟩]⟩,
    ⟨0x400058, 1, 0x0, 1, .plain, [⟨0, .SPRING_SINK_SEL_SINK, .rw, 1, 0⟩]⟩,
    ⟨0x400060, 1, 0x0, 1, .springSink, [⟨0, .SPRING_SINK_STATE_STATE, .ro, 1, 0⟩, ⟨3, .SPRING_SINK_STATE_ROLE, .ro, 1,
    0⟩, ⟨4, .SPRING_SINK_STATE_PROTOCOL, .ro, 1, 0⟩, ⟨8, .SPRING_SINK_STATE_PAIR, .ro, 1, 0⟩, ⟨16,
    .SPRING_SINK_STATE_INCARNATION, .ro, 1, 0⟩]⟩,
    ⟨0x400068, 1, 0x0, 1, .springSink, [⟨0, .SPRING_SINK_ACKED_SEQ, .ro, 1, 0⟩]⟩,
    ⟨0x400070, 1, 0x0, 1, .springSink, [⟨0, .SPRING_SINK_ACK_SEQ, .wo, 1, 0⟩]⟩,
    ⟨0x400078, 1, 0x0, 1, .springSink, [⟨0, .SPRING_SINK_STATS_FAILOVERS, .rc, 1, 0⟩, ⟨16,
    .SPRING_SINK_STATS_INCARNATIONS, .rc, 1, 0⟩, ⟨32, .SPRING_SINK_STATS_RESENT, .rc, 1, 0⟩]⟩,
    ⟨0x400080, 1, 0x0, 1, .plain, [⟨0, .SPRING_COALESCE_W, .ro, 1, 0⟩, ⟨8, .SPRING_COALESCE_POSITION, .ro, 1, 0⟩, ⟨16,
    .SPRING_COALESCE_EARLY, .rc, 1, 0⟩, ⟨32, .SPRING_COALESCE_MERGED, .rc, 1, 0⟩]⟩,
    ⟨0x400088, 1, 0x0, 1, .plain, [⟨0, .SPRING_REFILL_ACCEPTED, .rc, 1, 0⟩, ⟨32, .SPRING_REFILL_MALFORMED, .rc, 1, 0⟩,
    ⟨48, .SPRING_REFILL_REFUSED, .rc, 1, 0⟩]⟩,
    ⟨0x400090, 1, 0x0, 1, .plain, [⟨0, .SPRING_DENSE_OWNERS_OWNERS, .rws, 1, 0⟩]⟩,
    ⟨0x400098, 1, 0x0, 1, .plain, [⟨0, .SPRING_OPEN_BASE_BASE, .rw, 1, 0⟩]⟩]

/-- The SEQ registers. -/
def regsSeq : List RegDesc := [
    ⟨0x480000, 2, 0x40000, 1, .plain, [⟨0, .SEQ_CTRL_COMMIT, .wo, 1, 0⟩]⟩,
    ⟨0x480008, 2, 0x40000, 1, .plain, [⟨0, .SEQ_STATUS_COMMIT_PENDING, .ro, 1, 0⟩, ⟨1, .SEQ_STATUS_COMMIT_KEPT, .w1c,
    1, 0⟩, ⟨2, .SEQ_STATUS_ENABLED, .ro, 1, 0⟩, ⟨3, .SEQ_STATUS_REJECTED, .w1c, 1, 0⟩]⟩,
    ⟨0x480010, 2, 0x40000, 1, .plain, [⟨0, .SEQ_CFG_KEY_FMT, .rws, 1, 0⟩, ⟨4, .SEQ_CFG_VAL_FMT, .rws, 1, 0⟩, ⟨8,
    .SEQ_CFG_MUL_FMT, .rws, 1, 0⟩, ⟨12, .SEQ_CFG_IN_FMT, .rws, 1, 0⟩, ⟨16, .SEQ_CFG_LAYERS_M1, .rws, 1, 0⟩, ⟨24,
    .SEQ_CFG_WIDTH, .rws, 1, 0⟩, ⟨29, .SEQ_CFG_ENABLE, .rws, 1, 0⟩]⟩,
    ⟨0x480018, 2, 0x40000, 1, .plain, [⟨0, .SEQ_FRAMES_T_FRAMES, .ro, 1, 0⟩, ⟨32, .SEQ_FRAMES_H_FRAMES, .ro, 1, 0⟩]⟩,
    ⟨0x480020, 2, 0x40000, 1, .plain, [⟨0, .SEQ_PAGES_LIVE_T, .ro, 1, 0⟩, ⟨16, .SEQ_PAGES_LIVE_H, .ro, 1, 0⟩, ⟨32,
    .SEQ_PAGES_QUAR, .ro, 1, 0⟩, ⟨48, .SEQ_PAGES_HISTS, .ro, 1, 0⟩]⟩,
    ⟨0x480028, 2, 0x40000, 1, .plain, [⟨0, .SEQ_EVENTS_APPENDED, .rc, 1, 0⟩, ⟨32, .SEQ_EVENTS_LIMIT, .rc, 1, 0⟩, ⟨48,
    .SEQ_EVENTS_OVF, .rc, 1, 0⟩]⟩,
    ⟨0x480030, 2, 0x40000, 1, .plain, [⟨0, .SEQ_FAULTS_NO_PAGE, .rc, 1, 0⟩, ⟨16, .SEQ_FAULTS_BAD_REQUEST, .rc, 1, 0⟩,
    ⟨32, .SEQ_FAULTS_DISABLED, .rc, 1, 0⟩, ⟨48, .SEQ_FAULTS_UE, .rc, 1, 0⟩]⟩,
    ⟨0x480038, 2, 0x40000, 1, .plain, [⟨0, .SEQ_MOVES_COW, .rc, 1, 0⟩, ⟨16, .SEQ_MOVES_SPILLS, .rc, 1, 0⟩, ⟨32,
    .SEQ_MOVES_PREFETCHES, .rc, 1, 0⟩, ⟨48, .SEQ_MOVES_CANCELLED, .rc, 1, 0⟩]⟩,
    ⟨0x480040, 2, 0x40000, 1, .plain, [⟨0, .SEQ_SEL_HIST, .rw, 1, 0⟩, ⟨8, .SEQ_SEL_LAYER, .rw, 1, 0⟩, ⟨16,
    .SEQ_SEL_INDEX, .rw, 1, 0⟩, ⟨32, .SEQ_SEL_PAGE, .rw, 1, 0⟩]⟩,
    ⟨0x480048, 2, 0x40000, 1, .plain, [⟨0, .SEQ_HIST_LENGTH, .ro, 1, 0⟩, ⟨16, .SEQ_HIST_ENTRY, .ro, 1, 0⟩, ⟨32,
    .SEQ_HIST_PENDING, .ro, 1, 0⟩]⟩,
    ⟨0x480050, 2, 0x40000, 1, .plain, [⟨0, .SEQ_PAGE_REFCOUNT, .ro, 1, 0⟩, ⟨16, .SEQ_PAGE_STATE, .ro, 1, 0⟩, ⟨18,
    .SEQ_PAGE_FILL, .ro, 1, 0⟩, ⟨25, .SEQ_PAGE_TIER, .ro, 1, 0⟩, ⟨26, .SEQ_PAGE_FRAME, .ro, 1, 0⟩]⟩,
    ⟨0x480058, 2, 0x40000, 1, .seqLayer, [⟨0, .SEQ_KAMAX_AMAX, .rc, 1, 0⟩]⟩,
    ⟨0x482000, 2, 0x40000, 1024, .plain, [⟨0, .SEQ_KEXP_KEXP, .rws, 1, 0⟩]⟩]

/-- The COLL registers. -/
def regsColl : List RegDesc := [
    ⟨0x500000, 1, 0x0, 1, .plain, [⟨0, .COLL_CTRL_COMMIT, .wo, 1, 0⟩, ⟨1, .COLL_CTRL_PERM_START, .wo, 1, 0⟩, ⟨2,
    .COLL_CTRL_PERM_ABORT, .wo, 1, 0⟩]⟩,
    ⟨0x500008, 1, 0x0, 1, .plain, [⟨0, .COLL_STATUS_COMMIT_PENDING, .ro, 1, 0⟩, ⟨1, .COLL_STATUS_PERM_STATE, .ro, 1,
    0⟩, ⟨3, .COLL_STATUS_COMMIT_KEPT, .w1c, 1, 0⟩, ⟨4, .COLL_STATUS_REJOIN_LATE, .w1c, 1, 0⟩, ⟨16, .COLL_STATUS_LIVE,
    .ro, 1, 0⟩]⟩,
    ⟨0x500010, 1, 0x0, 1, .plain, [⟨0, .COLL_CFG_LEASE_BEATS, .rws, 1, 0⟩, ⟨16, .COLL_CFG_PERM_WINDOW, .rws, 1, 0⟩,
    ⟨32, .COLL_CFG_QRECV_CLK, .rws, 1, 0⟩]⟩,
    ⟨0x500018, 1, 0x0, 1, .plain, [⟨0, .COLL_DIR_BASE, .rws, 1, 0⟩, ⟨32, .COLL_DIR_COUNT, .rws, 1, 0⟩]⟩,
    ⟨0x500020, 1, 0x0, 1, .plain, [⟨0, .COLL_PEER_SEL_RANK, .rw, 1, 0⟩]⟩,
    ⟨0x500028, 1, 0x0, 1, .collPeer, [⟨0, .COLL_PEER_STATE, .ro, 1, 0⟩, ⟨16, .COLL_PEER_JOIN_STEP, .ro, 1, 0⟩]⟩,
    ⟨0x500030, 1, 0x0, 1, .plain, [⟨0, .COLL_LATE_ADDED, .rc, 1, 0⟩, ⟨32, .COLL_LATE_DROPPED, .rc, 1, 0⟩]⟩,
    ⟨0x500038, 1, 0x0, 1, .plain, [⟨0, .COLL_MISSING_CHAIN, .rc, 1, 0⟩, ⟨32, .COLL_MISSING_ROOT, .rc, 1, 0⟩, ⟨48,
    .COLL_MISSING_PUSH_LOST, .rc, 1, 0⟩]⟩,
    ⟨0x500040, 1, 0x0, 1, .plain, [⟨0, .COLL_STALE_REPLIES, .rc, 1, 0⟩, ⟨16, .COLL_STALE_DROPPED, .rc, 1, 0⟩, ⟨32,
    .COLL_STALE_USED_CURRENT, .rc, 1, 0⟩, ⟨48, .COLL_STALE_SERVED, .rc, 1, 0⟩]⟩,
    ⟨0x500048, 1, 0x0, 1, .plain, [⟨0, .COLL_LEASE_HELD, .ro, 1, 0⟩, ⟨16, .COLL_LEASE_NO_ROOM, .rc, 1, 0⟩, ⟨32,
    .COLL_LEASE_EXPIRED, .rc, 1, 0⟩]⟩,
    ⟨0x500050, 1, 0x0, 1, .plain, [⟨0, .COLL_ROOT_INCLUDED, .ro, 1, 0⟩, ⟨17, .COLL_ROOT_SELF_IN, .ro, 1, 0⟩, ⟨18,
    .COLL_ROOT_VALID, .ro, 1, 0⟩, ⟨32, .COLL_ROOT_ROOT, .ro, 1, 0⟩, ⟨48, .COLL_ROOT_STEP, .ro, 1, 0⟩]⟩,
    ⟨0x500058, 1, 0x0, 1, .plain, [⟨0, .COLL_PERM_MOVED, .ro, 1, 0⟩, ⟨32, .COLL_PERM_SKIPPED, .ro, 1, 0⟩, ⟨48,
    .COLL_PERM_IN_FLIGHT, .ro, 1, 0⟩]⟩,
    ⟨0x500060, 1, 0x0, 1, .plain, [⟨0, .COLL_BASIN_ACCUM, .rc, 1, 0⟩, ⟨32, .COLL_BASIN_BAD, .rc, 1, 0⟩]⟩,
    ⟨0x500068, 1, 0x0, 1, .plain, [⟨0, .COLL_JOIN_JOIN_STEP, .ro, 1, 0⟩, ⟨44, .COLL_JOIN_REJOIN, .rw, 1, 0⟩]⟩,
    ⟨0x501000, 1, 0x0, 256, .plain, [⟨0, .COLL_WORK_ITEM, .rws, 1, 0⟩]⟩]

/-- The PORT registers. -/
def regsPort : List RegDesc := [
    ⟨0x600000, 16, 0x1000, 1, .plain, [⟨0, .PORT_CTRL_COMMIT, .wo, 1, 0⟩, ⟨1, .PORT_CTRL_RETRAIN, .wo, 1, 0⟩, ⟨2,
    .PORT_CTRL_LANE_CLEAR, .wo, 1, 0⟩]⟩,
    ⟨0x600008, 16, 0x1000, 1, .plain, [⟨0, .PORT_CFG_ENABLE, .rws, 1, 0⟩, ⟨1, .PORT_CFG_MODE, .rws, 1, 0⟩, ⟨2,
    .PORT_CFG_LANE_EXCLUDE, .rws, 1, 0⟩]⟩,
    ⟨0x600010, 16, 0x1000, 1, .plain, [⟨0, .PORT_STATUS_STATE, .ro, 1, 0⟩, ⟨3, .PORT_STATUS_COMMIT_PENDING, .ro, 1,
    0⟩, ⟨4, .PORT_STATUS_STOPPED, .ro, 1, 0⟩, ⟨8, .PORT_STATUS_TX_MAP, .ro, 1, 0⟩, ⟨12, .PORT_STATUS_RX_MAP, .ro, 1,
    0⟩, ⟨32, .PORT_STATUS_PARTNER_ID, .ro, 1, 0⟩, ⟨48, .PORT_STATUS_PARTNER_PORT, .ro, 1, 0⟩, ⟨52,
    .PORT_STATUS_PARTNER_VALID, .ro, 1, 0⟩]⟩,
    ⟨0x600018, 16, 0x1000, 1, .plain, [⟨0, .PORT_LANE_STATE, .ro, 4, 0⟩, ⟨8, .PORT_LANE_STATE, .ro, 4, 1⟩, ⟨16,
    .PORT_LANE_STATE, .ro, 4, 2⟩, ⟨24, .PORT_LANE_STATE, .ro, 4, 3⟩, ⟨32, .PORT_LANE_FAILS, .rc, 1, 0⟩]⟩,
    ⟨0x600020, 16, 0x1000, 1, .plain, [⟨0, .PORT_FEC_CORRECTED, .rc, 1, 0⟩, ⟨32, .PORT_FEC_UNCORRECTED, .rc, 1, 0⟩]⟩,
    ⟨0x600028, 16, 0x1000, 4, .plain, [⟨0, .PORT_SYM_TOTAL, .rc, 1, 0⟩, ⟨32, .PORT_SYM_LAST_BEAT, .ro, 1, 0⟩]⟩,
    ⟨0x600048, 16, 0x1000, 1, .plain, [⟨0, .PORT_FRAMES_RX, .rc, 1, 0⟩, ⟨32, .PORT_FRAMES_TX, .rc, 1, 0⟩]⟩,
    ⟨0x600050, 16, 0x1000, 1, .plain, [⟨0, .PORT_DROPS_BAD, .rc, 1, 0⟩, ⟨16, .PORT_DROPS_STOMPED, .rc, 1, 0⟩, ⟨32,
    .PORT_DROPS_BUF_FULL, .rc, 1, 0⟩, ⟨48, .PORT_DROPS_OTHER, .rc, 1, 0⟩]⟩,
    ⟨0x600058, 16, 0x1000, 1, .plain, [⟨0, .PORT_MAC_MAC, .rw, 1, 0⟩]⟩,
    ⟨0x600060, 16, 0x1000, 1, .plain, [⟨0, .PORT_NEIGHBOR_MAC_MAC, .rw, 1, 0⟩]⟩,
    ⟨0x600068, 16, 0x1000, 1, .plain, [⟨0, .PORT_TRAIN_ATTEMPTS, .rc, 1, 0⟩, ⟨16, .PORT_TRAIN_RETRAINS, .rc, 1, 0⟩,
    ⟨32, .PORT_TRAIN_LAST_TIME, .ro, 1, 0⟩]⟩,
    ⟨0x610000, 1, 0x0, 1, .plain, [⟨0, .PORT_FWD_CFG_OWN_ID, .rw, 1, 0⟩, ⟨16, .PORT_FWD_CFG_HOP_LIMIT, .rw, 1, 0⟩,
    ⟨24, .PORT_FWD_CFG_CTRL_TC, .rw, 1, 0⟩]⟩,
    ⟨0x610008, 1, 0x0, 1, .plain, [⟨0, .PORT_FWD_PREFIX_HI_PREFIX, .rw, 1, 0⟩]⟩,
    ⟨0x610010, 1, 0x0, 1, .plain, [⟨0, .PORT_FWD_PREFIX_LO_PREFIX, .rw, 1, 0⟩]⟩,
    ⟨0x610018, 1, 0x0, 1, .plain, [⟨0, .PORT_FWD_DEFAULT_ENTRY, .rw, 1, 0⟩]⟩,
    ⟨0x610020, 1, 0x0, 1, .plain, [⟨0, .PORT_FWD_STATS_NO_ROUTE, .rc, 1, 0⟩, ⟨16, .PORT_FWD_STATS_HOP, .rc, 1, 0⟩,
    ⟨32, .PORT_FWD_STATS_FORWARDED, .rc, 1, 0⟩]⟩,
    ⟨0x640000, 1, 0x0, 16384, .plain, [⟨0, .PORT_FWD_TABLE_ENTRY, .rw, 4, 0⟩, ⟨16, .PORT_FWD_TABLE_ENTRY, .rw, 4, 1⟩,
    ⟨32, .PORT_FWD_TABLE_ENTRY, .rw, 4, 2⟩, ⟨48, .PORT_FWD_TABLE_ENTRY, .rw, 4, 3⟩]⟩]

/-- The XPORT registers. -/
def regsXport : List RegDesc := [
    ⟨0x680000, 1, 0x0, 1, .plain, [⟨0, .XPORT_CTRL_COMMIT, .wo, 1, 0⟩, ⟨1, .XPORT_CTRL_QUAR_CLEAR, .wo, 1, 0⟩, ⟨2,
    .XPORT_CTRL_CONN_RESET, .wo, 1, 0⟩, ⟨3, .XPORT_CTRL_ROCE_REARM, .wo, 1, 0⟩]⟩,
    ⟨0x680008, 1, 0x0, 1, .plain, [⟨0, .XPORT_STATUS_COMMIT_PENDING, .ro, 1, 0⟩, ⟨1, .XPORT_STATUS_VLOG_WRAPPED, .w1c,
    1, 0⟩, ⟨2, .XPORT_STATUS_QUARANTINE_ANY, .ro, 1, 0⟩, ⟨32, .XPORT_STATUS_INCARNATION, .ro, 1, 0⟩]⟩,
    ⟨0x680010, 1, 0x0, 1, .plain, [⟨0, .XPORT_CFG_GT_UDP_PORT, .rws, 1, 0⟩, ⟨16, .XPORT_CFG_RX_WINDOW, .rws, 1, 0⟩,
    ⟨26, .XPORT_CFG_CHANNELS_M1, .rws, 1, 0⟩, ⟨28, .XPORT_CFG_ACK_CLK, .rws, 1, 0⟩, ⟨40, .XPORT_CFG_RTO_CLK, .rws, 1,
    0⟩]⟩,
    ⟨0x680018, 1, 0x0, 1, .plain, [⟨0, .XPORT_EP_SEL_ENDPOINT, .rw, 1, 0⟩, ⟨16, .XPORT_EP_SEL_CHANNEL, .rw, 1, 0⟩,
    ⟨18, .XPORT_EP_SEL_SVC, .rw, 1, 0⟩]⟩,
    ⟨0x680020, 1, 0x0, 1, .xportEp, [⟨0, .XPORT_EP_CFG_KIND, .rws, 1, 0⟩, ⟨3, .XPORT_EP_CFG_WATCH, .rws, 1, 0⟩]⟩,
    ⟨0x680028, 1, 0x0, 1, .xportConn, [⟨0, .XPORT_EP_STATE_CONN, .ro, 1, 0⟩, ⟨3, .XPORT_EP_STATE_SILENCE, .ro, 1, 0⟩,
    ⟨32, .XPORT_EP_STATE_PEER_INC, .ro, 1, 0⟩]⟩,
    ⟨0x680030, 1, 0x0, 1, .xportConn, [⟨0, .XPORT_CONN_STATS_RETX, .rc, 1, 0⟩, ⟨32, .XPORT_CONN_STATS_DISCARDED, .rc,
    1, 0⟩, ⟨48, .XPORT_CONN_STATS_VIOLATIONS, .rc, 1, 0⟩]⟩,
    ⟨0x680038, 1, 0x0, 1, .plain, [⟨0, .XPORT_TOTALS_RX, .rc, 1, 0⟩, ⟨32, .XPORT_TOTALS_TX, .rc, 1, 0⟩]⟩,
    ⟨0x680040, 1, 0x0, 1, .plain, [⟨0, .XPORT_VIOL_COUNT, .rc, 1, 0⟩, ⟨16, .XPORT_VIOL_HEAD, .ro, 1, 0⟩, ⟨32,
    .XPORT_VIOL_QUARANTINES, .rc, 1, 0⟩, ⟨48, .XPORT_VIOL_NAK_SUPPRESSED, .rc, 1, 0⟩]⟩,
    ⟨0x680048, 1, 0x0, 1, .plain, [⟨0, .XPORT_VLOG_SEL_INDEX, .rw, 1, 0⟩]⟩,
    ⟨0x680050, 1, 0x0, 4, .plain, [⟨0, .XPORT_VLOG_DATA_DATA, .ro, 1, 0⟩]⟩,
    ⟨0x680070, 1, 0x0, 1, .plain, [⟨0, .XPORT_INGEST_SEL_STREAM, .rw, 1, 0⟩]⟩,
    ⟨0x680078, 1, 0x0, 2, .xportStream, [⟨0, .XPORT_INGEST_MAP_QUEUE_A, .rws, 1, 0⟩, ⟨13, .XPORT_INGEST_MAP_VALID_A,
    .rws, 1, 0⟩, ⟨14, .XPORT_INGEST_MAP_MASK_A, .rws, 1, 0⟩, ⟨32, .XPORT_INGEST_MAP_QUEUE_B, .rws, 1, 0⟩, ⟨45,
    .XPORT_INGEST_MAP_VALID_B, .rws, 1, 0⟩, ⟨46, .XPORT_INGEST_MAP_MASK_B, .rws, 1, 0⟩]⟩,
    ⟨0x680088, 1, 0x0, 1, .plain, [⟨0, .XPORT_GSR_RECORDS, .rc, 1, 0⟩, ⟨32, .XPORT_GSR_MALFORMED, .rc, 1, 0⟩, ⟨48,
    .XPORT_GSR_TRUNCATED, .rc, 1, 0⟩]⟩,
    ⟨0x680090, 1, 0x0, 1, .plain, [⟨0, .XPORT_GSR_DROP_STALE, .rc, 1, 0⟩, ⟨16, .XPORT_GSR_DROP_LATE_MB, .rc, 1, 0⟩,
    ⟨32, .XPORT_GSR_DROP_SKIPPED_BYTES, .rc, 1, 0⟩]⟩,
    ⟨0x680098, 1, 0x0, 1, .plain, [⟨0, .XPORT_ROCE_SEL_SINK, .rw, 1, 0⟩]⟩,
    ⟨0x6800a0, 1, 0x0, 1, .roceSink, [⟨0, .XPORT_ROCE_QP_STATE, .ro, 1, 0⟩, ⟨8, .XPORT_ROCE_QP_NEXT_PSN, .ro, 1, 0⟩,
    ⟨32, .XPORT_ROCE_QP_START_PSN, .rw, 1, 0⟩]⟩,
    ⟨0x6800a8, 1, 0x0, 1, .roceSink, [⟨0, .XPORT_ROCE_STATS_RETRIES, .rc, 1, 0⟩, ⟨16, .XPORT_ROCE_STATS_ERRORS, .rc,
    1, 0⟩, ⟨32, .XPORT_ROCE_STATS_RNR, .rc, 1, 0⟩, ⟨48, .XPORT_ROCE_STATS_DISCARDED, .rc, 1, 0⟩]⟩,
    ⟨0x6800b0, 1, 0x0, 1, .xportSvc, [⟨0, .XPORT_SVC_ADDR_HI_ADDR, .rws, 1, 0⟩]⟩,
    ⟨0x6800b8, 1, 0x0, 1, .xportSvc, [⟨0, .XPORT_SVC_ADDR_LO_ADDR, .rws, 1, 0⟩]⟩]

/-- The ERR registers. -/
def regsErr : List RegDesc := [
    ⟨0x700000, 1, 0x0, 1, .plain, [⟨0, .ERR_CTRL_SCRUB_GO, .wo, 1, 0⟩, ⟨1, .ERR_CTRL_SCRUB_ABORT, .wo, 1, 0⟩, ⟨2,
    .ERR_CTRL_DMA_RESTART, .wo, 1, 0⟩, ⟨3, .ERR_CTRL_DMA_RESTART_SKIP, .wo, 1, 0⟩, ⟨4, .ERR_CTRL_RETIRE_GO, .wo, 1,
    0⟩, ⟨5, .ERR_CTRL_LINE_CLEAR, .wo, 1, 0⟩, ⟨6, .ERR_CTRL_STACK_CLEAR, .wo, 1, 0⟩]⟩,
    ⟨0x700008, 1, 0x0, 1, .plain, [⟨0, .ERR_STATUS_SCRUB_STATE, .ro, 1, 0⟩, ⟨2, .ERR_STATUS_DMA_HALTED, .ro, 1, 0⟩,
    ⟨5, .ERR_STATUS_RETIRE_STATE, .ro, 1, 0⟩, ⟨7, .ERR_STATUS_RETIRE_RESULT, .ro, 1, 0⟩, ⟨10,
    .ERR_STATUS_EVLOG_WRAPPED, .w1c, 1, 0⟩, ⟨12, .ERR_STATUS_STATE_LOST, .ro, 1, 0⟩]⟩,
    ⟨0x700010, 1, 0x0, 1, .plain, [⟨0, .ERR_STORE_SEL_KIND, .rw, 1, 0⟩, ⟨8, .ERR_STORE_SEL_INDEX, .rw, 1, 0⟩]⟩,
    ⟨0x700018, 1, 0x0, 1, .errStore, [⟨0, .ERR_STORE_COUNT_CE, .rc, 1, 0⟩, ⟨32, .ERR_STORE_COUNT_UE, .rc, 1, 0⟩, ⟨48,
    .ERR_STORE_COUNT_POISON, .rc, 1, 0⟩]⟩,
    ⟨0x700020, 1, 0x0, 1, .errStore, [⟨0, .ERR_STORE_LAST_ADDR, .ro, 1, 0⟩, ⟨48, .ERR_STORE_LAST_OUTCOME, .ro, 1, 0⟩]⟩,
    ⟨0x700028, 1, 0x0, 1, .plain, [⟨6, .ERR_SCRUB_BASE_LINE, .rw, 1, 0⟩]⟩,
    ⟨0x700038, 1, 0x0, 1, .plain, [⟨6, .ERR_SCRUB_NEXT_LINE, .ro, 1, 0⟩]⟩,
    ⟨0x700050, 1, 0x0, 1, .plain, [⟨6, .ERR_SCRUB_FIRST_UE_LINE, .ro, 1, 0⟩]⟩,
    ⟨0x700058, 1, 0x0, 1, .plain, [⟨6, .ERR_SCRUB_LAST_UE_LINE, .ro, 1, 0⟩]⟩,
    ⟨0x700030, 1, 0x0, 1, .plain, [⟨0, .ERR_SCRUB_LEN_LINES, .rw, 1, 0⟩]⟩,
    ⟨0x700040, 1, 0x0, 1, .plain, [⟨0, .ERR_SCRUB_SUM0_LINES, .ro, 1, 0⟩, ⟨32, .ERR_SCRUB_SUM0_CORRECTED, .ro, 1, 0⟩]⟩,
    ⟨0x700048, 1, 0x0, 1, .plain, [⟨0, .ERR_SCRUB_SUM1_UE, .ro, 1, 0⟩, ⟨32, .ERR_SCRUB_SUM1_POISONED, .ro, 1, 0⟩]⟩,
    ⟨0x700060, 1, 0x0, 1, .plain, [⟨0, .ERR_DMA_SEL_CHANNEL, .rw, 1, 0⟩]⟩,
    ⟨0x700068, 1, 0x0, 1, .errDma, [⟨0, .ERR_DMA_STATE_HALTED, .ro, 1, 0⟩, ⟨8, .ERR_DMA_STATE_SKIPPED, .rc, 1, 0⟩,
    ⟨16, .ERR_DMA_STATE_ADDR, .ro, 1, 0⟩]⟩,
    ⟨0x700070, 1, 0x0, 1, .plain, [⟨12, .ERR_RETIRE_ADDR_PAGE, .rw, 1, 0⟩]⟩,
    ⟨0x700078, 1, 0x0, 1, .plain, [⟨0, .ERR_RETIRE_STATS_PAGES, .ro, 1, 0⟩, ⟨17, .ERR_RETIRE_STATS_MOVED, .rc, 1, 0⟩,
    ⟨48, .ERR_RETIRE_STATS_LEFT, .rc, 1, 0⟩]⟩,
    ⟨0x700080, 1, 0x0, 1, .plain, [⟨0, .ERR_EVLOG_HEAD_HEAD, .ro, 1, 0⟩, ⟨32, .ERR_EVLOG_HEAD_SUPPRESSED, .rc, 1, 0⟩]⟩,
    ⟨0x700088, 1, 0x0, 1, .plain, [⟨0, .ERR_EVLOG_SEL_INDEX, .rw, 1, 0⟩, ⟨63, .ERR_EVLOG_SEL_VALID, .ro, 1, 0⟩]⟩,
    ⟨0x7000b0, 1, 0x0, 1, .plain, [⟨0, .ERR_HIST_SEL_INDEX, .rw, 1, 0⟩, ⟨63, .ERR_HIST_SEL_VALID, .ro, 1, 0⟩]⟩,
    ⟨0x700090, 1, 0x0, 4, .plain, [⟨0, .ERR_EVLOG_DATA_DATA, .ro, 1, 0⟩]⟩,
    ⟨0x7000b8, 1, 0x0, 8, .plain, [⟨0, .ERR_HIST_DATA_DATA, .ro, 1, 0⟩]⟩,
    ⟨0x7000f8, 1, 0x0, 1, .plain, [⟨0, .ERR_CLEAR_ADDR_TARGET, .rw, 1, 0⟩, ⟨2, .ERR_CLEAR_ADDR_STACK, .rw, 1, 0⟩, ⟨6,
    .ERR_CLEAR_ADDR_LINE, .rw, 1, 0⟩]⟩]

/-- The FMP registers. -/
def regsFmp : List RegDesc := [
    ⟨0x780000, 1, 0x0, 1, .plain, [⟨0, .FMP_CTRL_COMMIT, .wo, 1, 0⟩]⟩,
    ⟨0x780008, 1, 0x0, 1, .plain, [⟨0, .FMP_STATUS_COMMIT_PENDING, .ro, 1, 0⟩, ⟨1, .FMP_STATUS_READY, .ro, 1, 0⟩, ⟨2,
    .FMP_STATUS_SESSION, .ro, 1, 0⟩, ⟨3, .FMP_STATUS_UNOWNED, .ro, 1, 0⟩, ⟨4, .FMP_STATUS_IDENTITY_BAD, .ro, 1, 0⟩,
    ⟨5, .FMP_STATUS_COMMIT_KEPT, .w1c, 1, 0⟩]⟩,
    ⟨0x780010, 1, 0x0, 1, .plain, [⟨0, .FMP_CFG_UDP_PORT, .rws, 1, 0⟩, ⟨16, .FMP_CFG_IDLE_S, .rws, 1, 0⟩, ⟨32,
    .FMP_CFG_SOUNDINGS, .rws, 1, 0⟩, ⟨33, .FMP_CFG_EVENTS, .rws, 1, 0⟩]⟩,
    ⟨0x780018, 1, 0x0, 1, .plain, [⟨0, .FMP_MGMT_ADDR_HI_ADDR, .rw, 1, 0⟩]⟩,
    ⟨0x780020, 1, 0x0, 1, .plain, [⟨0, .FMP_MGMT_ADDR_LO_ADDR, .rw, 1, 0⟩]⟩,
    ⟨0x780028, 1, 0x0, 1, .plain, [⟨0, .FMP_SESSION_ID, .ro, 1, 0⟩, ⟨32, .FMP_SESSION_KEY, .ro, 1, 0⟩, ⟨34,
    .FMP_SESSION_VIA, .ro, 1, 0⟩]⟩,
    ⟨0x780030, 1, 0x0, 1, .plain, [⟨0, .FMP_STATS_BAD_TAG, .rc, 1, 0⟩, ⟨16, .FMP_STATS_BAD_HEADER, .rc, 1, 0⟩, ⟨32,
    .FMP_STATS_SKIPPED, .rc, 1, 0⟩, ⟨48, .FMP_STATS_DENIED, .rc, 1, 0⟩]⟩,
    ⟨0x780038, 1, 0x0, 1, .plain, [⟨0, .FMP_RING_SEL_RING, .rw, 1, 0⟩]⟩,
    ⟨0x780040, 1, 0x0, 1, .fmpRing, [⟨0, .FMP_RING_CFG_ENABLE, .rws, 1, 0⟩, ⟨1, .FMP_RING_CFG_LOG2_ENTRIES, .rws, 1,
    0⟩, ⟨8, .FMP_RING_CFG_BASE, .rws, 1, 0⟩]⟩,
    ⟨0x780048, 1, 0x0, 1, .fmpRing, [⟨0, .FMP_RING_STATE_HEAD, .ro, 1, 0⟩, ⟨32, .FMP_RING_STATE_TAIL, .ro, 1, 0⟩]⟩,
    ⟨0x780050, 1, 0x0, 1, .fmpRing, [⟨0, .FMP_RING_STATS_STATE, .ro, 1, 0⟩, ⟨16, .FMP_RING_STATS_EARLY, .rc, 1, 0⟩,
    ⟨32, .FMP_RING_STATS_BAD_TAIL, .rc, 1, 0⟩]⟩,
    ⟨0x780058, 1, 0x0, 1, .plain, [⟨0, .FMP_FW_STATE, .ro, 1, 0⟩, ⟨4, .FMP_FW_ERROR, .ro, 1, 0⟩, ⟨16, .FMP_FW_RUN_SVN,
    .ro, 1, 0⟩, ⟨24, .FMP_FW_STAGED_SVN, .ro, 1, 0⟩, ⟨32, .FMP_FW_SVN_MIN, .ro, 1, 0⟩]⟩,
    ⟨0x780060, 1, 0x0, 1, .plain, [⟨0, .FMP_FUSE_OWNER_PRESENT, .ro, 1, 0⟩, ⟨4, .FMP_FUSE_OWNER_REVOKED, .ro, 1, 0⟩,
    ⟨8, .FMP_FUSE_CLAY_SIG_REQUIRED, .ro, 1, 0⟩, ⟨9, .FMP_FUSE_DATA_PORT_FMP_OFF, .ro, 1, 0⟩, ⟨10,
    .FMP_FUSE_ROM_LOADER_OFF, .ro, 1, 0⟩, ⟨11, .FMP_FUSE_PENDING, .ro, 1, 0⟩]⟩,
    ⟨0x780068, 1, 0x0, 4, .plain, [⟨0, .FMP_BOOT_MEAS_DIGEST, .ro, 1, 0⟩]⟩,
    ⟨0x780100, 1, 0x0, 16, .plain, [⟨0, .FMP_DOORBELL_TAIL, .wo, 1, 0⟩]⟩]

/-- The PWR registers. -/
def regsPwr : List RegDesc := [
    ⟨0x7c0000, 1, 0x0, 1, .plain, [⟨0, .PWR_CTRL_COMMIT, .wo, 1, 0⟩, ⟨1, .PWR_CTRL_STANDBY, .wo, 1, 0⟩, ⟨2,
    .PWR_CTRL_WAKE, .wo, 1, 0⟩]⟩,
    ⟨0x7c0008, 1, 0x0, 1, .plain, [⟨0, .PWR_STATUS_STATE, .ro, 1, 0⟩, ⟨2, .PWR_STATUS_COMMIT_PENDING, .ro, 1, 0⟩, ⟨3,
    .PWR_STATUS_THROTTLED, .ro, 1, 0⟩, ⟨4, .PWR_STATUS_INPUT_OK, .ro, 1, 0⟩]⟩,
    ⟨0x7c0010, 1, 0x0, 1, .plain, [⟨0, .PWR_CFG_CAP, .rws, 1, 0⟩, ⟨16, .PWR_CFG_PAD_FLOOR, .rws, 1, 0⟩]⟩,
    ⟨0x7c0018, 1, 0x0, 1, .plain, [⟨0, .PWR_PROFILE_PROFILE, .ro, 1, 0⟩, ⟨4, .PWR_PROFILE_CAP, .ro, 1, 0⟩, ⟨16,
    .PWR_PROFILE_SMB_ADDR, .ro, 1, 0⟩]⟩,
    ⟨0x7c0020, 1, 0x0, 1, .plain, [⟨0, .PWR_INPUT_MV, .ro, 1, 0⟩, ⟨16, .PWR_INPUT_CURRENT, .ro, 1, 0⟩, ⟨32,
    .PWR_INPUT_POWER, .ro, 1, 0⟩, ⟨48, .PWR_INPUT_PEAK, .rc, 1, 0⟩]⟩,
    ⟨0x7c0028, 1, 0x0, 1, .plain, [⟨0, .PWR_THERM_SEL_SENSOR, .rw, 1, 0⟩]⟩,
    ⟨0x7c0030, 1, 0x0, 1, .pwrSensor, [⟨0, .PWR_THERM_TEMP, .ro, 1, 0⟩, ⟨16, .PWR_THERM_MAX, .rc, 1, 0⟩, ⟨32,
    .PWR_THERM_HOTTEST, .ro, 1, 0⟩]⟩,
    ⟨0x7c0038, 1, 0x0, 1, .plain, [⟨0, .PWR_THROTTLE_PAD, .ro, 1, 0⟩, ⟨13, .PWR_THROTTLE_CAUSE, .ro, 1, 0⟩, ⟨32,
    .PWR_THROTTLE_PADDED, .rc, 1, 0⟩]⟩]

/-- The RST registers. -/
def regsRst : List RegDesc := [
    ⟨0x7e0000, 1, 0x0, 1, .plain, [⟨0, .RST_CAUSE_LEVEL, .ro, 1, 0⟩, ⟨4, .RST_CAUSE_SOURCES, .ro, 1, 0⟩, ⟨16,
    .RST_CAUSE_COUNT, .ro, 1, 0⟩]⟩,
    ⟨0x7e0008, 1, 0x0, 1, .plain, [⟨0, .RST_MAP_LEVEL, .ro, 7, 0⟩, ⟨3, .RST_MAP_LEVEL, .ro, 7, 1⟩, ⟨6, .RST_MAP_LEVEL,
    .ro, 7, 2⟩, ⟨9, .RST_MAP_LEVEL, .ro, 7, 3⟩, ⟨12, .RST_MAP_LEVEL, .ro, 7, 4⟩, ⟨15, .RST_MAP_LEVEL, .ro, 7, 5⟩, ⟨18,
    .RST_MAP_LEVEL, .ro, 7, 6⟩]⟩,
    ⟨0x7e0010, 1, 0x0, 1, .plain, [⟨0, .RST_LAST_BEAT_BEAT, .ro, 1, 0⟩]⟩]

/-- The whole control space. -/
def regTable : List RegDesc :=
  regsBeat ++ regsTier ++ regsCell ++ regsClay ++ regsEmb ++ regsDrift ++
  regsSilt ++ regsSpring ++ regsSeq ++ regsColl ++ regsPort ++ regsXport ++ regsErr ++ regsFmp ++ regsPwr ++ regsRst

/-- The register at an address, with its block number and its number within the block; none where no register is. -/
def findReg : List RegDesc → Nat → Option (RegDesc × Nat × Nat)
  | [], _ => none
  | r :: rest, a =>
    let off := a - r.base
    let i1 := if r.s1 = 0 then 0 else off / r.s1
    let i2 := (if r.s1 = 0 then off else off % r.s1) / 8
    if r.base ≤ a ∧ i1 < r.n1 ∧ i2 < r.n2 ∧ a % 8 = 0 then some (r, i1, i2) else findReg rest a

end Sys2Proof.Machine
end

