-- ==== Sys2Proof/Machine/ClayLoad.lean ====
section
/-!
DEFINITION. Reading a Clay image: its header, section table and records, the checks of the first pass (R155 to R173) and
the clamps of the second (R174 and R81, R193, R237), and the merge of a patch (R186).
-/
namespace Sys2Proof.Machine

/-! HBM ranges (R72, R73, R81). -/

/-- The direct byte runs that `n` bytes from an HBM address name; a run of the alias names one run in each stack. -/
def hbmRuns (a n : Nat) : List (Nat × Nat) :=
  if n = 0 then []
  else if a < 0x010000000000 then [(a, n)]
  else
    let x := a - 0x010000000000
    let p0 := x / 4096
    let p1 := (x + n - 1) / 4096
    (List.range 16).filterMap (fun st =>
      let k0 := if p0 ≤ st then 0 else (p0 - st + 15) / 16
      if 16 * k0 + st > p1 then none
      else
        let k1 := (p1 - st) / 16
        let lo := k0 * 4096 + (if 16 * k0 + st = p0 then x % 4096 else 0)
        let hi := k1 * 4096 + (if 16 * k1 + st = p1 then (x + n - 1) % 4096 + 1 else 4096)
        some (st * 0x1000000000 + lo, hi - lo))

def runsMeet (r q : Nat × Nat) : Bool := r.1 < q.1 + q.2 && q.1 < r.1 + r.2 && 0 < r.2 && 0 < q.2

/-- Whether two HBM ranges name a common byte (R81). -/
def hbmOverlap (a n b m : Nat) : Bool := (hbmRuns a n).any (fun r => (hbmRuns b m).any (runsMeet r))

/-- The first address of the range [a, a + n) that names a byte of the direct run `q`. -/
def firstMeet (a n : Nat) (q : Nat × Nat) : Option Nat :=
  ((hbmRuns a n).filterMap (fun r =>
    if runsMeet r q then
      let d := max r.1 q.1
      if a < 0x010000000000 then some d
      else
        let st := d / 0x1000000000
        let o := d % 0x1000000000
        some (0x010000000000 + (o / 4096 * 16 + st) * 4096 + o % 4096)
    else none)).foldl (fun m x => match m with | none => some x | some y => some (min x y)) none

/-! Use-class regions (R80, R81, R164). -/

/-- Instances of each class (R80). -/
def classInstances (c : Nat) : Nat :=
  if [0, 2, 9, 12].contains c then 144 else if [1, 4, 5, 10].contains c then 2 else if c = 13 then 16 else 1

/-- A placed region: class, instance, base and size in the class's units. -/
abbrev Region := Nat × Nat × Nat × Nat

/-- The first unit of [base, base + size) that a Tarn region placed before takes. -/
def tarnCut (base size : Nat) (placed : List (Nat × Nat)) : Nat :=
  let inside := placed.any (fun r => r.1 ≤ base && base < r.1 + r.2)
  if inside then 0
  else placed.foldl (fun n r => if 0 < r.2 && base ≤ r.1 && r.1 < base + n then r.1 - base else n) size

/-- Tarn classes in placement order: of a cell Tarn with its units, of a shared Tarn (R81). -/
def tarnOrder : List (List Nat × Nat) := [([9, 2, 0, 12], 0x180), ([10, 4, 5], 0x6000)]

/-- Records of QUOTAS placed into Tarns: each with the size in effect. -/
def placeTarns (recs : List Region) : List Region :=
  (tarnOrder.map (fun o =>
    o.1.foldl (fun placed c =>
      (recs.filter (fun r => r.1 == c)).foldl (fun placed r =>
        let size0 := if r.2.2.1 ≥ o.2 then 0 else min r.2.2.2 (o.2 - r.2.2.1)
        let before := (placed.filter (fun q => q.2.1 == r.2.1)).map (fun q => (q.2.2.1, q.2.2.2))
        placed ++ [(c, r.2.1, r.2.2.1, tarnCut r.2.2.1 size0 before)]) placed) [])).flatten

/-- The default SPRING region (R80): class, instance, base, size. -/
def defaultSpring : Region := (7, 0, 0x01FE00000000 / 65536, 0x200000000 / 65536)

/-- The size in effect of an HBM region, in units, after the regions placed before it (R81). -/
def hbmCut (base size : Nat) (placed : List (Nat × Nat)) : Nat :=
  let a := base * 65536
  let stop := if a < 0x010000000000 then 0x010000000000 else 0x020000000000
  if a ≥ 0x020000000000 then 0
  else
    let n := min (size * 65536) (stop - a)
    let cut := (placed.map (fun p => hbmRuns (p.1 * 65536) (p.2 * 65536))).flatten.foldl (fun n q =>
      match firstMeet a n q with
      | some x => min n (x - a)
      | none => n) n
    cut / 65536

/-- HBM regions in code order, the instances of a class ascending, after the default SPRING region where no record names
the class (R80, R81). -/
def placeHbm (recs : List Region) : List Region :=
  let start := if recs.any (fun r => r.1 == 7) then [] else [defaultSpring]
  [1, 3, 6, 7, 8, 11, 13, 14].foldl (fun placed c =>
    ((List.range (classInstances c)).flatMap (fun i => recs.filter (fun r => r.1 == c && r.2.1 == i))).foldl (fun placed r =>
      placed ++ [(c, r.2.1, r.2.2.1, hbmCut r.2.2.1 r.2.2.2 (placed.map (fun q => (q.2.2.1, q.2.2.2))))]) placed) start

/-- Every region in effect from the QUOTAS records in effect. -/
def regionsOf (quotas : List Nat) : List Region :=
  let rs : List Region := quotas.map (fun r => (recGet r 0 1, recGet r 2 2, recGet r 4 4, recGet r 8 4))
  placeTarns rs ++ placeHbm rs

/-- The region of a class instance among placed ones: base and size in units; empty where there is none (R164). -/
def regionIn (rs : List Region) (c i : Nat) : Nat × Nat :=
  match rs.find? (fun r => r.1 == c && r.2.1 == i) with
  | some r => (r.2.2.1, r.2.2.2)
  | none => (0, 0)

/-! Sections of the staged bytes (R155 to R157). -/

/-- `n` bytes at `o` of the staged image. -/
def imgGet (b : List Nat) (o n : Nat) : Nat := ofLe ((b.drop o).take n)
def imgBytes (b : List Nat) (o n : Nat) : List Nat := (b.drop o).take n

/-- An entry of the section table: type, CRC, offset, size, count. -/
structure SecEntry where
  type  : Nat
  crc   : Nat
  off   : Nat
  size  : Nat
  count : Nat
  deriving DecidableEq, Repr

def secTable (b : List Nat) : List SecEntry :=
  (List.range (imgGet b 28 2)).map (fun i =>
    let o := imgGet b 32 4 + 32 * i
    ⟨imgGet b o 2, imgGet b (o + 4) 4, imgGet b (o + 8) 8, imgGet b (o + 16) 8, imgGet b (o + 24) 4⟩)

def sectionTypes : List Nat := [1, 2, 3, 4, 5, 6, 7, 8, 9, 0xA, 0xB, 0xC, 0xD, 0x7F]
def requiredSections : List Nat := [1, 4, 5, 7]
def patchableSections : List Nat := [4, 5, 6, 0xA, 0xB, 0xC, 0xD, 0x7F]

def imgPatch (b : List Nat) : Bool := (imgGet b 10 2).testBit 0
def imgSigned (b : List Nat) : Bool := (imgGet b 10 2).testBit 1

/-- Whether the section table breaks R156 or R157, or disagrees with SIGNED (error 4). -/
def tableBad (b : List Nat) : Bool :=
  let len := imgGet b 16 8
  let n := imgGet b 28 2
  let t := imgGet b 32 4
  let es := secTable b
  let spans := (0, 128) :: (t, 32 * n) :: es.map (fun e => (e.off, e.size))
  let sig := es.filter (fun e => e.type == 0x7F)
  n == 0 || n > 32 || t % 64 != 0 || t + 32 * n > len ||
  crc32c (imgBytes b t (32 * n)) != imgGet b 36 4 ||
  es.any (fun e => !sectionTypes.contains e.type || e.off % 64 != 0 || e.off + e.size > len) ||
  (es.map (·.type)).eraseDups.length != es.length ||
  spans.zipIdx.any (fun (r, i) => (spans.drop (i + 1)).any (runsMeet r)) ||
  sig.any (fun e => e.off + e.size != len || es.any (fun e' => e'.off > e.off)) ||
  imgSigned b != !sig.isEmpty

/-- Checks 1 to 7 of R173: the first error, or 0. `b` are the staged bytes and `srcLen` CLAY_SRC_LEN. -/
def pass1Error (b : List Nat) (srcLen : Nat) (sigRequired : Bool) : Nat :=
  let len := imgGet b 16 8
  if imgBytes b 0 8 != [0x47, 0x52, 0x4E, 0x43, 0x4C, 0x41, 0x59, 0x37] || imgGet b 8 2 != 1 then 1
  else if crc32c (imgBytes b 0 12 ++ [0, 0, 0, 0] ++ imgBytes b 16 112) != imgGet b 12 4 then 2
  else if len % 64 != 0 || len < 4096 || len > 0x10000000 || len > srcLen then 3
  else if tableBad b then 4
  else if (secTable b).any (fun e => crc32c (imgBytes b e.off e.size) != e.crc) then 5
  else if !imgPatch b && requiredSections.any (fun t => !(secTable b).any (fun e => e.type == t)) then 6
  else if sigRequired && !imgSigned b then 7
  else 0

/-- The signed message (R171): the image before the signature section, with the three CRC fields as zero. -/
def signedMessage (b : List Nat) (e : SecEntry) (idx : Nat) : List Nat :=
  let t := imgGet b 32 4
  (imgBytes b 0 e.off).zipIdx.map (fun (x, i) =>
    if (12 ≤ i ∧ i < 16) ∨ (36 ≤ i ∧ i < 40) ∨ (t + 32 * idx + 4 ≤ i ∧ i < t + 32 * idx + 8) then 0 else x)

/-- Check 8 of R173 (R171): whether the signature section is well formed, its key known and the signature right. -/
def signatureOk (b : List Nat) (keyKnown : Nat → Bool) : Bool :=
  match (secTable b).zipIdx.find? (fun p => p.1.type == 0x7F) with
  | none => true
  | some (e, idx) =>
    let body := imgBytes b e.off e.size
    let sigLen := imgGet body 4 4
    e.size == roundUp (40 + sigLen) 64 && (body.drop (40 + sigLen)).all (· == 0) &&
    imgGet body 0 2 == 1 && sigLen == 29792 && keyKnown (imgGet body 8 32) &&
    Config.slhVerify (imgGet body 8 32) (signedMessage b e idx) (imgBytes body 40 sigLen)

/-! Records (R158 to R170). -/

/-- Record length of the sections with records of one length. -/
def recLen : Nat → Nat
  | 1 => 8 | 2 => 8 | 3 => 32 | 6 => 16 | 7 => 16 | 8 => 48 | 9 => 64 | 0xB => 64 | 0xC => 8 | 0xD => 16 | _ => 64

/-- The records of a section as carried. -/
def rawRecs (b : List Nat) (t : Nat) : List Nat :=
  match (secTable b).find? (fun e => e.type == t) with
  | none => []
  | some e =>
    if t = 0xA then
      (List.range (min (imgGet b (e.off + 8) 2) ((e.size - 32) / 64))).map (fun i => imgGet b (e.off + 32 + 64 * i) 64)
    else (List.range (min e.count (e.size / recLen t))).map (fun i => imgGet b (e.off + recLen t * i) (recLen t))

/-- The blocks of SCHEDULE as carried: kind, index, entries. `n` bounds the blocks. -/
def rawBlocks : Nat → List Nat → List (Nat × Nat × List Nat)
  | 0, _ => []
  | n + 1, b =>
    if b.length < 8 then []
    else
      let c := min (imgGet b 4 4) ((b.length - 8) / 8)
      (imgGet b 0 1, imgGet b 1 1, (List.range c).map (fun i => imgGet b (8 + 8 * i) 8)) :: rawBlocks n (b.drop (8 + 8 * c))

/-- A PROGRAMS record as carried: cell, source, length, base, and its instruction bytes. -/
structure ProgRec where
  cell : Nat
  src  : Nat
  len  : Nat
  base : Nat
  body : List Nat
  deriving DecidableEq, Repr

def rawProgs : Nat → List Nat → List ProgRec
  | 0, _ => []
  | n + 1, b =>
    if b.length < 16 then []
    else
      let len := imgGet b 4 4
      ⟨imgGet b 0 1, imgGet b 1 1, len, imgGet b 8 4, imgBytes b 16 (8 * len)⟩ ::
        rawProgs n (b.drop (roundUp (16 + 8 * len) 64))

def secBody (b : List Nat) (t : Nat) : List Nat × Nat :=
  match (secTable b).find? (fun e => e.type == t) with
  | none => ([], 0)
  | some e => (imgBytes b e.off e.size, e.count)

/-! Clamping (R174). What a load replaced or dropped, in order: section type and record index. -/

/-- Records with the clamps they met. -/
abbrev Clamped := List Nat × List (Nat × Nat)

/-- Keeps or drops each record of a section by `f`, which answers the record in effect (none: dropped) and how many
clamps it met, given the records kept before it and all records before it. -/
def clampRecs (t : Nat) (f : List Nat → List Nat → Nat → Option Nat × Nat) (rs : List Nat) : Clamped :=
  rs.zipIdx.foldl (fun (acc : Clamped) (r, i) =>
    let (o, n) := f acc.1 (rs.take i) r
    ((match o with | some r' => acc.1 ++ [r'] | none => acc.1), acc.2 ++ List.replicate n (t, i))) ([], [])

/-- One more clamp of a record. -/
def fixOpt (bad : Bool) (off size v : Nat) (p : Nat × Nat) : Nat × Nat := fixRec bad off size v p

def clampHeader (h : Nat) : Nat × Nat :=
  let p := fixRec (recGet h 72 4 == 0) 72 4 1 (h, 0)
  let p := fixRec (recGet p.1 72 4 > 1048576) 72 4 1048576 p
  let p := fixRec (recGet h 76 2 > 4096) 76 2 4096 p
  fixRec (recGet h 78 2 > recGet h 80 2) 78 2 (recGet h 80 2) p

/-- CELL_CONFIG: `keepOk` says whether a cell has a program under the active image (R158). -/
def clampConfig (mask : Nat) (keepOk : Nat → Bool) (rs : List Nat) : Clamped :=
  let c := clampRecs 1 (fun kept _ r =>
    let cell := recGet r 0 1
    if cell ≥ 144 || !mask.testBit cell then (none, 0)
    else if kept.any (fun q => recGet q 0 1 == cell) then (none, 1)
    else if r.testBit 9 && !keepOk cell then (some (putBits r 9 1 0), 1)
    else (some r, 0)) rs
  let missing := (bitsSet 144 mask).filter (fun x => !c.1.any (fun q => recGet q 0 1 == x))
  (c.1 ++ missing, c.2 ++ missing.map (fun x => (1, (Config.missingRecord x).toNat)))

/-- A record is ignored where it names a cell that CELL_MASK leaves clear (R158). -/
def idleCell (mask c : Nat) : Bool := decide (c < 144) && !mask.testBit c

/-- A QUEUES record whose producer or consumer is an idle cell (R158, R160). -/
def idleQueue (mask r : Nat) : Bool :=
  (recGet r 4 1 == 0 && idleCell mask (recGet r 6 2)) || (recGet r 5 1 == 0 && idleCell mask (recGet r 8 2))

/-- QUEUES after R174; `qregion` gives the bytes of a cell's QUEUE region. -/
def clampQueues (mask : Nat) (qregion : Nat → Nat) (rs : List Nat) : Clamped :=
  let c := clampRecs 3 (fun _ before r =>
    let q := recGet r 0 2
    if idleQueue mask r then (none, 0)
    else if q > 8191 || (before.filter (fun x => !idleQueue mask x)).any (fun x => recGet x 0 2 == q) then (none, 1)
    else
      let p := fixRec (recGet r 2 2 == 0) 2 2 1 (r, 0)
      let p := fixRec (recGet p.1 2 2 > 256) 2 2 256 p
      let p := fixRec (recGet r 5 1 == 0 && recGet r 16 4 % 256 != 0) 16 4 (recGet r 16 4 / 256 * 256) p
      let p := fixRec (recGet r 10 2 == 0) 10 2 1 p
      let p := fixRec (recGet r 10 2 > 1024) 10 2 1024 p
      let p := fixRec (recGet r 12 1 > 1) 12 1 0 p
      let p := fixRec (recGet r 13 1 > 63) 13 1 63 p
      if recGet r 5 1 = 0 then
        let fit := (qregion (recGet r 8 2) - recGet p.1 16 4) / 256
        if fit = 0 then (none, p.2 + 1)
        else
          let p := fixRec (recGet p.1 2 2 > fit) 2 2 fit p
          (some p.1, p.2)
      else (some p.1, p.2)) rs
  let excess : Nat → Nat → Nat → Bool := fun kindOff idxOff r =>
    recGet r kindOff 1 == 0 &&
    (c.1.filter (fun x => recGet x kindOff 1 == 0 && recGet x idxOff 2 == recGet r idxOff 2 &&
      recGet x 0 2 < recGet r 0 2)).length ≥ 32
  let extra := c.1.filter (fun r => excess 4 6 r || excess 5 8 r)
  (c.1.filter (fun r => !extra.contains r), c.2 ++ extra.map (fun r => (3, (rs.findIdx (fun x => recGet x 0 2 == recGet r 0 2)))))

/-- ROUTES after R174, given the queues in effect (R159). -/
def clampRoutes (mask : Nat) (queues : List Nat) (rs : List Nat) : Clamped :=
  clampRecs 2 (fun _ before r =>
    let cell := recGet r 0 1
    if cell ≥ 144 || !mask.testBit cell then (none, 0)
    else
      let inb := r.testBit 13
      let ok := queues.any (fun q => recGet q 0 2 == bits r 16 13 &&
        (if inb then recGet q 5 1 == 0 && recGet q 8 2 == cell else recGet q 4 1 == 0 && recGet q 6 2 == cell))
      if !ok then (none, 1)
      else if before.any (fun x => recGet x 0 1 == cell && bits x 8 6 == bits r 8 6) then (none, 1)
      else (some r, 0)) rs

/-- A SCHEDULE entry after R174: none where it is dropped, and the clamps it met. -/
def clampEntry (stepBeats e : Nat) : Option Nat × Nat :=
  if bits e 0 20 ≥ stepBeats then (none, 1)
  else
    let (e, n) := if bits e 52 12 = 0 then (putBits e 52 12 1, 1) else (e, 0)
    let (e, n) := if 8 ≤ bits e 35 4 ∧ bits e 35 4 ≤ 14 then (putBits e 35 4 15, n + 1) else (e, n)
    (some e, n)

/-- SCHEDULE blocks joined per kind and index, ascending (R161, R190), with the clamps met. -/
def joinBlocks (bs : List (Nat × Nat × List Nat)) : List (Nat × Nat × List Nat) :=
  let keys := (bs.map (fun b => b.1 * 256 + b.2.1)).eraseDups
  let sorted := (List.range 2048).filter (fun k => keys.contains k)
  sorted.map (fun k => (k / 256, k % 256,
    ((bs.filter (fun b => b.1 * 256 + b.2.1 == k)).map (fun b => b.2.2)).flatten))

/-- SCHEDULE after R174; blocks of cells outside CELL_MASK are ignored (R158). -/
def clampSchedule (mask stepBeats : Nat) (bs : List (Nat × Nat × List Nat)) :
    List (Nat × Nat × List Nat) × List (Nat × Nat) :=
  let mine := bs.zipIdx.filter (fun p => p.1.1 != 0 || (p.1.2.1 < 144 && mask.testBit p.1.2.1))
  let r := mine.map (fun (b, i) =>
    let es := b.2.2.map (clampEntry stepBeats)
    ((b.1, b.2.1, es.filterMap Prod.fst), (es.map (fun e => List.replicate e.2 (4, i))).flatten))
  (joinBlocks (r.map Prod.fst), (r.map Prod.snd).flatten)

/-- PRESETS after R174. -/
def clampPresets (mask : Nat) (rs : List Nat) : Clamped :=
  clampRecs 6 (fun _ _ r =>
    let kind := recGet r 0 1
    if kind = 0 then
      if recGet r 2 1 > 3 || recGet r 1 1 ≥ 144 || !mask.testBit (recGet r 1 1) then (none, 1) else (some r, 0)
    else if kind = 1 && (findReg regTable (recGet r 4 4)).isSome then (some r, 0)
    else (none, 1)) rs

/-- QUOTAS after R174 and R81: the records with the sizes in effect. A region of an idle cell's Tarn is ignored (R158). -/
def clampQuotas (mask : Nat) (rs : List Nat) : Clamped :=
  let c := clampRecs 7 (fun kept _ r =>
    let k := recGet r 0 1
    if [0, 2, 9, 12].contains k && idleCell mask (recGet r 2 2) then (none, 0)
    else if k > 14 || recGet r 2 2 ≥ classInstances k ||
      kept.any (fun q => recGet q 0 1 == k && recGet q 2 2 == recGet r 2 2) then (none, 1) else (some r, 0)) rs
  let placed := regionsOf c.1
  let fixd := c.1.map (fun r => recPut r 8 4 (regionIn placed (recGet r 0 1) (recGet r 2 2)).2)
  (fixd, c.2 ++ ((c.1.zip fixd).filter (fun p => p.1 != p.2)).map (fun p =>
    (7, rs.findIdx (fun x => x == p.1))))

/-- STREAMS after R174; `work` gives the bytes of a cell's WORK_T region. -/
def clampStreams (work : Nat → Nat) (rs : List Nat) : Clamped :=
  clampRecs 8 (fun kept _ r =>
    if kept.any (fun q => recGet q 0 1 == recGet r 0 1) || recGet r 0 1 > 15 then (none, 1)
    else
      let p := fixRec (recGet r 1 1 < 2) 1 1 2 (r, 0)
      let p := fixRec (recGet r 1 1 > 8) 1 1 8 p
      let p := fixRec (! [2, 3, 4, 5].contains (recGet r 3 1)) 3 1 2 p
      let room := minOf 0 ((bitsSet 144 (recGet r 16 18)).map (fun c => work c - recGet r 12 4))
      let fit := if recGet r 8 4 = 0 then recGet p.1 1 1 else room / recGet r 8 4
      if fit < 2 then (none, p.2 + 1)
      else
        let p := fixRec (recGet p.1 1 1 > fit) 1 1 fit p
        (some p.1, p.2)) rs

/-- TABLES after R193; `inRegion base len` says that a run of every stack lies in its TABLE region. -/
def clampTables (opts : List Nat) (inRegion : Nat → Nat → Bool) (rs : List Nat) : Clamped :=
  clampRecs 9 (fun kept before r =>
    if tblId r > 4095 || before.any (fun q => tblId q == tblId r) then (none, 1)
    else
      let (t, n) := clampTable opts r
      if !inRegion (tblBase t) (regionLen t) ||
        kept.any (fun q => runsMeet (tblBase t, regionLen t) (tblBase q, regionLen q)) then (none, n + 1)
      else (some t, n)) rs

/-- SCALE_TABLES after R174. -/
def clampScales (mask : Nat) (rs : List Nat) : Clamped :=
  clampRecs 0xC (fun kept _ r =>
    if idleCell mask (recGet r 0 1) then (none, 0)
    else if recGet r 1 1 > 63 || kept.any (fun q => recGet q 0 2 == recGet r 0 2) then (none, 1)
    else
      let p := fixRec (recGet r 3 1 > 15) 3 1 15 (r, 0)
      let e := recGet r 4 1
      let p := fixRec (128 ≤ e && e < 192) 4 1 192 p
      let p := fixRec (64 ≤ e && e < 128) 4 1 63 p
      (some p.1, p.2)) rs

/-- The range of a policy (R170). -/
def policyRange : Nat → Nat × Nat
  | 1 => (1, 65535) | 2 => (0, 1) | 3 => (0, 1) | 4 => (1, 64) | _ => (0, 65535)

/-- The key of a POLICIES record (R170). -/
def policyKey (r : Nat) : Nat := recGet r 0 2 + (if recGet r 0 2 ≤ 3 then 65536 * recGet r 2 2 else 0)

def clampPolicies (rs : List Nat) : Clamped :=
  clampRecs 0xD (fun kept _ r =>
    let id := recGet r 0 2
    if id = 0 || id > 5 || (id ≤ 3 && recGet r 2 2 > 63) || kept.any (fun q => policyKey q == policyKey r) then (none, 1)
    else
      let (lo, hi) := policyRange id
      let p := fixRec (recGet r 8 8 < lo) 8 8 lo (r, 0)
      let p := fixRec (recGet r 8 8 > hi) 8 8 hi p
      (some p.1, p.2)) rs

/-- OPTIMISERS after R237; `n` records carried. -/
def clampOptims (rs : List Nat) : Clamped :=
  clampRecs 0xA (fun kept _ r =>
    if kept.length ≥ 256 then (none, 1)
    else
      let (o, n) := clampOptim r
      (some o, n)) rs

/-- A program as the second pass places it: its cell, base and length, the body to write (none where a cell keeps its
program), and how PROGRAMS gives it (`Image.progSrc`). -/
structure Placed where
  cell : Nat
  base : Nat
  len  : Nat
  body : List Nat
  src  : Nat
  deriving DecidableEq, Repr

/-- Programs in effect, with the clamps met (R158, R162, R174). `kept` are the programs that cells keep; `general` gives the
GENERAL_T bytes of a cell: start and length. -/
def clampProgs (mask : Nat) (kept : List Placed) (general : Nat → Nat × Nat) (rs : List ProgRec) :
    List Placed × List (Nat × Nat) :=
  let step := fun (acc : List Placed × List (Nat × Nat)) (p : ProgRec × Nat) =>
    let (r, i) := p
    let note : Nat → List (Nat × Nat) := fun n => List.replicate n (5, i)
    let earlier := (rs.take i).filter (fun q => q.cell < 144 && mask.testBit q.cell)
    if r.cell ≥ 144 || !mask.testBit r.cell then acc
    else if earlier.any (fun q => q.cell == r.cell) then (acc.1, acc.2 ++ note 1)
    else if kept.any (fun k => k.cell == r.cell) then (acc.1, acc.2 ++ note 1)
    else
      let src := earlier.find? (fun q => q.cell == r.src && q.src == 0xFF &&
        !(rs.take (rs.findIdx (· == q))).any (fun x => x.cell == q.cell))
      let (body, n0) := if r.src = 0xFF then (r.body, 0)
        else match src with
          | some q => (q.body, if r.len > 0 then 1 else 0)
          | none => ([], if r.len > 0 then 2 else 1)
      let len0 := body.length / 8
      let (len1, n1) := if len0 > 32768 then (32768, 1) else (len0, 0)
      let base := r.base / 64 * 64
      let n2 := if base ≠ r.base then 1 else 0
      let (g0, gn) := general r.cell
      let (len2, n3) := if base < g0 ∨ base ≥ g0 + gn then (0, if len1 > 0 then 1 else 0)
        else if base + 8 * len1 > g0 + gn then ((g0 + gn - base) / 8, 1) else (len1, 0)
      (acc.1 ++ [⟨r.cell, base, len2, body.take (8 * len2), if r.src = 0xFF then 0 else 1 + r.src⟩],
       acc.2 ++ note (n0 + n1 + n2 + n3))
  let r := rs.zipIdx.foldl step ([], [])
  (kept ++ r.1, r.2)

/-! Expansion (R174 to R176, R186). -/

/-- An image before clamping, as the sections carry it: what a patch is merged into. -/
structure RawImage where
  hdr    : Nat
  secs   : SMap (List Nat)
  blocks : List (Nat × Nat × List Nat)
  progs  : List ProgRec
  layers : SMap (List Nat)
  optHdr : Nat
  hasOpts : Bool
  deriving DecidableEq, Repr

/-- The layer entries that stand at each LAYER_TABLE (R165): as many as the longest record there names. -/
def rawLayers (b : List Nat) : SMap (List Nat) :=
  let body := (secBody b 8).1
  (rawRecs b 8).foldl (fun m r =>
    let at' := recGet r 36 4
    Sparse.set [] m at' ((List.range (max (Sparse.get [] m at').length (recGet r 4 2))).map (fun j =>
      imgGet body (at' + 16 * j) 16))) []

def rawImage (b : List Nat) : RawImage :=
  { hdr := imgGet b 0 128
    secs := [1, 2, 3, 6, 7, 8, 9, 0xA, 0xB, 0xC, 0xD].filterMap (fun t =>
      let r := rawRecs b t
      if r.isEmpty then none else some (t, r))
    blocks := rawBlocks (secBody b 4).2 (secBody b 4).1
    progs := rawProgs (secBody b 5).2 (secBody b 5).1
    layers := rawLayers b
    optHdr := ofLe ((secBody b 0xA).1.take 32)
    hasOpts := (secTable b).any (fun e => e.type == 0xA) }

/-- Records of `new` replace those of `old` with the same key and add the others (R186). -/
def mergeByKey (key : Nat → Nat) (old new : List Nat) : List Nat :=
  old.map (fun r => (new.find? (fun n => key n == key r)).getD r) ++
  new.filter (fun n => !old.any (fun r => key r == key n))

/-- The key of a PRESETS record (R186): kind, cell, file, reduced index and lane, or address. A record that R174 drops for
its KIND or FILE has a key of its own. -/
def presetKey (r : Nat) : Nat :=
  let f := recGet r 2 1
  let size := if f = 0 then 64 else if f = 1 then 32 else 16
  if recGet r 0 1 = 0 ∧ f ≤ 3 then
    recGet r 1 1 + 2 ^ 8 * f + 2 ^ 16 * (recGet r 3 1 % size) + (if f = 0 then 2 ^ 24 * bits (recGet r 4 4) 0 6 else 0)
  else if recGet r 0 1 = 1 then 2 ^ 40 + recGet r 4 4
  else 2 ^ 80 + r

/-- PRESETS of a patch: of its records with one key the last one takes effect, as presets apply in order (R163, R186). -/
def lastOfKey (rs : List Nat) : List Nat :=
  rs.zipIdx.filterMap (fun (r, i) =>
    if (rs.drop (i + 1)).any (fun x => presetKey x == presetKey r) then none else some r)

/-- The active image as sections carry it, for a patch to be merged onto. -/
def unclamped (i : Image) : RawImage :=
  { hdr := i.hdr, secs := i.secs, blocks := i.sched, layers := i.layers, optHdr := i.optHdr, hasOpts := i.hasOpts
    progs := [] }

/-- A patch merged onto the active image (R186). -/
def mergePatch (a : Image) (p : RawImage) : RawImage :=
  let base := unclamped a
  let sec : Nat → (Nat → Nat) → SMap (List Nat) → SMap (List Nat) := fun t key m =>
    Sparse.set [] m t (mergeByKey key (Sparse.get [] base.secs t) (Sparse.get [] p.secs t))
  let keys := p.blocks.map (fun b => (b.1, b.2.1))
  let opts := (Sparse.get [] base.secs 0xA).zipIdx.map (fun (r, i) => ((Sparse.get [] p.secs 0xA)[i]?).getD r)
  let more := (Sparse.get [] p.secs 0xA).drop (Sparse.get [] base.secs 0xA).length
  { hdr := recPut (recPut (recPut base.hdr 24 4 (recGet p.hdr 24 4)) 10 2 (recGet p.hdr 10 2)) 56 16 (recGet p.hdr 56 16)
    secs := Sparse.set [] (sec 0xB (fun r => recGet r 0 1) (sec 0xC (fun r => recGet r 0 2)
      (sec 0xD policyKey (Sparse.set [] base.secs 0xA (opts ++ more))))) 6
        (mergeByKey presetKey (Sparse.get [] base.secs 6) (lastOfKey (Sparse.get [] p.secs 6)))
    blocks := base.blocks.filter (fun b => !keys.contains (b.1, b.2.1)) ++ p.blocks
    progs := p.progs
    layers := base.layers
    optHdr := if p.hasOpts then p.optHdr else base.optHdr
    hasOpts := base.hasOpts || p.hasOpts }

/-- Bytes that a cell's plane needs, and the module plane (R175). -/
def cellPlane (r : RawImage) (c : Nat) : Nat :=
  let sec : Nat → List Nat := fun t => Sparse.get [] r.secs t
  8 * ((sec 1).filter (fun x => recGet x 0 1 == c)).length + 8 * ((sec 2).filter (fun x => recGet x 0 1 == c)).length +
  ((r.blocks.filter (fun b => b.1 == 0 && b.2.1 == c)).map (fun b => 8 + 8 * b.2.2.length)).foldl (· + ·) 0 +
  16 * ((sec 6).filter (fun x => recGet x 0 1 == 0 && recGet x 1 1 == c)).length +
  8 * ((sec 0xC).filter (fun x => recGet x 0 1 == c || recGet x 0 1 == 0xFF)).length
/-- OPTIMISERS takes its 32 B header where the image carries the section; STREAMS 16 B per layer of every record. -/
def modulePlane (r : RawImage) : Nat :=
  let sec : Nat → List Nat := fun t => Sparse.get [] r.secs t
  128 + 32 * (sec 3).length + ((r.blocks.filter (fun b => b.1 != 0)).map (fun b => 8 + 8 * b.2.2.length)).foldl (· + ·) 0 +
  16 * ((sec 6).filter (fun x => recGet x 0 1 == 1)).length + 16 * (sec 7).length + 48 * (sec 8).length +
  16 * ((sec 8).map (fun x => recGet x 4 2)).foldl (· + ·) 0 + 64 * (sec 9).length +
  (if r.hasOpts then 32 else 0) + 64 * (sec 0xA).length +
  64 * (sec 0xB).length + 16 * (sec 0xD).length

def planesOver (r : RawImage) (cell module : Nat) : Bool :=
  (List.range 144).any (fun c => cellPlane r c > cell) || modulePlane r > module

/-- The second pass: the image in effect, the program bodies to place (cell, offset, bytes) and the clamps, in section
order. The header's clamped fields lie in the second of its two records (R190). `a` is the active image, if there is one; `keepAll` says that cells without a patch program keep theirs (R186). -/
def expandImage (a : Option Image) (r : RawImage) (keepAll : Bool) (meas : Nat) :
    Image × List (Nat × Nat × List Nat) × List (Nat × Nat) :=
  let sec : Nat → List Nat := fun t => Sparse.get [] r.secs t
  let (hdr, hn) := clampHeader r.hdr
  let mask := recGet hdr 84 18
  let activeProg : Nat → Option (Nat × Nat) := fun c =>
    match a with
    | none => none
    | some i => if i.usesCell c then
        (i.progs.find? (fun p => p.1 == c && p.2.2 > 0)).map (fun p => (p.2.1, p.2.2)) else none
  let cfg := clampConfig mask (fun c => (activeProg c).isSome) (sec 1)
  let quotas := clampQuotas mask (sec 7)
  let regs := regionsOf quotas.1
  let general : Nat → Nat × Nat := fun c =>
    let g := regionIn regs 12 c
    (g.1 * 4096, g.2 * 4096)
  let queues := clampQueues mask (fun c => (regionIn regs 9 c).2 * 4096) (sec 3)
  let routes := clampRoutes mask queues.1 (sec 2)
  let sched := clampSchedule mask (recGet hdr 72 4) r.blocks
  let flag : Nat → Bool := fun c => cfg.1.any (fun x => recGet x 0 1 == c && x.testBit 9)
  let old : List (Nat × Nat × Nat) := ((a.map (·.progs)).getD []).filter (fun p => mask.testBit p.1)
  let oldSrc : Nat → Nat := fun c => Sparse.get 0 ((a.map (·.progSrc)).getD []) c
  let kept : List Placed :=
    if keepAll then (old.filter (fun p => !r.progs.any (fun q => q.cell == p.1))).map (fun p => ⟨p.1, p.2.1, p.2.2, [], oldSrc p.1⟩)
    else (old.filter (fun p => flag p.1 && (activeProg p.1).isSome)).map (fun p => ⟨p.1, p.2.1, p.2.2, [], 0x200⟩)
  let progs := clampProgs mask kept general r.progs
  let presets := clampPresets mask (sec 6)
  let streams := clampStreams (fun c => (regionIn regs 2 c).2 * 4096) (sec 8)
  let opts := clampOptims (sec 0xA)
  let inTables : Nat → Nat → Bool := fun base len => (List.range 16).all (fun st =>
    let g := regionIn regs 13 st
    (hbmRuns (g.1 * 65536) (g.2 * 65536)).any (fun q =>
      q.1 ≤ st * 0x1000000000 + base && st * 0x1000000000 + base + len ≤ q.1 + q.2))
  let tables := clampTables opts.1 inTables (sec 9)
  let scales := clampScales mask (sec 0xC)
  let pols := clampPolicies (sec 0xD)
  let img : Image :=
    { hdr, sched := sched.1, layers := r.layers, meas
      optHdr := if r.hasOpts then recPut r.optHdr 8 2 opts.1.length else 0, hasOpts := r.hasOpts
      progs := progs.1.map (fun p => (p.cell, p.base, p.len))
      progSrc := progs.1.foldl (fun m p => Sparse.set 0 m p.cell p.src) []
      wide := planesOver r 65536 0x400000
      secs := [(1, cfg.1), (2, routes.1), (3, queues.1), (6, presets.1), (7, quotas.1), (8, streams.1), (9, tables.1),
        (0xA, opts.1), (0xB, sec 0xB), (0xC, scales.1), (0xD, pols.1)].filter (fun p => !p.2.isEmpty) }
  (img, (progs.1.filter (fun p => !p.body.isEmpty)).map (fun p => (p.cell, p.base, p.body)),
   List.replicate hn (0, 1) ++ cfg.2 ++ routes.2 ++ queues.2 ++ sched.2 ++ progs.2 ++ presets.2 ++ quotas.2 ++ streams.2 ++
   tables.2 ++ opts.2 ++ scales.2 ++ pols.2)

/-! Flip blocks (R179, R194). -/

def Image.regions (i : Image) : List Region := regionsOf (i.sec 7)

/-- Whether a descriptor may replace an active one at a live flip (R194). -/
def tableFlipOk (aOpts nOpts : List Nat) (a n : Nat) : Bool :=
  let strip : Nat → Nat := fun t => recPut (recPut (recPut t 5 3 0) 36 4 0) 34 2 0 % 2 ^ 320
  strip a == strip n && kindMoments (optKind (optOf aOpts a)) == kindMoments (optKind (optOf nOpts n)) &&
  (optKind (optOf aOpts a) == 4) == (optKind (optOf nOpts n) == 4)

/-- FLIP_BLOCK of a shadow image against the active one (R179); `here` gives base and size of the regions active now, which
a commit may have resized since the active image placed them (R83). -/
def flipBlock (here : Nat → Nat → Nat × Nat) (a n : Image) : Nat :=
  let rn := n.regions
  let active : Nat → Option (Nat × Nat × Nat) := fun c => a.progs.find? (fun p => p.1 == c)
  let progBad := n.progs.any (fun p =>
    let (c, base, len) := p
    let kept := active c == some p
    let own := (active c).map (fun q => (q.2.1, 8 * q.2.2))
    let g := regionIn rn 12 c
    let body := (base, 8 * len)
    (kept && len > 0 && !(g.1 * 4096 ≤ base && base + 8 * len ≤ (g.1 + g.2) * 4096)) ||
    (!kept && len > 0 && [9, 2, 0, 12].any (fun k =>
      let r := here k c
      let lo := max base (r.1 * 4096)
      let hi := min (base + 8 * len) ((r.1 + r.2) * 4096)
      lo < hi && !(match own with | some o => o.1 ≤ lo && hi ≤ o.1 + o.2 | none => false) && runsMeet body (lo, hi - lo))))
  let regBad := [13, 14, 7, 8, 11].any (fun k => (List.range (classInstances k)).any (fun i =>
    let x := here k i
    let y := regionIn rn k i
    x.2 > 0 && !(y.1 ≤ x.1 && x.1 + x.2 ≤ y.1 + y.2)))
  let jobBad := recGet a.hdr 78 6 != recGet n.hdr 78 6
  let genBad := recGet a.hdr 24 4 % 16 == recGet n.hdr 24 4 % 16
  let tblBad := (a.sec 9).any (fun t => match (n.sec 9).find? (fun u => tblId u == tblId t) with
    | some u => !tableFlipOk (a.sec 0xA) (n.sec 0xA) t u
    | none => true)
  b2n n.wide + 2 * b2n progBad + 4 * b2n regBad + 8 * b2n jobBad + 16 * b2n genBad + 32 * b2n tblBad

end Sys2Proof.Machine
end

