-- ==== Sys2Proof/Machine/Kv.lean ====
section
/-!
DEFINITION. The history units: the paged key and value store of each die (R302 to R325).
-/
namespace Sys2Proof.Machine

/-! The store's shape (R303, R305). -/

/-- A format's element width in bytes. -/
def fmtBytes (f : Nat) : Nat := fmtWidth f / 8

def State.kvW (s : State) (die : Nat) : Nat := 64 * s.get .SEQ_CFG_WIDTH die
def State.kvKeyB (s : State) (die : Nat) : Nat := fmtBytes (s.get .SEQ_CFG_KEY_FMT die)
def State.kvValB (s : State) (die : Nat) : Nat := fmtBytes (s.get .SEQ_CFG_VAL_FMT die)

/-- PB. -/
def State.kvPB (s : State) (die : Nat) : Nat := roundUp (64 * s.kvW die * (s.kvKeyB die + s.kvValB die)) 4096

/-- DPA and bytes of KV_T, and of KV_H. -/
def State.kvT (s : State) (die : Nat) : Nat × Nat :=
  let (b, n) := s.region 5 die; (sharedTarn die (b * 4096), n * 4096)
def State.kvH (s : State) : Nat × Nat := let (b, n) := s.region 6 0; (b * 65536, n * 65536)

/-- Frames of a tier: 0 KV_T, 1 KV_H. -/
def State.kvFrames (s : State) (die tier : Nat) : Nat :=
  if tier = 0 then ((s.kvT die).2 - 0x140000) / s.kvPB die else s.kvH.2 / s.kvPB die

def State.kvFrameAt (s : State) (die tier f : Nat) : Nat :=
  if tier = 0 then (s.kvT die).1 + 0x140000 + f * s.kvPB die else s.kvH.1 + f * s.kvPB die

def State.kvEntryAt (s : State) (h layer i : Nat) : Nat :=
  (s.kvT (h / 128)).1 + (h % 128 * 8 + layer) * 256 + 2 * i
def State.kvDescAt (s : State) (die p : Nat) : Nat := (s.kvT die).1 + 0x40000 + 16 * p

/-- Which formats MUL_FMT contains (R311). -/
def mulContains (mul key : Nat) : Bool :=
  if mul = 2 then key == 2 || key == 4 || key == 5
  else if mul = 3 then key == 3 || key == 4 || key == 5
  else key == 4 || key == 5

/-- The store serves requests (R305). -/
def State.kvEnabled (s : State) (die : Nat) : Bool := s.get .SEQ_STATUS_ENABLED die == 1

/-- SEQ_STATUS.ENABLED and SEQ_FRAMES follow the configuration and the regions. -/
def noteStore (die : Nat) : Plan := fun s =>
  [setF .SEQ_STATUS_ENABLED (b2n (s.get .SEQ_CFG_ENABLE die == 1 && s.kvFrames die 0 ≥ 1 &&
      mulContains (s.get .SEQ_CFG_MUL_FMT die) (s.get .SEQ_CFG_KEY_FMT die))) die,
   setF .SEQ_FRAMES_T_FRAMES (s.kvFrames die 0) die, setF .SEQ_FRAMES_H_FRAMES (s.kvFrames die 1) die]

/-- The KEXP range of R311: for BF16, FP16 and the FP8 path. KEXP of BF16 and FP16 keys is not used and has none (R326). -/
def clampKexp (mul key : Nat) (x : Int) : Int :=
  let (lo, hi) : Int × Int :=
    if mul = 2 then (-64, 63) else if mul = 3 then (if key = 5 then (0, 8) else (-7, 15)) else (0, 0)
  if key = 4 ∨ key = 5 then max lo (min hi x) else x

/-- A SEQ_KEXP register with each of its bytes clamped under a die's formats (R311). -/
def State.clampKexps (s : State) (die v : Nat) : Nat :=
  ofLe ((List.range 8).map (fun j =>
    wrapInt 8 (clampKexp (s.get .SEQ_CFG_MUL_FMT die) (s.get .SEQ_CFG_KEY_FMT die) (sext 8 (bits v (8 * j) 8)))))

/-- The exponents of a die follow a change of its formats. -/
def reclampKexps (die : Nat) : Plan := fun s =>
  ((s.listed .SEQ_KEXP_KEXP).filter (fun i => i / 1024 == die)).map (fun i =>
    setF .SEQ_KEXP_KEXP (s.clampKexps die (s.get .SEQ_KEXP_KEXP i)) i)

/-- KEXP of a layer and channel in effect. -/
def State.kexp (s : State) (die layer c : Nat) : Int :=
  sext 8 (bits (s.get .SEQ_KEXP_KEXP (die * 1024 + layer * 128 + c / 8)) (8 * (c % 8)) 8)

/-! Lengths, entries and descriptors. -/

def State.kvLen (s : State) (h layer : Nat) : Nat := Sparse.get 0 s.kv.lens (h * 8 + layer)
def setLen (h layer n : Nat) : Upd := .kv (fun k => { k with lens := Sparse.set 0 k.lens (h * 8 + layer) n })

/-- The pending entry of a history and layer (R315). -/
def State.kvPend (s : State) (h layer : Nat) : Option KvPend := s.kv.pend.find? (fun p => p.hist == h && p.layer == layer)

/-- The page of an entry, as other histories and read-back see it. -/
def State.kvEntry (s : State) (h layer i : Nat) : Nat := s.leAt (s.kvEntryAt h layer i) 2

/-- The page of an entry, as the history's own requests see it. -/
def State.kvOwn (s : State) (h layer i : Nat) : Nat :=
  match s.kvPend h layer with
  | some p => if p.idx = i then p.page else s.kvEntry h layer i
  | none => s.kvEntry h layer i

def setEntry (h layer i p : Nat) : Plan := fun s => writeMem (s.kvEntryAt h layer i) (leBytes 2 p) s

def State.kvRef (s : State) (die p : Nat) : Nat := s.leAt (s.kvDescAt die p) 2
def State.kvState (s : State) (die p : Nat) : Nat := s.leAt (s.kvDescAt die p + 2) 1
def State.kvFill (s : State) (die p : Nat) : Nat := s.leAt (s.kvDescAt die p + 3) 1
def State.kvFrame (s : State) (die p : Nat) : Nat := bits (s.leAt (s.kvDescAt die p + 4) 4) 0 24
def State.kvTier (s : State) (die p : Nat) : Nat := bits (s.leAt (s.kvDescAt die p + 4) 4) 31 1
def State.kvUse (s : State) (die p : Nat) : Nat := s.leAt (s.kvDescAt die p + 8) 4
def State.kvDpa (s : State) (die p : Nat) : Nat := s.kvFrameAt die (s.kvTier die p) (s.kvFrame die p)

def setRef (die p n : Nat) : Plan := fun s => writeMem (s.kvDescAt die p) (leBytes 2 n) s
def setPlace (die p tier f : Nat) : Plan := fun s => writeMem (s.kvDescAt die p + 4) (leBytes 4 (f + tier * 2 ^ 31)) s
def touch (die p : Nat) : Plan := fun s => writeMem (s.kvDescAt die p + 8) (leBytes 4 (s.get .BEAT_COUNT_COUNT)) s

/-! The pools (R305, R312, R316). -/

/-- Bytes of a frame: where and how many. -/
def State.frameSpan (s : State) (die tier f : Nat) : Nat × Nat := (s.kvFrameAt die tier f, s.kvPB die)

/-- Frames that are out of the pool: in use, and vacated less than two beats ago. -/
def State.takenFrames (s : State) : List (Nat × Nat × Nat) :=
  s.kv.frames ++ (s.kv.vac.filter (fun v => s.get .BEAT_COUNT_COUNT < v.beat + 2)).map (fun v => (v.die, v.tier, v.frame))

/-- The lowest free frame of a tier. KV_H serves both dies: a frame there is free if it overlaps none in use
(notes/assumptions/50.md). -/
def State.freeFrame (s : State) (die tier : Nat) : Option Nat :=
  let busy := (s.takenFrames.filter (fun t => t.2.1 == tier && (tier == 1 || t.1 == die))).map (fun t =>
    s.frameSpan t.1 t.2.1 t.2.2)
  (List.range (s.kvFrames die tier)).find? (fun f =>
    let a := s.kvFrameAt die tier f
    busy.all (fun b => b.1 + b.2 ≤ a || a + s.kvPB die ≤ b.1))

/-- The lowest free page number. -/
def State.freePage (s : State) (die : Nat) : Option Nat :=
  let used := s.kv.used.filter (fun u => u.1 == die)
  (List.range (used.length + 1)).find? (fun p => p < 65535 && used.all (fun u => u.2.1 != p))

/-- A page and a frame for it: KV_T where it has a free one, else KV_H. -/
def State.newPage (s : State) (die : Nat) : Option (Nat × Nat × Nat) :=
  match s.freePage die with
  | none => none
  | some p => match s.freeFrame die 0 with
    | some f => some (p, 0, f)
    | none => (s.freeFrame die 1).map (fun f => (p, 1, f))

/-- A page is allocated with REFCOUNT 1 and a FILL (R312). -/
def takePage (die layer p tier f fill : Nat) : Plan := plans [
  fun s => writeMem (s.kvDescAt die p) (leBytes 2 1 ++ [1, fill] ++ leBytes 4 (f + tier * 2 ^ 31) ++
    leBytes 4 (s.get .BEAT_COUNT_COUNT) ++ leBytes 4 0) s,
  fun s => [.kv (fun k => { k with
    used := k.used ++ [(die, p, layer)], frames := k.frames ++ [(die, tier, f)]
    vac := k.vac.filter (fun v => s.get .BEAT_COUNT_COUNT < v.beat + 2) })]]

/-- A move of a page, if one is in progress, is given up, counted, and its target frame freed (R318). -/
def cancelMove (die p : Nat) : Plan := fun s =>
  match s.kv.moves.find? (fun m => m.die == die && m.page == p) with
  | some m => [s.addF .SEQ_MOVES_CANCELLED 1 die, .kv (fun k => { k with
      moves := k.moves.filter (fun x => !(x.die == die && x.page == p))
      frames := k.frames.erase (m.die, m.tier, m.frame) })]
  | none => []

/-- A page loses a reference; at none it waits for its quarantine (R316). -/
def dropRef (die p : Nat) : Plan := fun s =>
  let n := s.kvRef die p - 1
  plans [setRef die p n, if n = 0 then plans [cancelMove die p,
    fun _ => [.kv (fun k => { k with zeros := k.zeros ++ [⟨die, p, s.get .BEAT_COUNT_COUNT⟩] })]] else fun _ => []] s

/-- Pages of a history's layer. -/
def kvPages (n : Nat) : Nat := (n + 63) / 64

/-! Requests (R306 to R309). -/

def reqOp (t : Nat) : Nat := recGet t 0 1
def reqHist (t : Nat) : Nat := recGet t 1 1
def reqFlags (t : Nat) : Nat := recGet t 3 1
def reqReply (t : Nat) : Nat := bits (recGet t 4 2) 0 13
def reqFirst (t : Nat) : Nat := recGet t 6 2
def reqCount (t : Nat) : Nat := recGet t 8 2
def reqSrc (t : Nat) : Nat := recGet t 14 1
def reqTag (t : Nat) : Nat := recGet t 16 4

/-- A reply queue that the die's unit produces. -/
def State.replyOk (s : State) (die q : Nat) : Bool :=
  match s.img.queueRec q with
  | some r => recGet r 4 1 == 1 && recGet r 6 2 == die
  | none => false

/-- LAYER after R307. -/
def State.reqLayer (s : State) (die t : Nat) : Nat := min (recGet t 2 1) (s.get .SEQ_CFG_LAYERS_M1 die)

/-- C0 and CW after R307. -/
def State.reqChans (s : State) (die t : Nat) : Nat × Nat :=
  let w := s.kvW die
  let c0 := min (recGet t 10 2 / 32 * 32) (w - 32)
  (c0, max 32 (min (recGet t 12 2 / 32 * 32) (w - c0)))

/-- Whether a request is BAD_REQUEST (R307). -/
def State.reqBad (s : State) (die t : Nat) : Bool :=
  let op := reqOp t
  op == 0 || op > 5 || reqHist t / 128 != die || (op == 3 && reqSrc t / 128 != die) || !s.replyOk die (reqReply t)

/-- The status token (R309). -/
def State.statusToken (s : State) (die t status : Nat) : Nat :=
  status + s.kvLen (reqHist t) (s.reqLayer die t) * 2 ^ 16 + reqTag t * 2 ^ 32

/-- A status counts where its row of R309 says; LIMIT and UE count their events and lines elsewhere. -/
def countReq (die status : Nat) : Plan := fun s =>
  match status with
  | 2 => [s.addF .SEQ_FAULTS_NO_PAGE 1 die]
  | 3 => [s.addF .SEQ_FAULTS_BAD_REQUEST 1 die]
  | 4 => [s.addF .SEQ_FAULTS_DISABLED 1 die]
  | _ => []

/-- A request of queue `q` is answered: with a status token, unless NOREPLY says otherwise or no queue takes it. -/
def answerReq (q die t status : Nat) : Plan := fun s =>
  let mute := reqOp t ≠ 2 ∧ (reqFlags t).testBit 1
  countReq die status s ++
  (if mute ∨ !s.replyOk die (reqReply t) then [] else answerSend q (reqReply t) [s.statusToken die t status] s)

/-- The next request of a queue, if no APPEND is under way on it. -/
def State.nextReq (s : State) (q : Nat) : Option (Nat × Nat) :=
  if s.kv.apps.any (fun a => a.1 == q) then none
  else match s.kvDie q, (s.queue q).buf with
    | some d, t :: _ => some (d, t.toNat)
    | _, _ => none

/-- Table lines that cannot be read make a request answer UE and leave the store unchanged (R325). -/
def badLines (s : State) (as : List Nat) : List Nat :=
  ((as.map (fun a => canonDpa a / 64 * 64)).eraseDups).filter s.lineBad

/-- Lines counted and reported as read with an error (R325, R418). -/
def noteBad (die : Nat) (ls : List Nat) : Plan :=
  planEach ls (fun l => plans [count .SEQ_FAULTS_UE 1 die, noteRead 6 l])

/-- Addresses of the entries `i` below `n` of a history and layer, and of the descriptors that they name. -/
def State.tableAddrs (s : State) (h layer n : Nat) : List Nat :=
  ((List.range n).map (fun i => [s.kvEntryAt h layer i, s.kvDescAt (h / 128) (s.kvOwn h layer i)])).flatten

/-- A request of one operation at the front of a queue is taken and acts, and the slice that asked is relieved of it. -/
def reqRow (q op : Nat) (f : Nat → Nat → Plan) : Plan := fun s =>
  match s.nextReq q with
  | some (die, t) =>
    if reqOp t ≠ op ∨ s.reqBad die t then []
    else plans [takeToken q, if s.kvEnabled die then f die t else answerReq q die t 4, relieveAsker q 1] s
  | none => []

/-! READ (R311, R319, R320, R325). -/

/-- The delivered element format of keys and values. -/
def State.outFmt (s : State) (die part : Nat) : Nat :=
  if part = 1 then s.get .SEQ_CFG_VAL_FMT die
  else if s.get .SEQ_CFG_MUL_FMT die = 4 then s.get .SEQ_CFG_KEY_FMT die else s.get .SEQ_CFG_MUL_FMT die

/-- The canonical NaN of a format code. -/
def nanOf (f : Nat) : Nat := match ffmt f with | some x => x.nanBits | none => 0

/-- A stored key as it is delivered (R311). -/
def State.expandKey (s : State) (die layer c b : Nat) : Nat :=
  let key := s.get .SEQ_CFG_KEY_FMT die
  let out := s.outFmt die 0
  if out = key then b
  else (encodeElem out ((decodeElem key b).scale (s.kexp die layer c))).1

/-- Byte of event `e`, channel `c` of a page's frame. -/
def State.kvOff (s : State) (die part e c : Nat) : Nat :=
  if part = 0 then (e * s.kvW die + c) * s.kvKeyB die
  else 64 * s.kvW die * s.kvKeyB die + (e * s.kvW die + c) * s.kvValB die

/-- One delivered element of a READ, as a number. -/
def State.readElem (s : State) (die h layer part e c : Nat) : Nat :=
  if e ≥ s.kvLen h layer then 0
  else
    let p := s.kvOwn h layer (e / 64)
    let a := s.kvDpa die p + s.kvOff die part (e % 64) c
    if s.lineBad a then nanOf (s.outFmt die part)
    else if part = 0 then s.expandKey die layer c (s.leAt a (s.kvKeyB die)) else s.leAt a (s.kvValB die)

/-- Elements of one width packed into tokens. -/
def elemTokens (w : Nat) (xs : List Nat) : List Nat :=
  let n := pack w xs
  (List.range ((xs.length * w + 2047) / 2048)).map (fun i => bits n (2048 * i) 2048)

/-- How many elements a READ delivers, and their width. -/
def State.readShape (s : State) (die t : Nat) : Nat × Nat :=
  let n := min (reqFirst t + reqCount t) 8192 - reqFirst t
  (n * (s.reqChans die t).2, fmtWidth (s.outFmt die (reqFlags t % 2)))

/-- A READ's data tokens with +0 in every element. -/
def State.zeroRead (s : State) (die t : Nat) : List Nat :=
  let (n, w) := s.readShape die t
  List.replicate ((n * w + 2047) / 2048) 0

/-- READ. -/
def kvRead (q die t : Nat) : Plan := fun s =>
  let h := reqHist t
  let layer := s.reqLayer die t
  let part := reqFlags t % 2
  let (c0, cw) := s.reqChans die t
  let n := min (reqFirst t + reqCount t) 8192 - reqFirst t
  let (total, w) := s.readShape die t
  let live := min (reqFirst t + n) (s.kvLen h layer)
  let pages := if live ≤ reqFirst t then [] else
    (List.range ((live - 1) / 64 - reqFirst t / 64 + 1)).map (fun i => reqFirst t / 64 + i)
  let bad := badLines s ((pages.map (fun i => [s.kvEntryAt h layer i, s.kvDescAt die (s.kvOwn h layer i)])).flatten)
  if !bad.isEmpty then
    plans [noteBad die bad, answerSend q (reqReply t) (elemTokens w (List.replicate total (nanOf (s.outFmt die part)))),
      answerReq q die t 5] s
  else
    let at' := (List.range (live - reqFirst t)).map (fun i =>
      s.kvDpa die (s.kvOwn h layer ((reqFirst t + i) / 64)) + s.kvOff die part ((reqFirst t + i) % 64) c0)
    let b := if part = 0 then s.kvKeyB die else s.kvValB die
    let lines := ((at'.map (fun a => linesOf a (cw * b))).flatten).eraseDups
    let xs := ((List.range n).map (fun i => (List.range cw).map (fun c =>
      s.readElem die h layer part (reqFirst t + i) (c0 + c)))).flatten
    plans [planEach (lines.filter (fun l => s.lineOutcome l == 1)) (noteRead 6), noteBad die (lines.filter s.lineBad),
      planEach pages (fun i => touch die (s.kvOwn h layer i)),
      answerSend q (reqReply t) (elemTokens w xs), answerReq q die t (if lines.any s.lineBad then 5 else 0)] s

/-! APPEND (R310, R312, R315). -/

/-- An input key or value as stored, and whether a finite input became NaN or infinity. -/
def storeElem (fmt : Nat) (v : FV) : Nat × Bool :=
  let b := (encodeElem fmt v).1
  (b, v.isFin && !(decodeElem fmt b).isFin)

/-- Lines that hold the first `n` events of a page. -/
def State.eventLines (s : State) (die a n : Nat) : List Nat :=
  linesOf a (n * s.kvW die * s.kvKeyB die) ++ linesOf (a + 64 * s.kvW die * s.kvKeyB die) (n * s.kvW die * s.kvValB die)

/-- The first `n` events of a page go to another; a line that cannot be read goes as NaN (R325). -/
def copyEvents (die from' dst n : Nat) : Plan := fun s =>
  let kb := s.kvKeyB die
  let vb := s.kvValB die
  let w := s.kvW die
  let move : Nat → Nat → Nat → Plan := fun off len fmt =>
    writeMem (dst + off) ((List.range (len / fmtBytes fmt)).map (fun i =>
      let a := from' + off + i * fmtBytes fmt
      leBytes (fmtBytes fmt) (if s.lineBad a then nanOf fmt else s.leAt a (fmtBytes fmt)))).flatten
  let lines := s.eventLines die from' n
  plans [planEach (lines.filter (fun l => s.lineOutcome l == 1)) (noteRead 6), noteBad die (lines.filter s.lineBad),
    move 0 (n * w * kb) (s.get .SEQ_CFG_KEY_FMT die),
    move (64 * w * kb) (n * w * vb) (s.get .SEQ_CFG_VAL_FMT die)] s

/-- The page into which the next event of a history and layer goes: the history's own, a copy of a shared one, or a new
one; none where no page or frame is free. -/
def openPage (die h layer : Nat) : State → Option (Nat × Plan) := fun s =>
  let n := s.kvLen h layer
  let i := n / 64
  if n % 64 = 0 then
    (s.newPage die).map (fun x => (x.1, plans [takePage die layer x.1 x.2.1 x.2.2 0, setEntry h layer i x.1]))
  else
    let p := s.kvOwn h layer i
    if s.kvRef die p ≤ 1 then
      some (p, cancelMove die p)
    else (s.newPage die).map (fun x => (x.1, plans [takePage die layer x.1 x.2.1 x.2.2 (n % 64),
      fun s' => copyEvents die (s'.kvDpa die p) (s'.kvDpa die x.1) (n % 64) s',
      fun s' => [s'.addF .SEQ_MOVES_COW 1 die,
        .kv (fun k => { k with pend := k.pend ++ [⟨h, layer, i, x.1, s'.get .BEAT_COUNT_COUNT⟩] })]]))

/-- One event is written at the end of a history: its keys and its values in IN_FMT. -/
def writeEvent (die h layer p : Nat) (xs : List Nat) : Plan := fun s =>
  let n := s.kvLen h layer
  let w := s.kvW die
  let inF := s.get .SEQ_CFG_IN_FMT die
  let kf := s.get .SEQ_CFG_KEY_FMT die
  let ks := (xs.take w).zipIdx.map (fun x =>
    let v := decodeElem inF x.1
    storeElem kf (if kf = 4 ∨ kf = 5 then v.scale (-(s.kexp die layer x.2)) else v))
  let vs := ((xs.drop w).take w).map (fun x => storeElem (s.get .SEQ_CFG_VAL_FMT die) (decodeElem inF x))
  let amax := (xs.take w).foldl (fun m x =>
    let a := fabs (if inF = 2 then cvtTo32 2 x else x)
    if fFinite a ∧ a > m then a else m) (s.get .SEQ_KAMAX_AMAX (die * 8 + layer))
  let a := s.kvDpa die p
  plans [writeMem (a + s.kvOff die 0 (n % 64) 0) ((ks.map (fun k => leBytes (s.kvKeyB die) k.1)).flatten),
    writeMem (a + s.kvOff die 1 (n % 64) 0) ((vs.map (fun k => leBytes (s.kvValB die) k.1)).flatten),
    fun s' => writeMem (s'.kvDescAt die p + 3) [max (s'.kvFill die p) (n % 64 + 1)] s', touch die p,
    fun s' => [setLen h layer (n + 1), s'.addF .SEQ_EVENTS_APPENDED 1 die, setF .SEQ_KAMAX_AMAX amax (die * 8 + layer),
      s'.addF .SEQ_EVENTS_OVF ((ks ++ vs).filter (fun k => k.2)).length die]] s

/-- Bytes of one event's data. -/
def State.eventBytes (s : State) (die : Nat) : Nat := 2 * s.kvW die * fmtBytes (s.get .SEQ_CFG_IN_FMT die)

/-- The APPEND under way on a queue changes. -/
def putApp (q : Nat) (f : KvApp → KvApp) : Upd :=
  .kv (fun k => { k with apps := Sparse.set {} k.apps q (f (Sparse.get {} k.apps q)) })

/-- Whether the next event of a history and layer is written after a copy of a shared page that reads a bad line (R325). -/
def State.copyBad (s : State) (die h layer : Nat) : Bool :=
  let n := s.kvLen h layer
  let p := s.kvOwn h layer (n / 64)
  n % 64 != 0 && decide (s.kvRef die p > 1) && (s.eventLines die (s.kvDpa die p) (n % 64)).any s.lineBad

/-- One event of an APPEND. `slot`: the micro-batch whose slice asked. -/
def appendEvent (q die slot : Nat) (xs : List Nat) : Plan := fun s =>
  let a := Sparse.get {} s.kv.apps q
  let h := reqHist a.hdr
  let layer := s.reqLayer die a.hdr
  if a.status ≥ 2 then []
  else if s.kvLen h layer ≥ 8192 then [putApp q (fun x => { x with status := 1 }), s.addF .SEQ_EVENTS_LIMIT 1 die]
  else match openPage die h layer s with
    | some (p, prep) =>
      plans [if s.copyBad die h layer then fun _ => [putApp q (fun x => { x with ue := true })] else fun _ => [],
        prep, writeEvent die h layer p xs] s
    | none =>
      plans [fun s' => [putApp q (fun x => { x with status := 2 }), s'.addF .TIER_CLASS_EVENTS_FULL 1 (6 * 256)] ++
          (if slot < 8 ∧ s'.var .mbDropNext slot = 0 then [.var .mbDropNext slot 3] else []),
        postEvent 0x14 2 0 die (s.get .BEAT_STEP_STEP) slot] s

/-- Table lines that an APPEND of `n` events reads: the entries of its pages, and the descriptor of the page that it goes on
in. -/
def State.appendLines (s : State) (die h layer n : Nat) : List Nat :=
  let len := s.kvLen h layer
  let last := min (len + n) 8192
  (List.range (kvPages last - len / 64)).map (fun i => s.kvEntryAt h layer (len / 64 + i)) ++
    (if len % 64 = 0 ∨ n = 0 then [] else [s.kvDescAt die (s.kvOwn h layer (len / 64))])

/-- The events of an APPEND are written, unless a table line cannot be read: the store then stays unchanged (R325). -/
def appendEvents (q die slot : Nat) (rows : List (List Nat)) : Plan := fun s =>
  let a := Sparse.get {} s.kv.apps q
  let bad := if a.status ≥ 2 then [] else badLines s (s.appendLines die (reqHist a.hdr) (s.reqLayer die a.hdr) a.events)
  if !bad.isEmpty then plans [noteBad die bad, fun _ => [putApp q (fun x => { x with status := 5 })]] s
  else planEach rows (appendEvent q die slot) s

/-- What an APPEND is answered: UE where a copy read a bad line (R325), else what its events found. -/
def KvApp.final (a : KvApp) : Nat := if a.ue ∧ a.status < 3 then 5 else a.status

/-- The data tokens that have come for an APPEND are taken in; with the last of them its events are written and it is
answered (R309, R310). -/
def appendData (q die slot : Nat) : Plan := fun s =>
  let a := Sparse.get {} s.kv.apps q
  let got := (s.queue q).buf.take a.left
  let all := a.bytes ++ (got.map (fun t => leBytes 256 t.toNat)).flatten
  let eb := s.eventBytes die
  let ib := fmtBytes (s.get .SEQ_CFG_IN_FMT die)
  let left := a.left - got.length
  let rows := (List.range a.events).map (fun i =>
    (List.range (2 * s.kvW die)).map (fun j => fieldOf all (i * eb + j * ib) ib))
  plans [planEach got (fun _ => takeToken q),
    if left > 0 then fun _ => [putApp q (fun x => { x with left := left, bytes := all })]
    else plans [appendEvents q die slot rows, fun s' =>
      let st := (Sparse.get {} s'.kv.apps q).final
      plans [fun _ => [.kv (fun k => { k with apps := Sparse.set {} k.apps q {} })], answerReq q die a.hdr st,
        relieveAsker q 1] s'],
    relieveAsker q got.length] s

/-- An APPEND's header is taken; what it will be answered is `status` where its data are to be dropped. -/
def startAppend (q die t status : Nat) : Plan := fun s =>
  let n := (reqCount t * s.eventBytes die + 255) / 256
  plans [takeToken q, fun _ => [.kv (fun k => { k with
    apps := Sparse.set {} k.apps q { hdr := t, left := n, events := reqCount t, status := status } })]] s

/-- KV_APPEND: a new request, or more data of the one under way. -/
def planAppend (q slot : Nat) : Plan := fun s =>
  match s.kvDie q with
  | none => []
  | some die =>
    if s.kv.apps.any (fun a => a.1 == q) then appendData q die slot s
    else match s.nextReq q with
    | some (_, t) =>
      if reqOp t ≠ 1 ∨ s.reqBad die t then []
      else plans [startAppend q die t (if s.kvEnabled die then 0 else 4), appendData q die slot] s
    | none => []

/-- KV_BAD_REQUEST: it has no effect on the store; an APPEND's data are dropped, a READ delivers +0 (R307, R309). A store
that is not enabled answers it DISABLED, as every request (R313). -/
def planBadReq (q : Nat) : Plan := fun s =>
  match s.nextReq q with
  | some (die, t) =>
    let st := if s.kvEnabled die then 3 else 4
    if !s.reqBad die t then []
    else if reqOp t = 1 then plans [startAppend q die t st, appendData q die 15] s
    else plans [takeToken q,
      if reqOp t = 2 ∧ s.replyOk die (reqReply t) then answerSend q (reqReply t) (s.zeroRead die t) else fun _ => [],
      answerReq q die t st, relieveAsker q 1] s
  | none => []

/-- A READ of a store that is not enabled delivers +0 (R309). -/
def planRead (q : Nat) : Plan := fun s =>
  match s.nextReq q with
  | some (die, t) =>
    if reqOp t = 2 ∧ !s.reqBad die t ∧ !s.kvEnabled die then
      plans [takeToken q, answerSend q (reqReply t) (s.zeroRead die t), answerReq q die t 4, relieveAsker q 1] s
    else reqRow q 2 (kvRead q) s
  | none => []

/-! SHARE, FREE and PREFETCH (R314, R316, R318). -/

def kvShare (q die t : Nat) : Plan := fun s =>
  let h := reqHist t
  let src := reqSrc t
  let layers := List.range 8
  let n := fun layer => min (reqCount t) (s.kvLen src layer)
  let bad := badLines s ((layers.map (fun l => ((List.range (kvPages (n l))).map (fun i =>
    [s.kvEntryAt src l i, s.kvDescAt die (s.kvEntry src l i), s.kvEntryAt h l i])).flatten)).flatten)
  if layers.any (fun l => s.kvLen h l != 0) then answerReq q die t 3 s
  else if !bad.isEmpty then plans [noteBad die bad, answerReq q die t 5] s
  else plans [planEach layers (fun l => plans [
      planEach (List.range (kvPages (n l))) (fun i s' =>
        let p := s'.kvEntry src l i
        plans [setEntry h l i p, setRef die p (s'.kvRef die p + 1)] s'),
      fun _ => [setLen h l (n l)]]), answerReq q die t 0] s

/-- Every page of a history is given up. -/
def freeHist (die h : Nat) : Plan := fun s =>
  planEach (List.range 8) (fun l => plans [
    planEach (List.range (kvPages (s.kvLen h l))) (fun i s' =>
      plans [dropRef die (s'.kvEntry h l i), setEntry h l i 0xFFFF] s'),
    fun s' => match s'.kvPend h l with
      | some p => plans [fun _ => [.kv (fun k => { k with pend := k.pend.filter (fun x => !(x.hist == h && x.layer == l)) })],
          dropRef die p.page] s'
      | none => [],
    fun _ => [setLen h l 0]]) s

def kvFree (q die t : Nat) : Plan := fun s =>
  let h := reqHist t
  let bad := badLines s ((List.range 8).map (fun l => s.tableAddrs h l (kvPages (s.kvLen h l)))).flatten
  if !bad.isEmpty then plans [noteBad die bad, answerReq q die t 5] s
  else plans [freeHist die h, answerReq q die t 0] s

/-- A move of a page to a free frame of the other tier begins (R318). -/
def startMove (die p tier f : Nat) : Upd :=
  .kv (fun k => { k with moves := k.moves ++ [⟨die, p, tier, f⟩], frames := k.frames ++ [(die, tier, f)] })

def kvPrefetch (q die t : Nat) : Plan := fun s =>
  let h := reqHist t
  let layer := s.reqLayer die t
  let last := min (reqFirst t + reqCount t) (kvPages (s.kvLen h layer))
  let is := (List.range (last - reqFirst t)).map (· + reqFirst t)
  let bad := badLines s ((is.map (fun i => [s.kvEntryAt h layer i, s.kvDescAt die (s.kvOwn h layer i)])).flatten)
  if !bad.isEmpty then plans [noteBad die bad, answerReq q die t 5] s
  else plans [planEach is (fun i s' =>
      let p := s'.kvOwn h layer i
      if s'.kvTier die p = 0 ∨ s'.kv.moves.any (fun m => m.die == die && m.page == p) then []
      else match s'.freeFrame die 0 with
        | some f => [startMove die p 0 f]
        | none => [s'.addF .SEQ_MOVES_CANCELLED 1 die]), answerReq q die t 0] s

/-! At boundaries (R315, R316, R318). -/

/-- A pending entry enters the page table, and the old page loses a reference. -/
def planCow (h layer : Nat) : Plan := fun s =>
  match s.kvPend h layer with
  | some p =>
    if s.get .BEAT_COUNT_COUNT ≤ p.beat then []
    else
      let old := s.kvEntry h layer p.idx
      plans [fun _ => [.kv (fun k => { k with pend := k.pend.filter (fun x => !(x.hist == h && x.layer == layer)) })],
        setEntry h layer p.idx p.page, dropRef (h / 128) old] s
  | none => []

def State.kvZero (s : State) (die p : Nat) : Option KvZero := s.kv.zeros.find? (fun z => z.die == die && z.page == p)

/-- At the boundary after its count reached zero a page enters QUARANTINE. -/
def planQuarantine (die p : Nat) : Plan := fun s =>
  match s.kvZero die p with
  | some z =>
    if s.get .BEAT_COUNT_COUNT = z.beat ∨ s.kvState die p ≠ 1 then []
    else plans [writeMem (s.kvDescAt die p + 2) [2], writeMem (s.kvDescAt die p + 12) (leBytes 4 (z.beat + 2))] s
  | none => []

/-- A page and its frame return to the pool. -/
def planReturn (die p : Nat) : Plan := fun s =>
  match s.kvZero die p with
  | some z =>
    if s.get .BEAT_COUNT_COUNT < z.beat + 2 ∨ s.kvState die p ≠ 2 then []
    else
      let f := (die, s.kvTier die p, s.kvFrame die p)
      plans [cancelMove die p, writeMem (s.kvDescAt die p + 2) [0], fun _ => [.kv (fun k => { k with
        zeros := k.zeros.filter (fun x => !(x.die == die && x.page == p))
        used := k.used.filter (fun u => !(u.1 == die && u.2.1 == p)), frames := k.frames.erase f })]] s
  | none => []

/-- With fewer than 16 free KV_T frames, the LIVE page used longest ago starts to KV_H (R318). -/
def planSpill (die : Nat) : Plan := fun s =>
  let taken := (s.takenFrames.filter (fun t => t.1 == die && t.2.1 == 0)).length
  let now := s.get .BEAT_COUNT_COUNT % 2 ^ 32
  let age := fun p => (now + 2 ^ 32 - s.kvUse die p) % 2 ^ 32
  let ps := (s.kv.used.filter (fun u => u.1 == die && s.kvState die u.2.1 == 1 && s.kvTier die u.2.1 == 0 &&
    s.kvUse die u.2.1 != now)).map (·.2.1)
  let pick := ps.foldl (fun m p => match m with
    | none => some p
    | some x => if age p > age x ∨ (age p = age x ∧ p < x) then some p else some x) none
  if die ≥ 2 ∨ !s.kvEnabled die ∨ taken + 16 ≤ s.kvFrames die 0 ∨
      s.kv.moves.any (fun m => m.die == die && m.tier == 1) then []
  else match pick, s.freeFrame die 1 with
    | some p, some f => if s.kv.moves.any (fun m => m.die == die && m.page == p) then [] else [startMove die p 1 f]
    | _, _ => []

/-- At the boundary after its copy completes, a page's FRAME and TIER change (R318). -/
def planMoveDone (die p : Nat) : Plan := fun s =>
  match s.kv.moves.find? (fun m => m.die == die && m.page == p) with
  | some m =>
    let old := (s.kvTier die p, s.kvFrame die p)
    plans [copyEvents die (s.kvDpa die p) (s.kvFrameAt die m.tier m.frame) 64, setPlace die p m.tier m.frame,
      fun s' => [.kv (fun k => { k with
          moves := k.moves.filter (fun x => !(x.die == die && x.page == p))
          frames := k.frames.erase (die, old.1, old.2)
          vac := k.vac ++ [⟨die, old.1, old.2, s'.get .BEAT_COUNT_COUNT⟩] }),
        s'.addF (if m.tier = 1 then .SEQ_MOVES_SPILLS else .SEQ_MOVES_PREFETCHES) 1 die]] s
  | none => []

/-- The store of a die is emptied with no quarantine (R324): where its KV_T region has room for the tables, every entry names
no page and every descriptor is clear (R305). -/
def clearStore (die : Nat) : Plan := fun s =>
  plans [fun _ => if (s.kvT die).2 < 0x140000 then []
      else [.fill (s.kvT die).1 0x40000 0xFF#8, .fill ((s.kvT die).1 + 0x40000) 0x100000 0#8],
    fun _ => [.kv (fun k => { k with
      lens := k.lens.filter (fun l => l.1 / 1024 != die), used := k.used.filter (fun u => u.1 != die)
      frames := k.frames.filter (fun f => f.1 != die), pend := k.pend.filter (fun p => p.hist / 128 != die)
      zeros := k.zeros.filter (fun z => z.die != die), moves := k.moves.filter (fun m => m.die != die)
      vac := k.vac.filter (fun v => v.die != die) })]] s

/-- The latches of clk 3 (R326). -/
def kvLatch (die : Nat) : Plan := fun s =>
  let ps := (s.kv.used.filter (fun u => u.1 == die)).map (·.2.1)
  let n := fun c => (ps.filter c).length
  [setF .SEQ_PAGES_LIVE_T (n (fun p => s.kvState die p == 1 && s.kvTier die p == 0)) die,
   setF .SEQ_PAGES_LIVE_H (n (fun p => s.kvState die p == 1 && s.kvTier die p == 1)) die,
   setF .SEQ_PAGES_QUAR (n (fun p => s.kvState die p == 2)) die]

/-- Histories of a die with a length in some layer. -/
def State.kvHists (s : State) (die : Nat) : Nat :=
  ((s.kv.lens.filter (fun l => l.1 / 1024 == die)).map (fun l => l.1 / 8)).eraseDups.length

/-- KV_APPEND (R310). -/
def execKvAppend (q slot : Nat) := answer (planAppend q slot)
/-- KV_READ (R320). -/
def execKvRead (q : Nat) := answer (planRead q)
/-- KV_SHARE (R314). -/
def execKvShare (q : Nat) := answer (reqRow q 3 (kvShare q))
/-- KV_FREE (R316). -/
def execKvFree (q : Nat) := answer (reqRow q 4 (kvFree q))
/-- KV_PREFETCH (R318). -/
def execKvPrefetch (q : Nat) := answer (reqRow q 5 (kvPrefetch q))
/-- KV_BAD_REQUEST (R307). -/
def execKvBadRequest (q : Nat) := answer (planBadReq q)
/-- KV_SPILL (R318). -/
def execKvSpill (die : Nat) := answer (planSpill die)
/-- SEQ_COMMIT (R326). -/
def execSeqCommit (die : Nat) := answer (planIf (fun _ => die < 2) (fun _ => [setF .SEQ_STATUS_COMMIT_PENDING 1 die]))

end Sys2Proof.Machine
end

