-- ==== Sys2Proof/Machine/Port.lean ====
section
/-!
DEFINITION. The ports: bring-up (R362), lane loss and reduced width (R361, R363 to R366), E200 (R367, R368) and what a
committed configuration does to a port (R378).
-/
namespace Sys2Proof.Machine

/-- PORT_LANE.STATE_j: 0 ACTIVE, 1 FAILED, 2 RETRAINING, 3 EXCLUDED, 4 UNUSED. -/
def State.lane (s : State) (p j : Nat) : Nat := s.get .PORT_LANE_STATE (p * 4 + j)
def setLane (p j v : Nat) : Upd := setF .PORT_LANE_STATE v (p * 4 + j)

/-- Lanes that a port may use: not excluded by its configuration, nor by flapping (R365). -/
def State.laneMask (s : State) (p : Nat) : Nat := (15 - s.get .PORT_CFG_LANE_EXCLUDE p) &&& (15 - (s.portSt p).flap)

/-- Whether exclusions keep an enabled port DOWN (R378). -/
def State.portBarred (s : State) (p : Nat) : Bool :=
  s.get .PORT_CFG_LANE_EXCLUDE p == 15 || (s.e200 p && s.get .PORT_CFG_LANE_EXCLUDE p != 0)

/-- The mark of an alignment codeword, and its CRC (R361). -/
def alignMark : Nat := 0x6A3C95F00F5AC396
def alignCrc (w : Nat) : Nat := crc32c (leBytes 15 (w % 2 ^ 116))

/-- The field block of an alignment codeword (R361). -/
def alignWord (count own port tx req : Nat) (confirm : Bool) : Nat :=
  let w := alignMark + count % 65536 * 2 ^ 64 + own * 2 ^ 80 + port * 2 ^ 96 + tx * 2 ^ 100 + req * 2 ^ 104 +
    b2n confirm * 2 ^ 108
  w + alignCrc w * 2 ^ 116

/-- The lanes that an end transmits on, before UP those that trained. -/
def State.txMap (s : State) (p : Nat) : Nat :=
  if s.portState p = 4 then s.get .PORT_STATUS_TX_MAP p else (s.portSt p).trained

/-- The lanes that an end asks its partner to transmit on. -/
def State.reqMap (s : State) (p : Nat) : Nat :=
  if s.portState p ≠ 4 then (s.portSt p).trained
  else if (s.portSt p).ask = 0 then s.get .PORT_STATUS_RX_MAP p else (s.portSt p).askMap

/-- Whether an end decodes its partner's present map cleanly (R361): no lane of it is FAILED or retrains, and no new map is
on trial. -/
def State.cleanMap (s : State) (p : Nat) : Bool :=
  s.portState p == 4 && (s.portSt p).ask != 2 &&
  (List.range 4).all (fun j => !(s.get .PORT_STATUS_RX_MAP p).testBit j || s.lane p j == 0 || s.lane p j == 3)

/-- An alignment codeword goes (R361), in its turn or out of it (R364). -/
def sendAlign (p : Nat) : Plan := fun s =>
  let n := (s.portSt p).words
  [send .align p [alignWord n (s.get .PORT_FWD_CFG_OWN_ID) p (s.txMap p) (s.reqMap p) (s.cleanMap p)],
   setPort p (fun x => { x with words := (n + 1) % 65536 })]

/-- 4,096 codewords of 5,440 bits at 425 Gb/s a lane, in 1/5 clk (R359, R361). -/
def alignPeriod (map : Nat) : Nat := 393216 / max 1 (bitsSet 4 map).length

/-- Every 4,096th codeword of a port that aligns or is UP is an alignment codeword (R361). -/
def alignTurn (p : Nat) : Plan := fun s =>
  if s.e200 p ∨ s.portState p < 3 ∨ s.portState p > 4 ∨ s.txMap p = 0 ∨ 5 * s.var .clk < (s.portSt p).wordAt then []
  else plans [sendAlign p, fun _ => [setPort p (fun x => { x with wordAt := x.wordAt + alignPeriod (s.txMap p) })]] s

/-- What a clk does at the ports: frames that wait start, and alignment codewords go in their turn. -/
def portTurns : Plan := fun s => planEach (s.xport.ports.map (·.1)) (fun p => plans [pumpPort p, alignTurn p]) s

/-- A port leaves UP: no maps, no partner, no change under way; the frames that wait at it take another egress. -/
def portClear (p st : Nat) : Plan := plans [fun s =>
  [setF .PORT_STATUS_STATE st p, setF .PORT_STATUS_STOPPED 0 p, setF .PORT_STATUS_TX_MAP 0 p,
   setF .PORT_STATUS_RX_MAP 0 p, setF .PORT_STATUS_PARTNER_VALID 0 p,
   setPort p (fun x => { x with ask := 0, peer := 0, dark := 0, trained := 0, rateMap := 0, began := s.var .clk })] ++
  (List.range 4).map (fun j => setLane p j 4), reselect p]

/-- A port fails: it is reported, and restarts at TRAIN (R366), or stays DOWN where exclusions keep it there. -/
def portFail (p cause : Nat) : Plan := fun s =>
  plans [portClear p (if s.portBarred p then 0 else 2), count .PORT_TRAIN_RETRAINS 1 p, postEvent 0x31 7 0 p cause 0] s

/-- Whether a port trains or runs. -/
def State.portOn (s : State) (p : Nat) : Bool := p < 16 && s.get .PORT_CFG_ENABLE p == 1 && s.portState p != 5

/-- A port asks its partner for another set of lanes (R364). -/
def askWidth (p map : Nat) : Plan := plans [fun _ => [setPort p (fun x => { x with ask := 1, askMap := map })], sendAlign p]

/-- Lanes retrain alone (R365). -/
def retrainLanes (p : Nat) (js : List Nat) : Plan := fun s =>
  js.map (fun j => setLane p j 2) ++ [s.addF .PORT_TRAIN_RETRAINS js.length p,
    setPort p (fun x => { x with laneAt := js.foldl (fun m j => Sparse.set 0 m j (s.var .clk)) x.laneAt })]

/-- A port's transmitter is to go over to another map (R364): where it drops a lane, the port is not selected until its
partner confirms. -/
def giveMap (p map : Nat) : Plan := fun s =>
  let tx := s.get .PORT_STATUS_TX_MAP p
  plans [fun _ => [setPort p (fun y => { y with peer := 1, peerMap := map })],
    if map &&& tx = tx then fun _ => [] else plans [fun _ => [setF .PORT_STATUS_STOPPED 1 p], reselect p]] s

/-- LANE_LOSS (R363, R368): the lane has no signal or lock; an E200 port goes DOWN. -/
def planLaneLoss (p j : Nat) : Plan := fun s =>
  if !s.portOn p ∨ j ≥ 4 then []
  else if s.e200 p then (if s.portState p = 4 then portFail p 0 s else [])
  else [setPort p (fun x => { x with dark := putBits x.dark j 1 1 })]

/-- Corrected symbols of a port in the current beat. -/
def State.portSyms (s : State) (p : Nat) : Nat := ((List.range 4).map (fun j => s.var .portSym (p * 4 + j))).foldl (· + ·) 0

/-- Whether a lane holds more than half of its port's corrected symbols in a beat of 16 or more uncorrectable codewords
(R363). -/
def State.laneBad (s : State) (p j : Nat) : Bool := s.var .portUnc p ≥ 16 && 2 * s.var .portSym (p * 4 + j) > s.portSyms p

/-- LANE_FAILED (R363 to R365): `cause` 0 is 64 clk without signal, 1 corrected symbols, 2 uncorrectable codewords. -/
def planLaneFailed (p j cause : Nat) : Plan := fun s =>
  let x := s.portSt p
  let meets := match cause with
    | 0 => x.dark.testBit j
    | 1 => decide (s.var .portSym (p * 4 + j) > 4096)
    | 2 => s.laneBad p j
    | _ => false
  if !s.portOn p ∨ s.e200 p ∨ s.portState p ≠ 4 ∨ j ≥ 4 ∨ s.lane p j ≠ 0 ∨ !meets then []
  else
    let beat := s.get .BEAT_COUNT_COUNT
    let fails := (x.fails ++ [(j, beat)]).filter (fun f => beat < f.2 + 1048576)
    let out := (fails.filter (fun f => f.1 == j)).length ≥ 8
    let map := putBits (s.reqMap p) j 1 0
    plans [fun _ => [setLane p j (if out then 3 else 1), s.addF .PORT_LANE_FAILS 1 p,
        setPort p (fun y => { y with fails, flap := if out then putBits y.flap j 1 1 else y.flap })],
      postEvent 0x30 7 0 p j cause, askWidth p map] s

/-- Lanes that the configuration lets a port transmit on (R365). -/
def State.txAllowed (s : State) (p : Nat) : Nat := 15 - s.get .PORT_CFG_LANE_EXCLUDE p

/-- ALIGNMENT_CODEWORD (R361, R364): what its field block says, and the codewords received up to it: those with
corrected symbols, those uncorrectable, and the corrected symbols of each lane, which alone an E200 port counts (R378). A
partner that has left a lane of its own accord is followed there. DEDUCED (notes/assumptions/103.md). -/
def planAlign (p block cor unc : Nat) (syms : List Nat) : Plan := fun s =>
  if !s.portOn p ∨ s.portState p < 3 then []
  else
    let tally : List Upd := [s.addF .PORT_FEC_CORRECTED cor p, s.addF .PORT_FEC_UNCORRECTED unc p, s.addV .portUnc unc p] ++
      ((List.range 4).map (fun j => [s.addF .PORT_SYM_TOTAL (syms.getD j 0) (p * 4 + j),
        s.addV .portSym (syms.getD j 0) (p * 4 + j)])).flatten
    if s.e200 p ∨ bits block 0 64 ≠ alignMark ∨ bits block 116 32 ≠ alignCrc block then tally
    else
      let req := bits block 104 4 &&& s.txAllowed p
      let rx := s.get .PORT_STATUS_RX_MAP p &&& bits block 100 4
      let x := s.portSt p
      let up := s.portState p = 4
      let id : List Upd := [setF .PORT_STATUS_PARTNER_ID (bits block 80 16) p,
        setF .PORT_STATUS_PARTNER_PORT (bits block 96 4) p, setF .PORT_STATUS_PARTNER_VALID (b2n up) p]
      let change : Plan := fun s' =>
        if ¬ up then [setPort p (fun y => { y with peerMap := req })]
        else if x.peer = 2 ∧ block.testBit 108 then
          [setPort p (fun y => { y with peer := 0, rateMap := s.get .PORT_STATUS_TX_MAP p }), setF .PORT_STATUS_STOPPED 0 p]
        else if req ≠ s.get .PORT_STATUS_TX_MAP p ∧ ¬ (x.peer ≠ 0 ∧ x.peerMap = req) then giveMap p req s'
        else []
      let follow : List Upd :=
        if up ∧ x.ask = 0 ∧ rx ≠ 0 ∧ rx ≠ s.get .PORT_STATUS_RX_MAP p then
          [setF .PORT_STATUS_RX_MAP rx p, setPort p (fun y => { y with ask := 2, askMap := rx })]
        else []
      plans [fun _ => tally ++ id, change, fun _ => follow] s

/-- CHANGE_MARKER (R364): the transmitter goes over to the map its partner asked for, less the lanes excluded (R365). -/
def planMarker (p : Nat) : Plan := fun s =>
  let map := (s.portSt p).peerMap &&& s.txAllowed p
  if s.portOn p ∧ (s.portSt p).peer = 1 ∧ map ≠ 0 then
    [send .align p [], setF .PORT_STATUS_TX_MAP map p, setPort p (fun x => { x with peer := 2 })]
  else []

/-- CHANGE_MARKER_DETECT (R364): the receiver decodes on the new map. -/
def planMarkerSeen (p : Nat) : Plan := fun s =>
  if s.portOn p ∧ (s.portSt p).ask = 1 then
    [setF .PORT_STATUS_RX_MAP (s.portSt p).askMap p, setPort p (fun x => { x with ask := 2 })]
  else []

/-- WIDTH_CONFIRM (R364, R365): 1,024 clean codewords on the new map. Lanes of the map are ACTIVE, and lanes that failed
retrain alone. -/
def planConfirm (p : Nat) : Plan := fun s =>
  let x := s.portSt p
  if s.portOn p ∧ x.ask = 2 then
    let lanes := (List.range 4).filter (fun j => !x.askMap.testBit j && s.lane p j == 1)
    plans [fun _ => setPort p (fun y => { y with ask := 0 }) ::
        ((List.range 4).filter (fun j => x.askMap.testBit j)).map (fun j => setLane p j 0),
      retrainLanes p lanes, sendAlign p] s
  else []

/-- WIDTH_CHANGE_TIMEOUT (R364, R366): no marker within 2,048 clk, or no CONFIRM within 8,192 clk. -/
def planWidthTimeout (p : Nat) : Plan := fun s =>
  if s.portOn p ∧ ((s.portSt p).ask ≠ 0 ∨ (s.portSt p).peer = 2) then portFail p 1 s else []

/-- PORT_FAIL (R363, R366): no lane is active in a direction, or a beat's uncorrectable codewords name no lane. -/
def planPortFail (p : Nat) : Plan := fun s =>
  if !s.portOn p ∨ s.portState p ≠ 4 then []
  else if (List.range 4).all (fun j => s.lane p j != 0) ∨
      ((s.portSt p).peer = 1 ∧ (s.portSt p).peerMap &&& s.txAllowed p = 0) then
    portFail p 0 s
  else if s.var .portUnc p ≥ 16 ∧ !(List.range 4).any (s.laneBad p) then portFail p 2 s
  else []

/-- Duration since a clk, in units of 1,024 clk (PORT_TRAIN.LAST_TIME). -/
def State.trainTime (s : State) (began : Nat) : Nat := (s.var .clk - began) / 1024

/-- LANE_RETRAIN_DONE (R365): the wider map is requested. -/
def planLaneDone (p j : Nat) : Plan := fun s =>
  if s.portOn p ∧ !s.e200 p ∧ s.portState p = 4 ∧ j < 4 ∧ s.lane p j = 2 ∧ (s.portSt p).ask = 0 then
    plans [fun _ => [setPort p (fun x => { x with dark := putBits x.dark j 1 0 }),
        setF .PORT_TRAIN_LAST_TIME (s.trainTime (Sparse.get 0 (s.portSt p).laneAt j)) p],
      askWidth p (putBits (s.get .PORT_STATUS_RX_MAP p) j 1 1)] s
  else []

/-- BRINGUP_STAGE_DONE (R362, R367): DETECT with the lanes that have signal, TRAIN with the lanes that trained, ALIGN
with the maps agreed. An E200 port needs all four lanes. -/
def planStage (p lanes : Nat) : Plan := fun s =>
  let ok := lanes % 16 &&& s.laneMask p
  let map := if s.e200 p then (if ok = 15 then 15 else 0) else ok
  let x := s.portSt p
  if !s.portOn p ∨ map = 0 then []
  else match s.portState p with
    | 1 => [setF .PORT_STATUS_STATE 2 p]
    | 2 => [setF .PORT_STATUS_STATE 3 p,
        setPort p (fun y => { y with trained := map, peerMap := map, wordAt := 5 * s.var .clk })]
    | 3 =>
      let rx := map &&& x.trained
      let tx := x.peerMap &&& s.txAllowed p
      let late := (List.range 4).filter (fun j => !rx.testBit j && (s.laneMask p).testBit j)
      if rx = 0 ∨ tx = 0 then []
      else plans [fun _ => [setF .PORT_STATUS_STATE 4 p, setF .PORT_STATUS_RX_MAP rx p, setF .PORT_STATUS_TX_MAP tx p,
            setF .PORT_TRAIN_LAST_TIME (s.trainTime x.began) p, setPort p (fun y => { y with rateMap := tx })] ++
          (List.range 4).map (fun j => setLane p j (if rx.testBit j then 0 else 3)),
        retrainLanes p late] s
    | _ => []

/-- BRINGUP_TIMEOUT (R362): the port returns to DETECT, and the attempt is counted. -/
def planBringupTimeout (p : Nat) : Plan := fun s =>
  if s.portOn p ∧ 1 ≤ s.portState p ∧ s.portState p ≤ 3 then
    plans [portClear p 1, count .PORT_TRAIN_ATTEMPTS 1 p] s
  else []

/-- PORT_CFG takes committed values (R365, R378): a change of ENABLE or MODE takes the port DOWN and starts it again; in
an UP N400 port, lanes newly excluded are removed by R364 in both directions, and lanes let in again retrain. -/
def portConfig (p enable mode excl : Nat) : Plan := fun s =>
  let old := s.get .PORT_CFG_LANE_EXCLUDE p
  let fresh := enable ≠ s.get .PORT_CFG_ENABLE p ∨ mode ≠ s.get .PORT_CFG_MODE p
  plans [fun _ => [setF .PORT_CFG_ENABLE enable p, setF .PORT_CFG_MODE mode p, setF .PORT_CFG_LANE_EXCLUDE excl p],
    fun s' =>
      if fresh then portClear p (if enable = 0 then 5 else if s'.portBarred p then 0 else 1) s'
      else if excl = old ∨ enable = 0 then []
      else if s'.portBarred p then portClear p 0 s'
      else if s'.portState p = 0 then portClear p 1 s'
      else if s'.portState p ≠ 4 then []
      else
        let gone := (List.range 4).filter (fun j => excl.testBit j && !old.testBit j)
        let back := (List.range 4).filter (fun j => !excl.testBit j && old.testBit j && !(s'.portSt p).flap.testBit j)
        let map := s'.reqMap p &&& (15 - excl)
        let out := if (s'.portSt p).peer = 1 then (s'.portSt p).peerMap else s'.get .PORT_STATUS_TX_MAP p
        plans [fun _ => gone.map (fun j => setLane p j 3), retrainLanes p back,
          if out &&& s'.txAllowed p = out then fun _ => [] else giveMap p (out &&& s'.txAllowed p),
          if map = s'.reqMap p then fun _ => [] else askWidth p map] s'] s

/-- LANE_CLEAR (R365): lanes that flapping excluded retrain again. -/
def planLaneClear (p : Nat) : Plan := fun s =>
  let x := s.portSt p
  let back := (List.range 4).filter (fun j => x.flap.testBit j)
  if p ≥ 16 then []
  else plans [fun _ => [setPort p (fun y => { y with flap := 0, fails := y.fails.filter (fun f => !back.contains f.1) })],
    if s.portState p = 4 then retrainLanes p (back.filter (fun j => (s.txAllowed p).testBit j)) else fun _ => []] s

/-- What a port latches at clk 3 (R378). -/
def portLatch : Plan := fun s =>
  ((s.listedVar .portSym).map (fun i => [Upd.var .portSym i 0])).flatten ++
  (s.listedVar .portUnc).map (fun p => Upd.var .portUnc p 0) ++
  (List.range 64).map (fun i => setF .PORT_SYM_LAST_BEAT (min (s.var .portSym i) 65535) i)

/-- FWD_TABLE_WRITE (R375, R379): the four entries of a register change together; reserved bits are ignored. -/
def planFwdWrite (n v : Nat) : Plan := fun _ =>
  if n < 16384 then (List.range 4).map (fun j => setF .PORT_FWD_TABLE_ENTRY (bits v (16 * j) 16 &&& 0x3F1F) (4 * n + j))
  else []

/-- LANE_LOSS (R363). -/
def execLaneLoss (port lane : Nat) := answer (planLaneLoss port lane)
/-- LANE_FAILED (R363). -/
def execLaneFailed (port lane cause : Nat) := answer (planLaneFailed port lane cause)
/-- ALIGNMENT_CODEWORD (R361). -/
def execAlignmentCodeword (port block cor unc : Nat) (syms : List Nat) := answer (planAlign port block cor unc syms)
/-- CHANGE_MARKER (R364). -/
def execChangeMarker (port : Nat) := answer (planMarker port)
/-- CHANGE_MARKER_DETECT (R364). -/
def execChangeMarkerDetect (port : Nat) := answer (planMarkerSeen port)
/-- WIDTH_CONFIRM (R364). -/
def execWidthConfirm (port : Nat) := answer (planConfirm port)
/-- WIDTH_CHANGE_TIMEOUT (R364). -/
def execWidthChangeTimeout (port : Nat) := answer (planWidthTimeout port)
/-- PORT_FAIL (R366). -/
def execPortFail (port : Nat) := answer (planPortFail port)
/-- LANE_RETRAIN_DONE (R365). -/
def execLaneRetrainDone (port lane : Nat) := answer (planLaneDone port lane)
/-- BRINGUP_STAGE_DONE (R362). -/
def execBringupStageDone (port lanes : Nat) := answer (planStage port lanes)
/-- BRINGUP_TIMEOUT (R362). -/
def execBringupTimeout (port : Nat) := answer (planBringupTimeout port)
/-- PORT_COMMIT (R378). -/
def execPortCommit (port : Nat) := answer (planIf (fun _ => port < 16) (fun _ => [setF .PORT_STATUS_COMMIT_PENDING 1 port]))
/-- PORT_RETRAIN (R366): a write of PORT_CTRL.RETRAIN. -/
def execPortRetrain (port : Nat) := answer (planIf (fun s => s.portOn port) (portFail port 3))
/-- LANE_CLEAR (R365): a write of PORT_CTRL.LANE_CLEAR. -/
def execLaneClear (port : Nat) := answer (planLaneClear port)
/-- FWD_TABLE_WRITE (R375). -/
def execFwdTableWrite (n value : Nat) := answer (planFwdWrite n value)

end Sys2Proof.Machine
end

