-- ==== Sys2Proof/Machine/Regs.lean ====
section
/-!
DEFINITION. Which instance of a field a register shows, the clamping rules of the register tables (R15), the writes that
a register table ignores, and what a commit of RWS shadows does at its boundary (R14, R23, R187).
-/
namespace Sys2Proof.Machine

/-- The instance of a field that a register shows: by its place `i` alone, or as its selector register says. -/
def State.fldInst (s : State) (sel : Sel) (f : FieldDesc) (i : Nat) : Nat :=
  match sel with
  | .plain => f.mul * i + f.add
  | .rsEntry => rsIdx i (s.get .CELL_RS_SEL_ENTRY i)
  | .rsHist =>
    let e := rsIdx i (s.get .CELL_RS_SEL_ENTRY i)
    if f.fld = .CELL_RS_HIST_VALUE then e * 16 + s.get .CELL_RS_SEL_HIST i else e
  | .tierClass => s.get .TIER_CLASS_SEL_CLASS * 256 + s.get .TIER_CLASS_SEL_INSTANCE
  | .tierStream => if f.fld = .TIER_STREAM_STREAM then 0 else s.get .TIER_STREAM_STREAM
  | .tierTarn => if f.fld = .TIER_BANK_STALL_TARN then 0 else s.get .TIER_BANK_STALL_TARN
  | .embTable => i * 4096 + s.get .EMB_TABLE_SEL_TABLE i
  | .driftTable => i * 4097 + (if s.get .DRIFT_LOAD_SEL_ALL i = 1 then 4096 else s.get .DRIFT_LOAD_SEL_TABLE i)
  | .springSink => s.get .SPRING_SINK_SEL_SINK
  | .seqLayer => i * 8 + min (s.get .SEQ_SEL_LAYER i) (s.get .SEQ_CFG_LAYERS_M1 i)
  | .collPeer => s.get .COLL_PEER_SEL_RANK
  | .xportEp => s.selEp
  | .xportConn =>
    if f.fld = .XPORT_EP_STATE_SILENCE then silIdx s.selEp else connIdx s.selEp (s.get .XPORT_EP_SEL_CHANNEL)
  | .xportStream => s.get .XPORT_INGEST_SEL_STREAM * 2 + i
  | .xportSvc => 65536 + s.get .XPORT_EP_SEL_ENDPOINT % 256
  | .roceSink => s.get .XPORT_ROCE_SEL_SINK
  | .errStore => storeIdx (s.get .ERR_STORE_SEL_KIND) (s.get .ERR_STORE_SEL_INDEX)
  | .errDma => s.get .ERR_DMA_SEL_CHANNEL
  | .fmpRing => s.get .FMP_RING_SEL_RING
  | .pwrSensor => if f.fld = .PWR_THERM_HOTTEST then 0 else s.get .PWR_THERM_SEL_SENSOR

/-- Last instance of each kind of store (ERR_STORE_SEL, R431). -/
def lastStore (kind : Nat) : Nat := [15, 143, 1, 15, 144, 1, 0, 0].getD kind 0

/-- A UDP port of the module that may not be used: a reserved one, RoCEv2's, or the other protocol's (R409, R463). -/
def clampUdp (v other d d' : Nat) : Nat :=
  if v < 1024 ∨ v = 4791 ∨ v = other then (if d = other then d' else d) else v

/-- The clamping rule of a field's register table for a written value `v` (R15). Fields that one register holds are
written in the order of their bits, so that a later one is clamped by an earlier. -/
def State.clampF (s : State) (f : Fld) (i v : Nat) : Nat :=
  match f with
  | .BEAT_CTRL_HOLD_MODE => min v 1
  | .TIER_CLASS_SEL_CLASS => min v 14
  | .TIER_CLASS_SEL_INSTANCE => min v (classInstances (s.get .TIER_CLASS_SEL_CLASS) - 1)
  | .TIER_BANK_STALL_TARN => if 144 ≤ v ∧ v < 0xF0 then 143 else min v 0xF1
  | .CELL_RS_CFG_EXP => if 0x80 ≤ v ∧ v < 0xC0 then 0xC0 else if 0x40 ≤ v ∧ v < 0x80 then 0x3F else v
  | .CELL_SEQ_CTRL_RESTART_PC => min v (s.get .CELL_SEQ_PROG_LENGTH i - 1)
  | .CELL_REG_SEL_FILE => min v 4
  | .CELL_REG_SEL_INDEX => min v ([63, 31, 15, 15, 3].getD (s.get .CELL_REG_SEL_FILE i) 3)
  | .CLAY_SRC_LEN_LENGTH => min v (2 ^ 28)
  | .CLAY_RB_SEL_CELL => min v 143
  | .EMB_DRIFT_POLICY_IMBALANCE => max v 17
  | .DRIFT_CMD_DEST_RANK => min v (s.jobN - 1)
  | .SPRING_CFG_LG_BUDGET => min 256 (max 1 v)
  | .SEQ_CFG_KEY_FMT => if 2 ≤ v ∧ v ≤ 5 then v else 4
  | .SEQ_CFG_VAL_FMT => if 2 ≤ v ∧ v ≤ 5 then v else 2
  | .SEQ_CFG_MUL_FMT => if v = 5 then 4 else if 2 ≤ v ∧ v ≤ 4 then v else 2
  | .SEQ_CFG_IN_FMT => if v = 2 then 2 else 0
  | .SEQ_CFG_WIDTH => min 16 (max 1 v)
  | .SEQ_KEXP_KEXP => s.clampKexps (i / 1024) v
  | .SEQ_SEL_HIST => min (128 * i + 127) (max (128 * i) v)
  | .SEQ_SEL_PAGE => min v 0xFFFE
  | .COLL_CFG_LEASE_BEATS => max v 1
  | .COLL_CFG_PERM_WINDOW => min 4096 (max 1 v)
  | .COLL_CFG_QRECV_CLK => min v 4094
  | .COLL_PEER_SEL_RANK => min v (s.jobN - 1)
  | .EMB_WORK_ITEM => v &&& 0xFFFF1FFFFF
  | .SILT_WORK_ITEM => v &&& 0xFFFF001F
  | .COLL_WORK_ITEM =>
    let w := (if bits v 4 4 ≥ 9 then putBits v 4 4 8 else v) &&& 0xFFFFFFFF7FFF
    if bits v 0 4 ≠ 1 then w
    else (if bits w 42 5 = 31 then putBits w 42 5 30 else w) &&& 0x7FFFFFFFFFFF
  | .PORT_FWD_CFG_HOP_LIMIT => max v 1
  | .PORT_FWD_TABLE_ENTRY | .PORT_FWD_DEFAULT_ENTRY => v &&& 0x3F1F
  | .XPORT_CFG_GT_UDP_PORT =>
    if v = s.get .XPORT_CFG_GT_UDP_PORT then v else clampUdp v (s.get .FMP_CFG_UDP_PORT) 47008 47010
  | .XPORT_CFG_RX_WINDOW => max v 16
  | .XPORT_CFG_ACK_CLK => max v 16
  | .XPORT_CFG_RTO_CLK => max v 256
  | .XPORT_EP_CFG_KIND => if v ≥ 5 then 0 else v
  | .ERR_STORE_SEL_INDEX => min v (lastStore (s.get .ERR_STORE_SEL_KIND))
  | .ERR_SCRUB_LEN_LINES => min v (2 ^ 34)
  | .ERR_DMA_SEL_CHANNEL => min v 2
  | .FMP_CFG_UDP_PORT => clampUdp v (s.get .XPORT_CFG_GT_UDP_PORT) 47009 47011
  | .FMP_RING_CFG_LOG2_ENTRIES => min 16 (max 4 v)
  | .PWR_CFG_CAP => max 600 (min v (s.get .PWR_PROFILE_CAP))
  | .PWR_CFG_PAD_FLOOR => min v 4096
  | .PWR_THERM_SEL_SENSOR => min v 36
  | _ => v

/-! Register files of a cell (CELL_REG_DATA, R154). -/

/-- A loop level in the layout of CELL_REG_DATA: level 0 is the outermost. DESIGN CHOICE (notes/assumptions/102.md): the
iterations left show modulo 4,096. -/
def State.loopWord (s : State) (cell k : Nat) : Nat :=
  match (s.loopsOf cell).reverse[k]? with
  | some l => l.body % 4096 + l.left % 4096 * 2 ^ 12 + l.start % 2 ^ 15 * 2 ^ 24 + 2 ^ 39
  | none => 0

/-- The register that a cell's CELL_REG_SEL names; zero while the sequencer runs or holds. -/
def State.regData (s : State) (cell : Nat) : Nat :=
  let k := s.get .CELL_REG_SEL_INDEX cell
  let st := s.get .CELL_SEQ_STATUS_STATE cell
  if st = 1 ∨ st = 2 then 0
  else match s.get .CELL_REG_SEL_FILE cell with
    | 0 => bits (s.vReg cell k) (32 * s.get .CELL_REG_SEL_LANE cell) 32
    | 1 => s.sReg cell k
    | 2 => s.mReg cell k
    | 3 => s.aReg cell k
    | _ => s.loopWord cell k

/-- One register of a cell takes a value, as CELL_REG_DATA and presets of kind 0 write it: file 0 is a V lane. -/
def putReg (cell file k lane v : Nat) : Plan := fun s =>
  match file with
  | 0 => setV cell k (putBits (s.vReg cell k) (32 * lane) 32 (v % 2 ^ 32))
  | 1 => setS cell k v
  | 2 => setM cell k v
  | _ => setA cell k (v % 2 ^ 48)

/-- A write of loop state: an active level replaces that level or opens the next one, an inactive one ends that level and
those inside it (notes/assumptions/60.md). -/
def putLoop (cell k v : Nat) : Plan := fun s =>
  let ls := (s.loopsOf cell).reverse
  let x : Loop := { body := bits v 0 12, left := bits v 12 12, start := bits v 24 15, iter := (ls[k]?.map (·.iter)).getD 0 }
  if v.testBit 39 then (if k < ls.length then setLoops cell (ls.set k x).reverse
    else if k = ls.length then setLoops cell (x :: s.loopsOf cell) else [])
  else setLoops cell (ls.take k).reverse

/-- A write of CELL_REG_DATA. -/
def writeRegData (cell v : Nat) : Plan := fun s =>
  let k := s.get .CELL_REG_SEL_INDEX cell
  let file := s.get .CELL_REG_SEL_FILE cell
  let st := s.get .CELL_SEQ_STATUS_STATE cell
  if st = 1 ∨ st = 2 then []
  else if file = 4 then putLoop cell k v s
  else putReg cell file k (s.get .CELL_REG_SEL_LANE cell) v s

/-- The classes that may be resized while the module runs (R83). -/
def resizable : List Nat := [1, 6, 7, 8]

/-- Whether the register tables ignore a write of a field now. -/
def State.ignoresWrite (s : State) (f : Fld) (i : Nat) : Bool :=
  match f with
  | .BEAT_START_STEP_STEP | .SPRING_OPEN_BASE_BASE | .COLL_JOIN_REJOIN => !s.stopped
  | .CLAY_SRC_BASE | .CLAY_SRC_LEN_LENGTH =>
    let l := s.get .CLAY_STATUS_LOAD_STATE
    decide (1 ≤ l ∧ l ≤ 3)
  | .CLAY_FLIP_BEAT_BEAT => s.get .CLAY_STATUS_ARMED == 1
  | .ERR_SCRUB_BASE_LINE => s.get .ERR_STATUS_SCRUB_STATE == 1
  | .TIER_CLASS_REGION_BASE | .TIER_CLASS_REGION_SIZE => !resizable.contains (i / 256)
  | .CELL_RS_CFG_FMT | .CELL_RS_CFG_MARGIN | .CELL_RS_CFG_HOLD_EXP | .CELL_RS_CFG_EXP =>
    s.get .CELL_RS_CFG_ACTIVE i == 0
  | .XPORT_SVC_ADDR_HI_ADDR | .XPORT_SVC_ADDR_LO_ADDR => s.get .XPORT_EP_SEL_SVC == 0
  | _ => false

/-- A field of access code RW takes a written value under its clamping rule (R15). -/
def writeRw (f : Fld) (i v : Nat) : Plan := fun s =>
  if s.ignoresWrite f i then []
  else match f with
    | .CELL_REG_DATA_DATA => writeRegData i v s
    | .SPRING_EPOCH_EPOCH => planEpoch v s
    | .FMP_MGMT_ADDR_LO_ADDR =>
      [setF f v i, .boot (fun b => { b with addrHi := s.get .FMP_MGMT_ADDR_HI_ADDR, addrLo := v })]
    | _ => [setF f (s.clampF f i v) i]

/-! Commits. -/

/-- The RWS fields of one register: its block (CLAY_COMMIT_GROUP's bit), how many instances one commit field covers (0:
all of them), and its fields in the order of their bits. -/
structure RwsReg where
  block : Nat
  per   : Nat
  flds  : List Fld
  deriving DecidableEq, Repr

/-- The registers with RWS fields, in the order in which a boundary commits them. -/
def rwsRegs : List RwsReg := [
  ⟨0, 0, [.TIER_CLASS_REGION_BASE, .TIER_CLASS_REGION_SIZE]⟩,
  ⟨1, 64, [.CELL_RS_CFG_FMT, .CELL_RS_CFG_MARGIN, .CELL_RS_CFG_HOLD_EXP, .CELL_RS_CFG_EXP]⟩,
  ⟨2, 1, [.EMB_HOT_CFG_ADMIT_THRESHOLD, .EMB_HOT_CFG_DECAY_BEATS]⟩,
  ⟨2, 1, [.EMB_DRIFT_POLICY_ENABLE, .EMB_DRIFT_POLICY_IMBALANCE, .EMB_DRIFT_POLICY_MAX_MOVES]⟩,
  ⟨2, 256, [.EMB_WORK_ITEM]⟩,
  ⟨3, 1, [.SILT_MERGE_BASE, .SILT_MERGE_SIZE]⟩,
  ⟨3, 64, [.SILT_WORK_ITEM]⟩,
  ⟨4, 0, [.SPRING_CFG_DURABLE_MODE, .SPRING_CFG_ACK_TIMEOUT, .SPRING_CFG_LG_BUDGET]⟩,
  ⟨4, 0, [.SPRING_DENSE_OWNERS_OWNERS]⟩,
  ⟨5, 1, [.SEQ_CFG_KEY_FMT, .SEQ_CFG_VAL_FMT, .SEQ_CFG_MUL_FMT, .SEQ_CFG_IN_FMT, .SEQ_CFG_LAYERS_M1, .SEQ_CFG_WIDTH,
    .SEQ_CFG_ENABLE]⟩,
  ⟨5, 1024, [.SEQ_KEXP_KEXP]⟩,
  ⟨6, 0, [.COLL_CFG_LEASE_BEATS, .COLL_CFG_PERM_WINDOW, .COLL_CFG_QRECV_CLK]⟩,
  ⟨6, 0, [.COLL_DIR_BASE, .COLL_DIR_COUNT]⟩,
  ⟨6, 0, [.COLL_WORK_ITEM]⟩,
  ⟨7, 1, [.PORT_CFG_ENABLE, .PORT_CFG_MODE, .PORT_CFG_LANE_EXCLUDE]⟩,
  ⟨8, 0, [.XPORT_CFG_GT_UDP_PORT, .XPORT_CFG_RX_WINDOW, .XPORT_CFG_CHANNELS_M1, .XPORT_CFG_ACK_CLK,
    .XPORT_CFG_RTO_CLK]⟩,
  ⟨8, 0, [.XPORT_SVC_ADDR_HI_ADDR]⟩,
  ⟨8, 0, [.XPORT_SVC_ADDR_LO_ADDR]⟩,
  ⟨8, 0, [.XPORT_EP_CFG_KIND, .XPORT_EP_CFG_WATCH]⟩,
  ⟨8, 0, [.XPORT_INGEST_MAP_QUEUE_A, .XPORT_INGEST_MAP_VALID_A, .XPORT_INGEST_MAP_MASK_A, .XPORT_INGEST_MAP_QUEUE_B,
    .XPORT_INGEST_MAP_VALID_B, .XPORT_INGEST_MAP_MASK_B]⟩,
  ⟨10, 0, [.FMP_CFG_UDP_PORT, .FMP_CFG_IDLE_S, .FMP_CFG_SOUNDINGS, .FMP_CFG_EVENTS]⟩,
  ⟨10, 0, [.FMP_RING_CFG_ENABLE, .FMP_RING_CFG_LOG2_ENTRIES, .FMP_RING_CFG_BASE]⟩,
  ⟨11, 0, [.PWR_CFG_CAP, .PWR_CFG_PAD_FLOOR]⟩]

/-- The register of an RWS field. -/
def rwsRegOf (f : Fld) : Option RwsReg := rwsRegs.find? (fun r => r.flds.contains f)

/-- The unit of an instance: what one commit field covers. -/
def RwsReg.unit (r : RwsReg) (i : Nat) : Nat := if r.per = 0 then 0 else i / r.per

/-- The instances of a register that a write has shadowed since its last commit, ascending. -/
def State.shadowed (s : State) (r : RwsReg) : List Nat :=
  ((s.shadows.filter (fun p => r.flds.any (fun f => p.1 % 1024 == f.ctorIdx))).map (fun p => p.1 / 1024)).eraseDups

/-- The committed fields become active, each clamped (R187), and are noted so that no preset of the boundary's flip sets
them (R181). -/
def landFields (r : RwsReg) (i : Nat) : Plan :=
  planEach r.flds (fun f s =>
    [setF f (s.clampF f i (s.shadowOf f i)) i, .unshadow f i,
     .clay (fun c => { c with landed := fkey f i :: c.landed })])

/-- The shadow values go: the register keeps its active ones. -/
def keepFields (r : RwsReg) (i : Nat) : Plan := fun _ => r.flds.map (fun f => Upd.unshadow f i)

/-- Bytes of HBM that a resizable class holds, as address and length (R83). -/
def State.classHeld (s : State) (cls inst : Nat) : List (Nat × Nat) :=
  if cls = 1 then
    (s.cells.stash.filter (fun b => b.spilled && cellDie b.cell == inst)).map (fun b => (s.stashDpa inst b.frame, 4096))
  else if cls = 6 then (s.takenFrames.filter (fun f => f.2.1 == 1)).map (fun f => s.frameSpan f.1 1 f.2.2)
  else if cls = 7 then s.spring.ring.map (fun r => (r.addr, r.len))
  else if s.heldBytes = 0 then [] else [((s.region 8 0).1 * 65536, s.heldBytes)]

/-- The active regions of the other HBM classes: base and bytes. -/
def State.otherHbm (s : State) (cls : Nat) : List (Nat × Nat) :=
  ((s.listed .TIER_CLASS_REGION_SIZE).filter (fun i => i / 256 != cls && hbmClass (i / 256))).map (fun i =>
    (s.get .TIER_CLASS_REGION_BASE i * 65536, s.get .TIER_CLASS_REGION_SIZE i * 65536))

/-- Whether R83 accepts a region of a class instance. Page frames of KV_H keep their addresses only where the base moves
by whole frames (notes/assumptions/59.md). -/
def State.acceptsRegion (s : State) (cls inst base size : Nat) : Bool :=
  let a := base * 65536
  let n := size * 65536
  let held := s.classHeld cls inst
  let old := (s.region cls inst).1 * 65536
  (a + n ≤ 0x010000000000 || (0x010000000000 ≤ a && a + n ≤ 0x020000000000)) &&
  !(s.otherHbm cls).any (fun r => hbmOverlap a n r.1 r.2) &&
  held.all (fun r => a ≤ r.1 && r.1 + r.2 ≤ a + n) &&
  (cls != 6 || held.isEmpty || (List.range 2).all (fun die =>
    !(s.takenFrames.any (fun f => f.1 == die && f.2.1 == 1)) || (max a old - min a old) % s.kvPB die == 0))

/-- Frame numbers and offsets of a class follow its base, so that every byte held stays at its address. -/
def rebaseClass (cls inst old new : Nat) : Plan := fun s =>
  let mv := fun (x unit : Nat) => (x + old / unit) - new / unit
  if cls = 1 then [mapBlk (fun b => b.spilled && cellDie b.cell == inst) (fun b => { b with frame := mv b.frame 4096 })]
  else if cls = 6 then
    let fr := fun (die f : Nat) => (f * s.kvPB die + old - new) / s.kvPB die
    plans [
      planEach (s.kv.used.filter (fun u => s.kvTier u.1 u.2.1 == 1)) (fun u s' =>
        setPlace u.1 u.2.1 1 (fr u.1 (s.kvFrame u.1 u.2.1)) s'),
      fun _ => [.kv (fun k => { k with
        frames := k.frames.map (fun f => if f.2.1 = 1 then (f.1, 1, fr f.1 f.2.2) else f)
        moves := k.moves.map (fun m => if m.tier = 1 then { m with frame := fr m.die m.frame } else m)
        vac := k.vac.map (fun v => if v.tier = 1 then { v with frame := fr v.die v.frame } else v) })]] s
  else []

/-- A class region commits (R83). -/
def landRegion (r : RwsReg) (i : Nat) : Plan := fun s =>
  let base := s.shadowOf .TIER_CLASS_REGION_BASE i
  let size := s.shadowOf .TIER_CLASS_REGION_SIZE i
  let old := (s.region (i / 256) (i % 256)).1
  if s.acceptsRegion (i / 256) (i % 256) base size then
    plans [rebaseClass (i / 256) (i % 256) (old * 65536) (base * 65536), landFields r i, noteFixed i size,
      if i / 256 = 6 then planEach (List.range 2) noteStore else fun _ => []] s
  else plans [keepFields r i, fun _ => [setF .TIER_STATUS_COMMIT_KEPT 1, setF .TIER_STATUS_KEPT_CLASS (i / 256)]] s

/-- A merge area commits (R245): cut to what is legal, and kept where it would move or shrink under a contribution. -/
def landMerge (r : RwsReg) (i : Nat) : Plan := fun s =>
  let base := s.shadowOf .SILT_MERGE_BASE i
  let size := s.legalMerge i base (s.shadowOf .SILT_MERGE_SIZE i)
  if s.silt.contribs.any (fun c => c.stack == i) &&
      (base != s.get .SILT_MERGE_BASE i || decide (size < s.get .SILT_MERGE_SIZE i)) then
    plans [keepFields r i, fun _ => [setF .SILT_STATUS_COMMIT_KEPT 1 i]] s
  else plans [landFields r i, fun _ => [setF .SILT_MERGE_SIZE size i]] s

/-- A commit keeps a die's active SEQ configuration. -/
def keepSeq (die : Nat) : Plan := fun _ => [setF .SEQ_STATUS_COMMIT_KEPT 1 die]

/-- SEQ_CFG commits (R311, R313). -/
def landSeqCfg (r : RwsReg) (i : Nat) : Plan := fun s =>
  let v := fun f => s.clampF f i (s.shadowOf f i)
  if !mulContains (v .SEQ_CFG_MUL_FMT) (v .SEQ_CFG_KEY_FMT) then
    plans [keepFields r i, keepSeq i, fun _ => [setF .SEQ_STATUS_REJECTED 1 i]] s
  else if s.kv.used.any (fun u => u.1 == i) &&
      (r.flds.filter (· != .SEQ_CFG_ENABLE)).any (fun f => v f != s.get f i) then
    plans [keepFields r i, keepSeq i, fun _ => [setF .SEQ_CFG_ENABLE (v .SEQ_CFG_ENABLE) i,
      .clay (fun c => { c with landed := fkey .SEQ_CFG_ENABLE i :: c.landed })], noteStore i] s
  else plans [landFields r i, reclampKexps i, noteStore i] s

/-- SEQ_KEXP commits (R313): kept where a page of its layer is LIVE or in quarantine. -/
def landKexp (r : RwsReg) (i : Nat) : Plan := fun s =>
  if s.kv.used.any (fun u => u.1 == i / 1024 && u.2.2 == i % 1024 / 128) &&
      s.clampKexps (i / 1024) (s.shadowOf .SEQ_KEXP_KEXP i) != s.get .SEQ_KEXP_KEXP i then
    plans [keepFields r i, keepSeq (i / 1024)] s
  else landFields r i s

/-- COLL_DIR commits, unless a CHAIN hop or a GATHER is in progress (R357). -/
def landDir (r : RwsReg) (i : Nat) : Plan := fun s =>
  if s.dirBusy then plans [keepFields r i, fun _ => [setF .COLL_STATUS_COMMIT_KEPT 1]] s else landFields r i s

/-- PORT_CFG commits (R378). -/
def landPort (r : RwsReg) (i : Nat) : Plan := fun s =>
  plans [keepFields r i,
    portConfig i (s.shadowOf .PORT_CFG_ENABLE i) (s.shadowOf .PORT_CFG_MODE i) (s.shadowOf .PORT_CFG_LANE_EXCLUDE i),
    fun _ => [.clay (fun c => { c with landed := r.flds.map (fun f => fkey f i) ++ c.landed })]] s

/-- A service entry's address as 16 bytes in network order lies under the job prefix (R370). -/
def State.inPrefix (s : State) (hi lo : Nat) : Bool :=
  hi == s.get .PORT_FWD_PREFIX_HI_PREFIX && lo % 2 ^ 48 == s.get .PORT_FWD_PREFIX_LO_PREFIX

/-- An endpoint's kind commits: a service entry with an address inside the job prefix is taken as NONE (R386). -/
def landEp (r : RwsReg) (i : Nat) : Plan :=
  plans [landFields r i, fun s =>
    if i ≥ 65536 && s.inPrefix (s.get .XPORT_SVC_ADDR_HI_ADDR i) (s.get .XPORT_SVC_ADDR_LO_ADDR i) then
      [setF .XPORT_EP_CFG_KIND 0 i]
    else []]

/-- The DPA of a ring, and its bytes: descriptors, then completion entries (R454). -/
def ringArea (base log2 : Nat) : Nat × Nat := (base * 4096, 80 * 2 ^ log2)

/-- Whether an area lies wholly in the active RING region. -/
def State.ringFits (s : State) (base log2 : Nat) : Bool :=
  let (a, n) := ringArea base log2
  s.inRegion 11 0 a n

/-- A ring stops being served. -/
def disableRing (i : Nat) : Plan := fun _ =>
  [setF .FMP_RING_CFG_ENABLE 0 i, setF .FMP_RING_STATS_STATE 0 i,
   .fmp (fun x => { x with rings := Sparse.set {} x.rings i {} })]

/-- FMP_RING_CFG commits (R454). -/
def landRing (r : RwsReg) (i : Nat) : Plan := fun s =>
  let n := s.clampF .FMP_RING_CFG_LOG2_ENTRIES i (s.shadowOf .FMP_RING_CFG_LOG2_ENTRIES i)
  let b := s.shadowOf .FMP_RING_CFG_BASE i
  let was := s.get .FMP_RING_CFG_ENABLE i
  if s.get .FMP_RING_STATE_HEAD i ≠ s.get .FMP_RING_STATE_TAIL i ∧
      (n ≠ s.get .FMP_RING_CFG_LOG2_ENTRIES i ∨ b ≠ s.get .FMP_RING_CFG_BASE i) then
    plans [keepFields r i, fun _ => [setF .FMP_STATUS_COMMIT_KEPT 1]] s
  else
    plans [landFields r i, fun s' =>
      if s'.get .FMP_RING_CFG_ENABLE i = 0 ∨ !s'.ringFits b n then disableRing i s'
      else if was = 1 then []
      else [setF .FMP_RING_STATE_HEAD 0 i, setF .FMP_RING_STATE_TAIL 0 i, setF .FMP_RING_STATS_STATE 1 i]] s

/-- FMP_CFG commits, and the configuration store records the port and the idle limit (R433, R463). -/
def landFmp (r : RwsReg) (i : Nat) : Plan :=
  plans [landFields r i, fun s => [.boot (fun b => { b with
    udp := s.get .FMP_CFG_UDP_PORT, idle := s.get .FMP_CFG_IDLE_S })]]

/-- One register instance commits, by the acceptance rule of its register. -/
def landReg (r : RwsReg) (i : Nat) : Plan :=
  match r.flds with
  | .TIER_CLASS_REGION_BASE :: _ => landRegion r i
  | .SILT_MERGE_BASE :: _ => landMerge r i
  | .SEQ_CFG_KEY_FMT :: _ => landSeqCfg r i
  | .SEQ_KEXP_KEXP :: _ => landKexp r i
  | .COLL_DIR_BASE :: _ => landDir r i
  | .PORT_CFG_ENABLE :: _ => landPort r i
  | .XPORT_EP_CFG_KIND :: _ | .XPORT_SVC_ADDR_HI_ADDR :: _ | .XPORT_SVC_ADDR_LO_ADDR :: _ => landEp r i
  | .FMP_CFG_UDP_PORT :: _ => landFmp r i
  | .FMP_RING_CFG_ENABLE :: _ => landRing r i
  | _ => landFields r i

/-- The field or variable that holds a block's pending commit. -/
def commitFlag (block unit : Nat) : State → Bool := fun s =>
  match block with
  | 0 => s.get .TIER_STATUS_COMMIT_PENDING == 1
  | 1 => s.var .cellCommit unit == 1
  | 2 => s.get .EMB_STATUS_COMMIT_PENDING unit == 1
  | 3 => s.get .SILT_STATUS_COMMIT_PENDING unit == 1
  | 4 => s.get .SPRING_STATUS_COMMIT_PENDING == 1
  | 5 => s.get .SEQ_STATUS_COMMIT_PENDING unit == 1
  | 6 => s.get .COLL_STATUS_COMMIT_PENDING == 1
  | 7 => s.get .PORT_STATUS_COMMIT_PENDING unit == 1
  | 8 => s.get .XPORT_STATUS_COMMIT_PENDING == 1
  | 10 => s.get .FMP_STATUS_COMMIT_PENDING == 1
  | 11 => s.get .PWR_STATUS_COMMIT_PENDING == 1
  | _ => false

/-- A block's commit pends, or no longer does. -/
def setCommit (block unit v : Nat) : List Upd :=
  match block with
  | 0 => [setF .TIER_STATUS_COMMIT_PENDING v]
  | 1 => [.var .cellCommit unit v]
  | 2 => [setF .EMB_STATUS_COMMIT_PENDING v unit]
  | 3 => [setF .SILT_STATUS_COMMIT_PENDING v unit]
  | 4 => [setF .SPRING_STATUS_COMMIT_PENDING v]
  | 5 => [setF .SEQ_STATUS_COMMIT_PENDING v unit]
  | 6 => [setF .COLL_STATUS_COMMIT_PENDING v]
  | 7 => [setF .PORT_STATUS_COMMIT_PENDING v unit]
  | 8 => [setF .XPORT_STATUS_COMMIT_PENDING v]
  | 10 => [setF .FMP_STATUS_COMMIT_PENDING v]
  | 11 => [setF .PWR_STATUS_COMMIT_PENDING v]
  | _ => []

/-- How many units of a block have a commit field of their own (R187). -/
def commitUnits (block : Nat) : Nat := [1, 144, 2, 16, 1, 2, 1, 16, 1, 0, 1, 1].getD block 0

/-- The shadow values of one unit of a block become active, register by register. -/
def applyCommit (block unit : Nat) : Plan := planIf (commitFlag block unit)
  (plans ((rwsRegs.filter (fun r => r.block == block)).map (fun r => fun s =>
      planEach ((s.shadowed r).filter (fun i => r.unit i == unit)) (landReg r) s) ++
    [fun _ => setCommit block unit 0]))

/-- The commits of a boundary (R22, clk 0), block by block. -/
def boundaryCommits : Plan :=
  planEach (List.range 12) (fun b => planEach (List.range (commitUnits b)) (applyCommit b))

/-- A commit field is written: the commit waits for its boundary; those of FMP and PWR act at once in STOPPED (R463,
R488). A unit that its block does not have has no commit. -/
def writeCommit (block unit : Nat) : Plan :=
  planIf (fun _ => decide (unit < commitUnits block))
    (plans [fun _ => setCommit block unit 1,
      planIf (fun s => s.stopped && decide (block ≥ 10)) (applyCommit block unit)])

/-- A RWS field of an instance takes a written value in its shadow copy. -/
def writeShadow (f : Fld) (i v : Nat) : Plan := planIf (fun s => !s.ignoresWrite f i) (fun _ => [.shadow f i v])

end Sys2Proof.Machine
end

