-- ==== Sys2Proof/Machine/Tier.lean ====
section
/-!
DEFINITION. The tiers' own commands: the flush of dirty hot copies (R89), the commit of class regions (R83), and what the
TIER registers latch at a boundary (R97).
-/
namespace Sys2Proof.Machine

/-- The dirty hot copies of a die, as die and key. -/
def State.dirtyCopies (s : State) (die : Nat) : List (Nat × Nat) :=
  ((List.range (s.hotSize die)).filter (fun k => hotValid (s.hotWord die k) && hotDirty (s.hotWord die k))).map (fun k =>
    (die, s.hotKey die k))

/-- HOT_FLUSH (R89): in RUNNING it covers the copies that are dirty now; in HOLD and STOPPED it covers those that are dirty
once no lane has an update in flight. -/
def planHotFlush : Plan := fun s =>
  setF .TIER_STATUS_HOT_FLUSH_BUSY 1 ::
  (if s.running then
    let now := s.dirtyCopies 0 ++ s.dirtyCopies 1
    [.rows (fun r => { r with flush := r.flush ++ now.filter (fun c => !r.flush.contains c) })]
   else [.var .flushWait 0 1])

/-- A covered copy that is still dirty is written back. -/
def flushCopy (c : Nat × Nat) : Plan := fun s =>
  match s.hotFind c.1 c.2, s.table (keyTable c.2) with
  | some k, some t => match s.hotOwner c.1 t c.2 with
    | some (st, p) => hotWriteback c.1 k st t c.2 p s
    | none => []
  | _, _ => []

/-- Every dirty copy of a die is written back, as a flush writes it. -/
def flushDie (die : Nat) : Plan := fun s => planEach (s.dirtyCopies die) flushCopy s

/-- The last covered copy is written back (R89). -/
def planFlushDone : Plan := fun s =>
  if s.get .TIER_STATUS_HOT_FLUSH_BUSY = 0 ∨ (s.var .flushWait = 1 ∧ !s.rows.log.isEmpty) then []
  else
    plans [planEach s.rows.flush flushCopy,
      planIf (fun s' => s'.var .flushWait == 1) (plans [flushDie 0, flushDie 1]),
      fun _ => [setF .TIER_STATUS_HOT_FLUSH_BUSY 0, .var .flushWait 0 0, .rows (fun r => { r with flush := [] })]] s

/-- Bytes that a class holds of a region that fills and empties. -/
def State.classBytes (s : State) (cls inst : Nat) : Nat :=
  let sum := fun (l : List (Nat × Nat)) => (l.map Prod.snd).foldl (· + ·) 0
  match cls with
  | 0 => 4096 * (s.cells.stash.filter (fun b => !b.spilled && b.cell == inst)).length
  | 4 => 272 * ((List.range (s.hotSize inst)).filter (fun k => hotValid (s.hotWord inst k))).length
  | 5 => s.kvPB inst * (s.takenFrames.filter (fun f => f.1 == inst && f.2.1 == 0)).length
  | _ => sum (s.classHeld cls inst)

/-- IN_USE of a class instance: the classes whose contents are fixed count whole. -/
def State.classUse (s : State) (cls inst : Nat) : Nat :=
  if fillsClass cls then cdiv (s.classBytes cls inst) (classUnit cls) else (s.region cls inst).2

/-- What the TIER registers latch at clk 3 (R97). -/
def tierLatch : Plan := fun s =>
  (((s.listed .TIER_CLASS_REGION_SIZE ++ s.listed .TIER_CLASS_USE_IN_USE).eraseDups).map (fun i =>
    let n := s.classUse (i / 256) (i % 256)
    [setF .TIER_CLASS_USE_IN_USE n i, setF .TIER_CLASS_USE_PEAK (max n (s.get .TIER_CLASS_USE_PEAK i)) i])).flatten ++
  ((s.listedVar .tarnStall ++ s.listed .TIER_BANK_STALL_LAST_BEAT).eraseDups.map (fun i =>
    [setF .TIER_BANK_STALL_LAST_BEAT (min 65535 (s.var .tarnStall i)) i, .var .tarnStall i 0])).flatten

/-- TIER_COMMIT (R83). -/
def execTierCommit := answer (writeCommit 0 0)
/-- HOT_FLUSH (R89). -/
def execHotFlush := answer planHotFlush
/-- HOT_FLUSH_DONE (R89). -/
def execHotFlushDone := answer planFlushDone

end Sys2Proof.Machine
end

