-- ==== Sys2Proof/Machine/Flip.lean ====
section
/-!
DEFINITION. The command engine: loading a Clay image (R172 to R177, R186), flips (R178 to R185), activation in HOLD and
STOPPED (R188), and what every unit does when an image becomes active.
-/
namespace Sys2Proof.Machine

/-- An internal variable is 0 everywhere. -/
def clearVar (v : Var) : Plan := fun s => (s.listedVar v).map (fun i => Upd.var v i 0)

/-- A field has its reset value everywhere. -/
def clearField (f : Fld) : Plan := fun s => (s.listed f).map (fun i => Upd.reg f i f.reset)

/-! What activation does, unit by unit. -/

/-- Micro-batches in flight are dropped (R31, R182): counted, and what units hold of them goes. -/
def dropFlipMbs : Plan := fun s =>
  let ks := (List.range 8).filter s.mbInFlight
  s.addF .CLAY_FLIP_DISCARD_MB_DROPPED ks.length ::
  (if ks.isEmpty then [] else [cutAdd (s.get .BEAT_STEP_STEP) (fun c => { c with mbDrop := c.mbDrop + ks.length })]) ++
  ks.map (fun k => Upd.var .mbDropped k 1) ++
  [.cells (fun c => { c with stash := [] }),
   .emb (fun e => { e with
     mbs := e.mbs.filter (fun m => !ks.contains m.slot)
     subs := e.subs.filter (fun b => !ks.contains b.slot)
     fetched := e.fetched.filter (fun f => !ks.contains f.slot) })]

/-- Slices end, and with an activation out of RUNNING every sequencer idles. -/
def endSlices (live : Bool) : Plan := plans [
  clearVar .mbIssued, clearVar .mbRetired, clearVar .mbRecompute, clearVar .seqRestart,
  fun _ => [.slices (fun _ => []), .emb (fun e => { e with bag := [] }), .silt (fun x => { x with quota := [] })],
  if live then fun _ => []
  else plans [
    clearField .CELL_SEQ_STATUS_STATE, clearField .CELL_SEQ_STATUS_SLOT, clearField .CELL_SEQ_STATUS_DROPPED,
    clearField .CELL_SEQ_STATUS_HOLD_REASON, clearField .CELL_SEQ_STATUS_LOOP_DEPTH,
    fun _ => [.cells (fun c => { c with loops := [], held := [], fills := [] })]]]

/-- Tokens and credits that an activation discards of one queue (R39, R188): out of RUNNING also those in flight. -/
def discards (live : Bool) (gen : Nat) (q : Queue) : Nat :=
  q.buf.length + (if live then tagCount gen (q.flight.map Prod.snd) + tagCount gen q.back else q.flight.length + q.back.length)

/-- Queues take the depths and the generation of an image, and producers are re-credited (R36, R39, R180, R188). What units
hold for credit, what they have taken in of a request or a record, and the credits that no QCREDIT has reported go with their
tokens. -/
def recredit (n : Image) (live : Bool) : Plan := fun s =>
  let gen := recGet n.hdr 24 4 % 16
  let ids := (s.queues.map Prod.fst ++ (n.sec 3).map (fun r => recGet r 0 2)).eraseDups
  let held := (s.xport.outbox.map (fun o => o.2.length)).foldl (· + ·) 0 +
    ((s.listedVar .qReport).map (fun q => s.var .qReport q)).foldl (· + ·) 0
  let lost := (ids.map (fun q => discards live gen (s.queue q))).foldl (· + ·) 0
  s.addF .CLAY_FLIP_DISCARD_COUNT (lost + held) ::
  ids.map (fun q => match n.queueRec q with
    | some r => Upd.queue q (.recredit (recGet r 2 2) gen (recGet r 4 1 != 5 || recGet r 6 2 == 0xFFFF) live)
    | none => .queue q (.remove live)) ++
  [.xport (fun x => { x with outbox := [], gsr := (x.gsr.map (fun g => (g.1, { g.2 with going := [] }))).filter (·.2 != {}) }),
   .kv (fun k => { k with apps := [] }), .spring (fun x => { x with dense := [] })] ++
  clearVar .qOwed s ++ clearVar .qReport s ++ clearVar .qHeldAt s

/-- Tiles are +0 and their tokens free (R122). -/
def clearTiles : Plan := plans [
  clearField .CELL_ARRAY_STATUS_KEPT, clearField .CELL_ARRAY_STATUS_BUSY, clearField .CELL_ARRAY_STATUS_WAITING,
  fun _ => [.cells (fun c => { c with tiles := [], aops := [] })]]

/-- The SCALE_TABLES record that declares an entry of a cell: its own, before one for every cell of the image (R169). -/
def Image.scaleRec (i : Image) (cell e : Nat) : Option Nat :=
  if !i.usesCell cell then none
  else
    let rs := (i.sec 0xC).filter (fun r => recGet r 1 1 == e)
    (rs.find? (fun r => recGet r 0 1 == cell)).orElse (fun _ => rs.find? (fun r => recGet r 0 1 == 0xFF))

/-- The rescale entries that an image declares, as instances of their fields. -/
def Image.scaleEntries (i : Image) : List Nat :=
  (((i.sec 0xC).map (fun r =>
    let cells := if recGet r 0 1 = 0xFF then maskCells (recGet i.hdr 84 18) else [recGet r 0 1]
    (cells.filter i.usesCell).map (fun c => rsIdx c (recGet r 1 1)))).flatten).eraseDups

/-- A rescale entry takes its preset (R124, R169), or becomes inactive. -/
def presetEntry (n : Image) (x : Nat) : Plan := fun s =>
  let drop := [Fld.CELL_RS_CFG_FMT, .CELL_RS_CFG_MARGIN, .CELL_RS_CFG_HOLD_EXP, .CELL_RS_CFG_EXP].map (fun f => Upd.unshadow f x)
  match n.scaleRec (x / 64) (x % 64) with
  | none => setF .CELL_RS_CFG_ACTIVE 0 x :: drop
  | some r =>
    drop ++ [setF .CELL_RS_CFG_ACTIVE 1 x, setF .CELL_RS_CFG_FMT (b2n (r.testBit 16)) x,
      setF .CELL_RS_CFG_HOLD_EXP (b2n (r.testBit 17)) x, setF .CELL_RS_CFG_MARGIN (min 15 (recGet r 3 1)) x] ++
    (if r.testBit 18 then []
     else [setF .CELL_RS_CFG_EXP (s.clampF .CELL_RS_CFG_EXP x (recGet r 4 1)) x, setF .CELL_RS_AMAX_CUR_AMAX 0 x,
        setF .CELL_RS_AMAX_H 0 x, setF .CELL_RS_HIST_NEXT 0 x] ++
      (List.range 16).map (fun h => setF .CELL_RS_HIST_VALUE 0 (x * 16 + h)))

/-- Every entry that the old or the new image declares. -/
def presetEntries (n : Image) : Plan := fun s => planEach ((s.rsEntries ++ n.scaleEntries).eraseDups) (presetEntry n) s

/-- Weight-stream slots are EMPTY (notes/assumptions/61.md). -/
def clearStreams : Plan := plans [
  clearField .TIER_STREAM_READY, clearField .TIER_STREAM_FILLING, clearVar .streamPos, clearVar .slotLayer,
  clearVar .slotFilled, clearVar .slotRelease, fun _ => [.cells (fun c => { c with fills := [] })]]

/-- Cells take their programs (R158, R162). -/
def placePrograms (n : Image) : Plan := plans [
  clearField .CELL_SEQ_PROG_LENGTH, clearField .CELL_SEQ_PROG_BASE,
  fun _ => (n.progs.map (fun p => [setF .CELL_SEQ_PROG_BASE (p.2.1 / 64) p.1, setF .CELL_SEQ_PROG_LENGTH p.2.2 p.1])).flatten]

/-- Class regions take their sizes (R80, R81). -/
def placeRegions (n : Image) : Plan := fun s =>
  let rs := n.regions
  let idx := (s.listed .TIER_CLASS_REGION_SIZE ++ s.listed .TIER_CLASS_REGION_BASE).eraseDups
  (idx.map (fun i => setF .TIER_CLASS_REGION_BASE 0 i :: setF .TIER_CLASS_REGION_SIZE 0 i :: noteFixed i 0 s)).flatten ++
  (resizable.map (fun c => (List.range 2).map (fun i =>
    [Upd.unshadow .TIER_CLASS_REGION_BASE (c * 256 + i), .unshadow .TIER_CLASS_REGION_SIZE (c * 256 + i)]))).flatten.flatten ++
  (rs.map (fun r => setF .TIER_CLASS_REGION_BASE r.2.2.1 (r.1 * 256 + r.2.1) ::
    setF .TIER_CLASS_REGION_SIZE r.2.2.2 (r.1 * 256 + r.2.1) :: noteFixed (r.1 * 256 + r.2.1) r.2.2.2 s)).flatten

/-- Dies whose HOT region an image moves. -/
def State.hotMoved (s : State) (n : Image) : List Nat :=
  (List.range 2).filter (fun d => s.region 4 d != regionIn n.regions 4 d)

/-- A new HOT region holds no copy. -/
def emptyHot (die : Nat) : Plan := fun s =>
  planEach ((List.range (s.hotSize die)).filter (fun k => hotValid (s.hotWord die k))) (dropHot die) s

/-- A preset sets the register at an address (R163): its RW fields and both copies of its RWS fields, but for the fields
that a commit has set at this boundary (R181). -/
def presetReg (landed : List Nat) (addr v : Nat) : Plan := fun s =>
  match findReg regTable addr with
  | none => []
  | some (r, i1, i2) =>
    let i := i1 * r.n2 + i2
    plans [planEach r.fields (fun f s' =>
        let x := s'.fldInst r.sel f i
        let w := bits v f.lo f.fld.width
        if landed.contains (fkey f.fld x) then []
        else if f.acc = .rw then writeRw f.fld x w s'
        else if f.acc = .rws ∨ (f.acc = .rwsClass ∧ resizable.contains (x / 256)) then [.shadow f.fld x w]
        else []),
      fun s' => match r.fields.find? (fun f => f.acc == .rws || f.acc == .rwsClass) with
        | none => []
        | some f => match rwsRegOf f.fld with
          | none => []
          | some g =>
            let x := s'.fldInst r.sel f i
            if (g.flds.map (fun y => fkey y x)).all landed.contains then []
            else match g.flds with
              | .SILT_MERGE_BASE :: _ | .SEQ_CFG_KEY_FMT :: _ | .SEQ_KEXP_KEXP :: _ | .COLL_DIR_BASE :: _ => landFields g x s'
              | _ => landReg g x s'] s

/-- The presets of an image apply in order (R163, R180). -/
def applyPresets (n : Image) : Plan := fun s =>
  let landed := s.clay.landed
  planEach (n.sec 6) (fun r =>
    if recGet r 0 1 = 1 then presetReg landed (recGet r 4 4) (recGet r 8 8)
    else
      let f := recGet r 2 1
      let size := if f = 0 then 64 else if f = 1 then 32 else 16
      putReg (recGet r 1 1) f (recGet r 3 1 % size) (recGet r 4 4 % 64) (recGet r 8 8)) s

/-- Merge areas are cut to what the new regions leave legal (R245). -/
def cutMerges : Plan := fun s =>
  (List.range 16).map (fun st =>
    setF .SILT_MERGE_SIZE (s.legalMerge st (s.get .SILT_MERGE_BASE st) (s.get .SILT_MERGE_SIZE st)) st)

/-- CACHED entries are freed (R230), and without a second hash configuration so is each MOVED entry whose key's home is
another module (R352). -/
def freeRedirects (n : Image) : Plan := fun _ =>
  let rank := recGet n.hdr 78 2
  let one := recGet n.hdr 82 2 = 0xFFFF
  [.rows (fun r => { r with dmap := r.dmap.filter (fun e =>
    !(locKind e.2.2 == kCached ||
      (locKind e.2.2 == kMoved && one && homeModule e.2.1 (recGet n.hdr 80 2 + 1) != rank))) })]

/-- The endpoint kinds that an activation sets (R385). -/
def endpointKinds (n : Image) : Plan := fun _ =>
  ((List.range (recGet n.hdr 80 2 + 1)).map (fun i =>
    [setF .XPORT_EP_CFG_KIND 1 i, setF .XPORT_EP_CFG_WATCH 1 i])).flatten

/-- The bias corrections of the records with BIAS_CORR for the current step (R238). -/
def formBias : Plan := fun s =>
  [.silt (fun x => { x with bias := (s.opts.zipIdx.filter (fun p => optFlag p.1 2)).map (fun p =>
    (p.2, biasPair p.1 (s.get .BEAT_STEP_STEP))) })]

/-- Rings whose area the new RING region does not hold are disabled (R454). -/
def checkRings : Plan := fun s =>
  planEach ((s.listed .FMP_RING_CFG_ENABLE).filter (fun i =>
    !s.ringFits (s.get .FMP_RING_CFG_BASE i) (s.get .FMP_RING_CFG_LOG2_ENTRIES i))) disableRing s

/-- Step and offset of a beat from the origin that the module keeps (R30, R184). -/
def State.stepAt (s : State) (beat : Nat) : Nat × Nat :=
  let d := beat - s.var .originBeat
  ((s.var .originStep + d / s.stepBeats) % 2 ^ 44, d % s.stepBeats)

/-- What a step leaves behind when the next one opens: micro-batch counts and what the embedding units hold (R31). -/
def endOfStep (step : Nat) : Plan := plans [
  planEach (List.range 8) planMbDrop, clearVar .mbIssued, clearVar .mbRetired, clearVar .mbDropped, clearVar .mbRecompute,
  planEach (List.range 16) (fun st => planUnscheduled st step),
  fun _ => [.emb (fun e => { e with
    mbs := e.mbs.filter (fun m => m.step != step), subs := e.subs.filter (fun b => b.step != step)
    fetched := e.fetched.filter (fun f => f.step != step) })]]

/-- The merges begin a step. -/
def siltStep (step : Nat) : Plan := fun _ =>
  ((List.range 16).map (fun st => [setF .SILT_STATUS_STEP step st, setF .SILT_STATUS_PHASE 1 st])).flatten

/-- An image that changes STEP_BEATS begins a step with its first beat (R184). In a flip the boundary under way opens that
step; out of RUNNING it is the held beat that begins it, and the step it cuts short ends here (DESIGN CHOICE,
notes/assumptions/96.md: no clk 2 of a boundary runs then, so no rescale entry updates). -/
def rebaseStep (n : Image) (live : Bool) : Plan := fun s =>
  let (st, off) := s.stepAt (s.get .BEAT_COUNT_COUNT)
  if s.stopped ∨ max 1 (recGet n.hdr 72 4) = s.stepBeats then []
  else
    let first := if off = 0 then st else (st + 1) % 2 ^ 44
    plans [fun _ => [.var .originBeat 0 (s.get .BEAT_COUNT_COUNT), .var .originStep 0 first],
      if live ∨ off = 0 then fun _ => [] else plans [endOfStep st, siltStep first],
      fun _ => if live then [] else [setF .BEAT_STEP_STEP first, setF .BEAT_STEP_OFFSET 0]] s

/-- The planes and the CLAY registers after an activation (R176, R180, notes/assumptions/62.md). -/
def swapPlanes (n : Image) : Plan := fun _ =>
  [.clay (fun c => { c with active := some n, shadow := none, staged := [], planeBad := [] }),
   setF .CLAY_GEN_ACTIVE (recGet n.hdr 24 4), setF .CLAY_GEN_SHADOW 0, setF .CLAY_STATUS_ACTIVE_WIDE (b2n n.wide),
   setF .CLAY_STATUS_LOAD_STATE 0, setF .CLAY_STATUS_ARMED 0, setF .BEAT_STRETCH_LIMIT (recGet n.hdr 76 2),
   .var .imageSinceHold 0 1] ++
  ((List.range 4).map (fun i => [setF .CLAY_MEAS_ACTIVE_DIGEST (bits n.meas (64 * i) 64) i,
    setF .CLAY_MEAS_SHADOW_DIGEST 0 i])).flatten

/-- Fields whose change empties a die's history store (R324). -/
def State.storeShape (s : State) (die : Nat) : List Nat × List Nat :=
  ([s.get .SEQ_CFG_KEY_FMT die, s.get .SEQ_CFG_VAL_FMT die, s.get .SEQ_CFG_MUL_FMT die, s.get .SEQ_CFG_IN_FMT die,
    s.get .SEQ_CFG_LAYERS_M1 die, s.get .SEQ_CFG_WIDTH die, s.get .SEQ_CFG_ENABLE die,
    (s.region 5 die).1, (s.region 5 die).2, (s.region 6 0).1, (s.region 6 0).2],
   (List.range 1024).map (fun i => s.get .SEQ_KEXP_KEXP (die * 1024 + i)))

/-- SEQ_CFG of a die whose preset was rejected has its reset value (R311). -/
def resetSeqCfg (die : Nat) : Plan := fun _ =>
  [Fld.SEQ_CFG_KEY_FMT, .SEQ_CFG_VAL_FMT, .SEQ_CFG_MUL_FMT, .SEQ_CFG_IN_FMT, .SEQ_CFG_LAYERS_M1, .SEQ_CFG_WIDTH,
    .SEQ_CFG_ENABLE].map (fun f => setF f f.reset die)

/-- Everything but the history store. -/
def switchPlanes (n : Image) (live : Bool) : Plan := fun s =>
  let moved := s.hotMoved n
  plans [dropFlipMbs, planEach moved flushDie, recredit n live, endSlices live, clearTiles, clearStreams,
    rebaseStep n live, swapPlanes n, placeRegions n, planEach moved emptyHot, placePrograms n, presetEntries n,
    planEach n.rejected resetSeqCfg, applyPresets n, planEach (List.range 2) reclampKexps, cutMerges, freeRedirects n, endpointKinds n, declareSinks, sinkKinds, checkRings, formBias,
    planEach (List.range 2) noteStore] s

/-- What connections an activation opens: retained sinks after a reset (R272), and while the module runs or holds those of
endpoints that it adds. -/
def activeConns : Plan := fun s =>
  plans [if s.var .sinksHeld = 1 then sinkStates else fun _ => [],
    if s.stopped && s.var .sinksHeld == 0 then fun _ => [] else connectNewSinks,
    if s.stopped then fun _ => [] else openEndpoints, fun _ => [.var .sinksHeld 0 0]] s

/-- An image becomes active (R180, R188). -/
def activate (n : Image) (live : Bool) : Plan := fun s =>
  let us := switchPlanes n live s
  let s1 := s.run us
  let stores := (List.range 2).filter (fun d => s.storeShape d != s1.storeShape d)
  us ++ plans [planEach stores clearStore, activeConns,
    fun s' =>
      if s'.stopped then []
      else
        let (st, off) := s'.stepAt (s'.get .BEAT_COUNT_COUNT)
        plans [if live && off == 0 then closeWindow ((st + 2 ^ 44 - 1) % 2 ^ 44) 2 else fun _ => [],
          springOpen false live st] s'] s1

/-! Loading. -/

/-- LOAD_IMAGE commands that wait for the load end with it (R456). -/
def loadEnded (status : Nat) : Plan := fun s =>
  (s.fmp.rings.filter (fun r => r.2.stage == 4 && r.2.wait &&
    (match r.2.desc with | some (1 :: _) => true | _ => false))).map (fun r =>
      .fmp (fun x => { x with rings := Sparse.set {} x.rings r.1 { r.2 with wait := false, status := status } }))

/-- clk since the load began (CLAY_LOAD_TIME). -/
def State.loadTime (s : State) : Nat := min (2 ^ 48 - 1) (s.var .clk - s.clay.began)

/-- The load fails with an error (R173). -/
def loadFail (e : Nat) : Plan := fun s =>
  plans [fun _ => [setF .CLAY_STATUS_LOAD_STATE 5, setF .CLAY_STATUS_ERROR e, setF .CLAY_LOAD_TIME_CLK s.loadTime,
    .clay (fun c => { c with staged := [] })], loadEnded 5] s

/-- Whether a load is in progress. -/
def State.loading (s : State) : Bool :=
  let l := s.get .CLAY_STATUS_LOAD_STATE
  decide (1 ≤ l ∧ l ≤ 3)

/-- A write of LOAD (R172). -/
def planLoad : Plan := fun s =>
  if s.loading ∨ (s.running ∧ s.get .CLAY_STATUS_ARMED = 1) then [setF .CLAY_STATUS_LOAD_BUSY 1]
  else
    (if s.inHold then [setF .CLAY_STATUS_ARMED 0] else []) ++
    [setF .CLAY_STATUS_LOAD_STATE 1, setF .CLAY_GEN_SHADOW 0,
     .clay (fun c => { c with shadow := none, staged := [], began := s.var .clk })] ++
    (List.range 4).map (fun i => setF .CLAY_MEAS_SHADOW_DIGEST 0 i)

/-- DPA and bytes of the staging range. -/
def State.staging (s : State) : Nat × Nat := (s.get .CLAY_SRC_BASE * 65536, s.get .CLAY_SRC_LEN_LENGTH)

/-- The staged bytes: the header, and as many as its LENGTH says within the staging range (R172, R173). -/
def State.stagedBytes (s : State) : List Nat :=
  let (a, n) := s.staging
  s.bytesAt a (max 128 (min n (s.leAt (a + 16) 8)))

/-- Owner digests that are programmed and unrevoked, as the fuses were sensed (R434, R435). -/
def State.ownerDigests (s : State) : List Nat :=
  (s.boot.fuses.owners.zipIdx.filter (fun p => p.1 != 0 && !s.boot.fuses.revoke.testBit p.2)).map Prod.fst

/-- An owner key is known: its digest is fused and unrevoked, and the key is installed (R171, R449). -/
def State.keyKnown (s : State) (id : Nat) : Bool :=
  s.ownerDigests.contains id && s.boot.keys.any (fun k => k.1 == id)

/-- Checks 9 to 15 of R173 on the staged image `b`, given whole as `r`. -/
def State.lateError (s : State) (b : List Nat) (r : RawImage) : Nat :=
  let (a, n) := s.staging
  let mask := recGet r.hdr 84 18
  let others := (s.listed .TIER_CLASS_REGION_SIZE).filter (fun i => hbmClass (i / 256))
  if imgPatch b && (s.clay.active.isNone || imgGet b 56 16 != s.img.meas % 2 ^ 128) then 9
  else if imgPatch b && (secTable b).any (fun e => !patchableSections.contains e.type) then 10
  else if (List.range 144).any (fun c => mask.testBit c && (s.get .CLAY_CELL_FAIL_FAILED (c / 64)).testBit (c % 64)) then 11
  else if planesOver r 0x20000 0x800000 then 12
  else if !(a + n ≤ 0x010000000000 || (0x010000000000 ≤ a && a + n ≤ 0x020000000000)) ||
      others.any (fun i => hbmOverlap a n (s.get .TIER_CLASS_REGION_BASE i * 65536) (s.get .TIER_CLASS_REGION_SIZE i * 65536))
    then 13
  else if (linesOf a b.length).any s.lineBad then 14
  else if s.running && s.get .CLAY_STATUS_ACTIVE_WIDE == 1 then 15
  else 0

/-- The image that the staged bytes give before clamping: a patch is merged onto the active image (R186). -/
def State.rawStaged (s : State) : RawImage :=
  let r := rawImage s.clay.staged
  if imgPatch s.clay.staged then mergePatch s.img r else r

/-- What stands before the second pass: checks 9 to 15. -/
def beforePass2 : Plan := fun s =>
  let e := s.lateError s.clay.staged s.rawStaged
  let (a, _) := s.staging
  if e = 0 then [setF .CLAY_STATUS_LOAD_STATE 3]
  else plans [if e = 14 then planEach ((linesOf a s.clay.staged.length).filter s.lineBad) noteUnlisted else fun _ => [],
    loadFail e] s

/-- The first pass ends (R173): checks 1 to 7, the measurement, and the signature where the image has one. -/
def planPass1 : Plan := fun s =>
  if s.get .CLAY_STATUS_LOAD_STATE ≠ 1 then []
  else
    let b := s.stagedBytes
    let e := pass1Error b s.staging.2 s.boot.fuses.claySig
    if e ≠ 0 then loadFail e s
    else
      plans [fun _ => [.clay (fun c => { c with staged := b, meas := shake256 32 (b.take (imgGet b 16 8)) })],
        if imgSigned b then fun _ => [setF .CLAY_STATUS_LOAD_STATE 2] else beforePass2] s

/-- The verification of the signature ends (R177). -/
def planSignature : Plan := fun s =>
  if s.get .CLAY_STATUS_LOAD_STATE ≠ 2 then []
  else if signatureOk s.clay.staged s.keyKnown then beforePass2 s
  else loadFail 8 s

/-- A preset of SEQ_CFG with a key format that its multiplier format does not contain (R311). -/
def badSeqPreset (r : Nat) : Option Nat :=
  let v := recGet r 8 8
  let s0 := State.reset
  if recGet r 0 1 ≠ 1 then none
  else match (List.range 2).find? (fun d => recGet r 4 4 == 0x480010 + d * 0x40000) with
    | none => none
    | some d =>
      if mulContains (s0.clampF .SEQ_CFG_MUL_FMT d (bits v 8 4)) (s0.clampF .SEQ_CFG_KEY_FMT d (bits v 0 4)) then none
      else some d

/-- An image without the SEQ_CFG presets that R311 rejects, the dies they are for, and their places in the section. -/
def Image.withoutRejected (i : Image) : Image × List Nat × List Nat :=
  let ps := (i.sec 6).zipIdx
  let bad := ps.filterMap (fun p => (badSeqPreset p.1).map (fun d => (d, p.2)))
  ({ i with
      secs := Sparse.set [] i.secs 6 ((ps.filter (fun p => (badSeqPreset p.1).isNone)).map Prod.fst)
      rejected := (bad.map Prod.fst).eraseDups },
   bad.map Prod.fst, bad.map Prod.snd)

/-- What the second pass finds wrong with the bytes it reads, which may have changed since the first (R172): an
uncorrectable line, or the check that changed bytes fail. DESIGN CHOICE (notes/assumptions/97.md): the error code is that of
the first check of R173 which they fail. -/
def State.changedError (s : State) : Nat :=
  let b := s.stagedBytes
  if (linesOf s.staging.1 b.length).any s.lineBad then 14
  else if b = s.clay.staged then 0
  else
    let e := pass1Error b s.staging.2 s.boot.fuses.claySig
    if e ≠ 0 then e
    else if imgSigned b && !signatureOk b s.keyKnown then 8
    else s.lateError b s.rawStaged

/-- The expansion of the second pass (R174 to R176): program bodies are written, replacements counted, and the image becomes
active in STOPPED and HOLD or waits in the shadow planes. -/
def expandStaged : Plan := fun s =>
    let patch := imgPatch s.clay.staged
    let meas := if patch then shake256 32 (leBytes 32 s.img.meas ++ leBytes 32 s.clay.meas) else s.clay.meas
    let (i0, bodies, clamps0) := expandImage s.clay.active s.rawStaged patch meas
    let (n, dies, recs) := i0.withoutRejected
    let clamps := clamps0 ++ recs.map (fun k => (6, k))
    plans [planEach bodies (fun b => writeMem (cellTarn b.1 b.2.1) b.2.2),
      fun s' => match clamps.getLast? with
        | none => []
        | some (sec, k) => [s'.addF .CLAY_CLAMP_COUNT clamps.length, setF .CLAY_CLAMP_LAST_SECTION sec,
            setF .CLAY_CLAMP_LAST_RECORD k],
      fun _ => dies.map (fun d => setF .SEQ_STATUS_REJECTED 1 d),
      fun _ => [setF .CLAY_LOAD_TIME_CLK s.loadTime],
      if s.running then
        fun _ => [setF .CLAY_STATUS_LOAD_STATE 4, setF .CLAY_GEN_SHADOW (recGet n.hdr 24 4),
          .clay (fun c => { c with shadow := some n, staged := [] })] ++
          (List.range 4).map (fun i => setF .CLAY_MEAS_SHADOW_DIGEST (bits n.meas (64 * i) 64) i)
      else activate n false,
      loadEnded 0] s

/-- The second pass ends: it reads the staging range again (R172) and expands what it read. -/
def planPass2 : Plan := fun s =>
  if s.get .CLAY_STATUS_LOAD_STATE ≠ 3 then []
  else
    let e := s.changedError
    if e = 0 then plans [fun _ => [.clay (fun c => { c with staged := s.stagedBytes })], expandStaged] s
    else plans [if e = 14 then planEach ((linesOf s.staging.1 s.stagedBytes.length).filter s.lineBad) noteUnlisted else fun _ => [],
      loadFail e] s

/-! Flips. -/

/-- FLIP_BLOCK of the shadow image (R179), against the regions that are active now. -/
def State.flipBlocks (s : State) : Nat :=
  match s.clay.shadow with
  | none => 0
  | some n => flipBlock s.region s.img n

/-- The shadow image is READY. -/
def State.ready (s : State) : Bool := s.get .CLAY_STATUS_LOAD_STATE == 4

/-- BEAT_COUNT of the flip beat, low 48 bits. -/
def State.flipBeat (s : State) : Nat := s.get .CLAY_FLIP_BEAT_BEAT

/-- The beat `n` beats ahead, as the flip beat's register numbers it. -/
def State.beatAhead (s : State) (n : Nat) : Nat := (s.get .BEAT_COUNT_COUNT + n) % 2 ^ 48

/-- Whether an ARM comes too late for its flip beat (R178): it must land at or before the retire check of beat f - 2. -/
def State.armLate (s : State) : Bool :=
  let ahead := (s.flipBeat + 2 ^ 48 - s.beatAhead 0) % 2 ^ 48
  decide (ahead < 2 ∨ ahead ≥ 2 ^ 47)

/-- A write of ARM (R178). -/
def planArm : Plan := fun s =>
  let refused := !s.ready || s.flipBlocks != 0 || !s.running
  (if refused then [setF .CLAY_STATUS_FLIP_REFUSED 1] else []) ++
  (if s.armLate then [setF .CLAY_STATUS_FLIP_LATE 1] else []) ++
  (if refused || s.armLate then [] else [setF .CLAY_STATUS_ARMED 1])

/-- A write of CANCEL (R180, R191): a load in progress is abandoned, or a flip is disarmed, at the latest at the retire
check of the beat before it. -/
def planCancel : Plan := fun s =>
  if s.loading then
    plans [fun _ => [setF .CLAY_STATUS_LOAD_STATE 0, .clay (fun c => { c with staged := [] })], loadEnded 5] s
  else if s.get .CLAY_STATUS_ARMED = 1 ∧ s.flipBeat ≠ s.beatAhead 0 then [setF .CLAY_STATUS_ARMED 0]
  else []

/-- The slices of the quiesce beat are skipped and counted (R180). -/
def planQuiesce : Plan := fun s =>
  if s.running ∧ s.var .quiesce = 1 ∧ !s.slices.isEmpty then
    [s.addF .CLAY_FLIP_DISCARD_QUIESCE_SKIPPED s.slices.length, .slices (fun _ => [])]
  else []

/-- Clk 1 of the flip beat: the shadow image becomes active (R180), after the commits of clk 0. The command names the flip
once the retire check has passed; the boundary of the flip beat runs it otherwise. -/
def flipNow : Plan := fun s =>
  match s.clay.shadow with
  | some n => activate n true s
  | none => [setF .CLAY_STATUS_ARMED 0]

/-- GROUP_COMMIT (R187): every block of the mask commits; GROUP_PENDING reads 1 until the boundary. -/
def planGroup : Plan := fun s =>
  plans [fun _ => [setF .CLAY_STATUS_GROUP_PENDING 1],
    planEach ((List.range 12).filter (fun b => (s.get .CLAY_COMMIT_GROUP_MASK).testBit b)) (fun b =>
      planEach (List.range (commitUnits b)) (writeCommit b))] s

/-- CLAY_LOAD (R172). -/
def execClayLoad := answer planLoad
/-- CLAY_PASS1_DONE (R173). -/
def execClayPass1Done := answer planPass1
/-- CLAY_SIGNATURE_DONE (R177). -/
def execClaySignatureDone := answer planSignature
/-- CLAY_PASS2_DONE (R174 to R176). -/
def execClayPass2Done := answer planPass2
/-- CLAY_CANCEL (R180, R191). -/
def execClayCancel := answer planCancel
/-- CLAY_ARM (R178). -/
def execClayArm := answer planArm
/-- GROUP_COMMIT (R187). -/
def execGroupCommit := answer planGroup
/-- QUIESCE_BEGIN (R180). -/
def execQuiesceBegin := answer planQuiesce

end Sys2Proof.Machine
end

