-- ==== Sys2Proof/Machine/Beat.lean ====
section
/-!
DEFINITION. The beat timer: retire checks, stretch and overrun (R25, R26), the boundary sequence (R22), START, HOLD and
RESUME (R28, R43, R490). The boundary's own command is in Late.lean, where the writes that wait for it land.
-/
namespace Sys2Proof.Machine

/-! Slices of a beat (R19, R161). -/

/-- Whether a schedule entry issues a slice at an offset of the step (R161). -/
def coversOffset (e off : Nat) : Bool :=
  let first := bits e 0 20
  let p := max 1 (bits e 52 12)
  decide (first ≤ off) && (off - first) % p == 0 && decide ((off - first) / p ≤ bits e 40 12)

/-- The slices that an image lists for a beat at an offset, cells that it does not use left out. -/
def Image.slicesAt (i : Image) (off : Nat) : List Slice :=
  ((i.sched.filter (fun b => b.1 != 0 || i.usesCell b.2.1)).map (fun b =>
    (b.2.2.filter (fun e => coversOffset e off)).map (fun e =>
      ({ kind := b.1, index := b.2.1, target := bits e 20 15, slot := bits e 35 4 } : Slice)))).flatten

/-- Whether every slice of the beat has retired, or will not issue: a quiesce beat skips its slices (R33, R180), and none
issues from clk 64 of a loss of input (R293). -/
def State.allRetired (s : State) : Bool :=
  s.slices.all (fun x => x.st == 3 || (x.st == 0 && (s.var .quiesce == 1 || decide (s.var .lgPhase ≥ 2))))

/-- Idle sequencers begin their first listed slices (R144). -/
def beginSlices : Plan := fun s =>
  planEach (((s.slices.filter (fun x => x.kind == 0 && x.st == 0)).map (·.index)).eraseDups.filter (fun c =>
    s.get .CELL_SEQ_STATUS_STATE c == 0 && (s.curSlice 0 c).isNone)) beginSlice s

/-- The slices of the current beat are listed, and the sequencers begin theirs (clk 4). -/
def openBeat : Plan := plans [
  clearVar .bankPtr,
  fun s => [.var .quiesce 0 (b2n (s.get .CLAY_STATUS_ARMED == 1 && s.flipBeat == s.beatAhead 1)),
    .slices (fun _ => s.img.slicesAt (s.get .BEAT_STEP_OFFSET)), setF .BEAT_STATUS_PHASE 4, .var .holdDue 0 0],
  readPlane 144, beginSlices]

/-! The retire check (R25, R26). -/

/-- What a beat may be stretched by (R25). -/
def State.stretchLimit (s : State) : Nat := s.get .BEAT_STRETCH_LIMIT

/-- BEAT_OVERRUN's UNIT and INDEX: the lowest cell with an unretired slice, else the lowest unit code (R43). DESIGN CHOICE
(notes/assumptions/86.md): of that cell, UNIT 1 is recorded where its slice has ended and an array operation is under way. -/
def State.lateUnit (s : State) : Nat × Nat :=
  let late := s.slices.filter (fun x => x.st != 3)
  let of := fun (k : Nat) => (late.filter (fun x => x.kind == k)).map (·.index)
  match of 0 with
  | c :: cs =>
    let cell := minOf c (c :: cs)
    let array := (late.any (fun x => x.kind == 0 && x.index == cell && x.st == 2)) &&
      !(Sparse.get [] s.cells.aops cell).isEmpty
    (b2n array, cell)
  | [] =>
    match [(1, 2), (2, 3), (4, 5)].find? (fun p => !(of p.1).isEmpty) with
    | some (k, u) => (u, minOf 0xFF (of k))
    | none => (0, 0xFF)

/-- The beat has overrun: nothing issues, and the module enters HOLD with cause OVERRUN (R26). -/
def overrun : Plan := fun s =>
  let (unit, index) := s.lateUnit
  let beat := s.get .BEAT_COUNT_COUNT % 2 ^ 48
  plans [fun _ => [setF .BEAT_OVERRUN_UNIT unit, setF .BEAT_OVERRUN_INDEX index, setF .BEAT_OVERRUN_BEAT beat],
    postEvent 0x10 unit 0 index (index + unit * 2 ^ 8 + beat * 2 ^ 16) 0, enterHold 2] s

/-- The retire check of clk 4,095 (R22, R25). -/
def planRetireCheck : Plan := fun s =>
  if !s.running ∨ s.var .boundaryDue ≠ 0 ∨ s.var .stretchNow ≠ 0 ∨ s.var .holdDue ≠ 0 then []
  else plans [phaseTo 4095,
    if s.allRetired then fun _ => [.var .boundaryDue 0 1]
    else if s.stretchLimit = 0 then overrun
    else fun _ => [.var .stretchNow 0 1]] s

/-- The n-th further sample after the last (R25): each is one clk later, and only the last of them can find the slices
retired. A sample past the limit does not occur. -/
def planStretch (n : Nat) : Plan := fun s =>
  let x := s.var .stretchNow - 1 + n
  if !s.running ∨ s.var .boundaryDue ≠ 0 ∨ s.var .stretchNow = 0 ∨ n = 0 ∨ x > s.stretchLimit then []
  else plans [phaseTo (4095 + x), fun _ => [.var .stretchNow 0 (x + 1)],
    if s.allRetired then fun _ => [.var .boundaryDue 0 1]
    else if x = s.stretchLimit then overrun
    else fun _ => []] s

/-! The boundary sequence (R22). -/

/-- Clk 0: BEAT_COUNT counts, commits land, and the closed beat's stretch and what a quiesce beat skipped are counted
(R25, R180, R472). -/
def clk0 : Plan := fun s =>
  let x := s.var .stretchNow - 1
  plans [planQuiesce, phaseTo (4096 + max x (s.var .padNow)),
    fun _ => [setF .BEAT_STATUS_PHASE 0, setF .BEAT_COUNT_COUNT ((s.get .BEAT_COUNT_COUNT + 1) % 2 ^ 64),
      setF .BEAT_STATUS_STRETCHED (b2n (decide (x > 0))), .var .stretchNow 0 0] ++
      (if x > 0 then [s.addF .BEAT_STRETCH_COUNT 1, setF .BEAT_STRETCH_MAX (max x (s.get .BEAT_STRETCH_MAX)),
        s.addV .stretchSince 1] else []) ++
      (if s.var .padNow > 0 then [s.addF .PWR_THROTTLE_PADDED 1] else []),
    boundaryCommits, fun _ => [setF .CLAY_STATUS_GROUP_PENDING 0]] s

/-- Whether the beat that has just opened is the armed flip beat. -/
def State.flipDue (s : State) : Bool := s.get .CLAY_STATUS_ARMED == 1 && s.flipBeat == s.beatAhead 0

/-- Clk 1: the flip, what was asked of the sketches and of Spring, and moves abandoned in the closed beat. The installs and
returns of clk 1 have commands of their own. -/
def clk1 : Plan := plans [
  planIf State.flipDue flipNow,
  fun s => planEach (s.listedVar .sketchClear) (fun d => plans [clearSketch d, fun _ => [.var .sketchClear d 0]]) s,
  clearAbandoned, springBoundary]

/-- What a step's first boundary does for it: rescale updates (R107), bias corrections (R238), and the merges' phase. -/
def startOfStep (step : Nat) : Plan := plans [planRescale, formBias, siltStep step]

/-- Clk 2: step and offset, the module partial of a step that a stack ended without CLOSE (R251, R268), silence counts
(R397) and the collective engines' boundary. Deadlines and rejoining ranks have commands of their own. -/
def clk2 : Plan := fun s =>
  let (step, off) := s.stepAt (s.get .BEAT_COUNT_COUNT)
  let old := s.get .BEAT_STEP_STEP
  let fresh := off == 0
  plans [if fresh then endOfStep old else fun _ => [],
    fun _ => [setF .BEAT_STEP_STEP step, setF .BEAT_STEP_OFFSET off],
    if fresh then startOfStep step else fun _ => [], if fresh then rootFeeds else fun _ => [],
    silenceTick, fun s' => [.var .graceLeft 0 (s'.var .graceLeft - 1)], collBoundary fresh] s

/-- What a cell's registers latch (R125, R154). -/
def cellLatch : Plan := fun s =>
  let latch := fun (v : Var) (f : Fld) => ((s.listedVar v ++ s.listed f).eraseDups.map (fun c =>
    [setF f (min (2 ^ 32 - 1) (s.var v c)) c, .var v c 0])).flatten
  latch .cellStall .CELL_SEQ_STALL_LAST_BEAT ++ latch .arrayBusy .CELL_ARRAY_BUSY_LAST_BEAT ++
  latch .tileWait .CELL_TILE_WAIT_LAST_BEAT

/-- Clk 3: counters and probes are latched, and the events of the closed beat post. -/
def clk3 : Plan := plans [
  noteHolds 3, noteUnitHolds 3,
  fun s => s.queues.map (fun q => Upd.queue q.1 .latch), cellLatch, tierLatch, kvLatch 0, kvLatch 1,
  springLatch, portLatch,
  fun s => (List.range 16).map (fun st => setF .SILT_MERGE_USE_IN_USE (cdiv (s.mergeBytes st) 65536) st),
  postPending,
  fun s => [.clay (fun c => { c with landed := [] }), .var .clk 0 (s.var .clk + 3), setF .BEAT_STATUS_PHASE 3,
    .var .boundaryDue 0 0, .var .padNow 0 (s.get .PWR_THROTTLE_PAD)]]

/-- Whether the HOLD asked for takes this boundary (R28, R43). DESIGN CHOICE (notes/assumptions/85.md): HOLD_MODE acts as it
stands at the boundary, not as it stood when HOLD_REQ was written. -/
def State.holdHere (s : State) : Bool :=
  s.var .faultPending == 1 ||
  (s.var .holdPending == 1 && (s.get .BEAT_CTRL_HOLD_MODE == 0 || s.get .BEAT_STEP_OFFSET == 0))

/-- Clk 4: slices are listed and begin, unless a HOLD freezes the timer after clk 3 (R28). -/
def clk4 : Plan := fun s =>
  if s.holdHere then
    plans [fun _ => [.slices (fun _ => []), .var .holdDue 0 1],
      if s.get .BEAT_STEP_OFFSET = 0 then closeWindow ((s.get .BEAT_STEP_STEP + 2 ^ 44 - 1) % 2 ^ 44) 4 else fun _ => []] s
  else plans [openBeat, fun s' => [.var .clk 0 (s'.var .clk + 1)]] s

/-- An event of clk 1 of a boundary (R22): where the retire check has passed and no clk of the boundary has run, clk 0 runs
first. -/
def atClk1 (p : Plan) : Plan := plans [
  planIf (fun s => s.running && s.var .boundaryDue == 1) (plans [clk0, fun _ => [.var .boundaryDue 0 3]]), p]

/-- What of clk 0 and 1 of a boundary has still to run. -/
def firstClks : Plan := fun s =>
  match s.var .boundaryDue with
  | 1 => plans [clk0, clk1] s
  | 3 => clk1 s
  | _ => []

/-- The boundary, from clk 0 or from what an event of clk 1, or CLAY_FLIP, has left of it. -/
def boundary : Plan := plans [firstClks, clk2, clk3, clk4]

/-- CLAY_FLIP: clk 0 and 1 of the boundary that opens the flip beat (R180). -/
def planFlip : Plan := fun s =>
  let ahead := if s.var .boundaryDue = 3 then 0 else 1
  if s.running ∧ s.var .boundaryDue % 2 = 1 ∧ s.get .CLAY_STATUS_ARMED = 1 ∧ s.flipBeat = s.beatAhead ahead then
    plans [firstClks, fun _ => [.var .boundaryDue 0 2]] s
  else []

/-- COMMIT_APPLY: one unit of a block commits at the boundary that is due (R14); the boundary commits every other. -/
def planCommitApply (block unit : Nat) : Plan :=
  planIf (fun s => s.running && s.var .boundaryDue == 1) (applyCommit block unit)

/-! START (R43). -/

/-- No cell of the active image is marked lost (R43, R423). -/
def State.cellsOk (s : State) : Bool :=
  (List.range 144).all (fun c => !(s.img.usesCell c && (s.get .CLAY_CELL_FAIL_FAILED (c / 64)).testBit (c % 64)))

/-- A write of START (R43). -/
def planStart : Plan := fun s =>
  if s.stopped ∧ s.clay.active.isSome ∧ s.cellsOk then [.var .startAt 0 1] else []

/-- Every connection but a quarantined or failed one is closed and its frames go (R389). -/
def closeConns : Plan := fun s =>
  planEach s.xport.conns (fun c s' =>
    let ep := c.1 / 4
    let ch := c.1 % 4
    let st := s'.connState ep ch
    plans [dropConn ep ch (if st < 3 then 0 else st), match s'.epSink ep with
      | some k => if ch = 0 ∧ s'.sinkSt k = 2 then fun _ => [setF .SPRING_SINK_STATE_STATE 1 k] else fun _ => []
      | none => fun _ => []] s') s

/-- The transport draws a new incarnation (R389): a free value. -/
def newIncarnation : Plan := fun s =>
  [setF .XPORT_STATUS_INCARNATION (s.free 32), .var .freeCount 0 (s.var .freeCount + 1)]

/-- Producers start with their depth in credits, and the probe counts tokens from 0 (R36, R43). Nothing has been sent
inside a STOPPED module; what other modules have sent it stays. -/
def startQueues : Plan := fun s =>
  (s.img.sec 3).map (fun r =>
    let q := recGet r 0 2
    let here := recGet r 4 1 != 5 || recGet r 6 2 == 0xFFFF
    if here then [Upd.queue q (.recredit (recGet r 2 2) (s.queue q).gen true false), .queue q .zero]
    else [.queue q .zero]) |>.flatten

/-- The engines begin with the first step (R267, R328). -/
def startEngines (first : Nat) : Plan := fun s =>
  let all : SMap Nat := if first = 0 then [] else (List.range 16).map (fun st => (st, first))
  [.silt (fun x => { x with openStep := all, closed := all, lastAt := all, ended := all, quota := [], passed := [], norms := [] }),
   .coll (fun _ => {}), .var .stretchSince 0 0] ++
  (s.listed .COLL_PEER_STATE).map (fun r => setF .COLL_PEER_STATE 0 r) ++
  (s.listed .XPORT_EP_STATE_SILENCE).map (fun r => setF .XPORT_EP_STATE_SILENCE 0 r) ++
  clearVar .qOwed s ++
  (if s.get .COLL_JOIN_REJOIN = 1 then [setF .COLL_JOIN_JOIN_STEP first] else [])

/-- The boundary that opens beat 0 (R22, R30, R43). -/
def planZero : Plan := fun s =>
  if s.var .startAt = 0 ∨ !s.stopped then []
  else
    let first := s.get .BEAT_START_STEP_STEP
    plans [
      fun _ => [.var .startAt 0 0, .var .clk 0 (s.var .clk + 64), setF .BEAT_COUNT_COUNT 0, .var .originBeat 0 0,
        .var .originStep 0 first],
      boundaryCommits,
      fun _ => [setF .CLAY_STATUS_GROUP_PENDING 0, setF .BEAT_STEP_STEP first, setF .BEAT_STEP_OFFSET 0],
      startEngines first, startQueues, newIncarnation, closeConns, openEndpoints, connectSinks,
      springOpen true false first, clearVar .mbIssued, clearVar .mbRetired, clearVar .mbDropped, clearVar .mbDropNext,
      startOfStep first, silenceTick, clk3,
      fun _ => [setF .BEAT_STATUS_STATE 1, setF .BEAT_STATUS_HOLD_CAUSE 0, .var .faultPending 0 0, .var .holdPending 0 0,
        .var .faultKinds 0 0],
      openBeat, fun s2 => [.var .clk 0 (s2.var .clk + 1)]] s

/-! HOLD and RESUME (R28, R153, R189, R490). -/

/-- A write of HOLD_REQ with HOLD_MODE (R43). -/
def planHoldReq (mode : Nat) : Plan := fun s =>
  setF .BEAT_CTRL_HOLD_MODE (s.clampF .BEAT_CTRL_HOLD_MODE 0 (mode % 4)) ::
  (if s.running then [.var .holdPending 0 1] else [])

/-- The HOLD asked for begins, the boundary having run to its end (R28). -/
def planHoldEnter : Plan := fun s =>
  if s.running ∧ s.var .holdDue = 1 then enterHold (if s.var .faultPending = 1 then 3 else 1) s else []

/-- The system controller holds the module for a fault (R28, R153): a boundary under way runs to its end first. -/
def planFaultHold : Plan := fun s =>
  if s.running ∧ s.var .faultPending = 1 then
    plans [if s.var .boundaryDue = 0 then fun _ => [] else boundary, enterHold 3] s
  else []

/-- Whether RESUME is accepted (R28). -/
def State.mayResume (s : State) : Bool :=
  match s.get .BEAT_STATUS_HOLD_CAUSE with
  | 1 => s.clay.active.isSome
  | 3 => s.var .imageSinceHold == 1 || (s.var .faultKinds == 1 &&
      (List.range 144).all (fun c => s.get .CELL_SEQ_STATUS_STATE c != 3))
  | _ => false

/-- A write of RESUME (R28): the beat runs again from clk 4; a HOLD within a beat, with no new image, goes on with what
the beat had listed. After a reset at level 4 that froze a beat, the next boundary opens at once (R478). -/
def planResume : Plan := fun s =>
  if !s.inHold then []
  else if !s.mayResume then [setF .BEAT_STATUS_RESUME_REFUSED 1]
  else
    let again := decide (s.var .holdDue = 1 ∨ s.var .imageSinceHold = 1)
    plans [
      fun _ => [setF .BEAT_STATUS_STATE 1, setF .BEAT_STATUS_HOLD_CAUSE 0, .var .faultKinds 0 0, .var .imageSinceHold 0 0,
        .var .graceLeft 0 (s.policy 5 0 4096), .var .stretchNow 0 0, .var .holdDue 0 0],
      planSeqResume,
      if s.var .boundaryDue = 1 then boundary
      else plans [fun _ => [setF .BEAT_STATUS_PHASE 4, .var .boundaryDue 0 0], if again then openBeat else beginSlices]] s

/-- BEAT_RETIRE_CHECK (R22, R25). -/
def execBeatRetireCheck := answer planRetireCheck
/-- STRETCH_SAMPLE (R25): `n` further samples. -/
def execStretchSample (n : Nat) := answer (planStretch n)
/-- COMMIT_APPLY (R14). -/
def execCommitApply (block unit : Nat) := answer (planCommitApply block unit)
/-- BEAT_START (R43). -/
def execBeatStart := answer planStart
/-- BEAT_ZERO_BOUNDARY (R43). -/
def execBeatZeroBoundary := answer planZero
/-- HOLD_REQ (R43). -/
def execHoldReq (mode : Nat) := answer (planHoldReq mode)
/-- HOLD_ENTER (R28). -/
def execHoldEnter := answer planHoldEnter
/-- RESUME (R28). -/
def execResume := answer planResume
/-- FAULT_HOLD (R153). -/
def execFaultHold := answer planFaultHold
/-- CLAY_FLIP (R180). -/
def execClayFlip := answer planFlip

/-- KV_COW_INSTALL (R315), at clk 1 of its boundary. -/
def execKvCowInstall (hist layer : Nat) := answer (atClk1 (planCow hist layer))
/-- KV_PAGE_QUARANTINE (R316), at the boundary. -/
def execKvPageQuarantine (die page : Nat) := answer (atClk1 (planQuarantine die page))
/-- KV_PAGE_RETURN (R316), at clk 1 of its boundary. -/
def execKvPageReturn (die page : Nat) := answer (atClk1 (planReturn die page))
/-- DRIFT_INSTALL (R227), at clk 1 of its boundary. -/
def execDriftInstall (stack key : Nat) := answer (atClk1 (plans [planInstall stack key, drainDrift]))
/-- DRIFT_LEAVING (R227). -/
def execDriftLeaving (stack key : Nat) := answer (atClk1 (planLeaving stack key))
/-- DRIFT_SWITCH (R227). -/
def execDriftSwitch (stack key : Nat) := answer (atClk1 (plans [planSwitch stack key, drainDrift]))
/-- DRIFT_FREE (R227). -/
def execDriftFree (stack key : Nat) := answer (atClk1 (planFree stack key))
/-- KV_MOVE_DONE (R318), at clk 1 of the boundary after the copy. -/
def execKvMoveDone (die page : Nat) := answer (atClk1 (planMoveDone die page))

end Sys2Proof.Machine
end

