-- ==== Sys2Proof/Machine/Pwr.lean ====
section
/-!
DEFINITION. Power, temperature and the sideband: input loss and recovery (R464 to R468), power states (R469), sensors,
throttling and the thermal trip (R471 to R474), reset sources (R475), the strap (R480), the SMBus target (R482) and the
output pins (R481, R483).
-/
namespace Sys2Proof.Machine

/-! Resets that pend (R475, R476). -/

/-- The level of a reset source in effect (R475). -/
def State.sourceLevel (s : State) (src : Nat) : Nat :=
  let l := s.boot.fuses.levels.getD src 1
  if src = 0 then 0 else if l ≥ 5 then 1 else l

/-- A reset is raised: the lowest-numbered level among those that pend is taken (R476). -/
def raiseReset (src level : Nat) : Plan := fun s =>
  let was := s.var .rstLevel
  [.var .rstPend 0 (s.var .rstPend ||| 2 ^ src),
   .var .rstLevel 0 (if was = 0 then level + 1 else min was (level + 1))]

/-- A source raises a reset at its mapped level. -/
def raiseSource (src : Nat) : Plan := fun s => raiseReset src (s.sourceLevel src) s

/-- Bits of the alert status are set (R482). -/
def alertBits (b : Nat) : Plan := fun s => [.var .alert 0 (s.var .alert ||| b)]

/-! The strap (R480). -/

/-- Cap in W and SMBus address of a profile. -/
def profileCap (k : Nat) : Nat := [1950, 1750, 1550, 1350].getD (k / 4) 1350
def profileAddr (k : Nat) : Nat := 0x58 + k % 4

/-- The profile is latched, with the cap and the address that it gives. -/
def latchProfile : Plan := fun s =>
  let k := s.var .strap % 16
  [setF .PWR_PROFILE_PROFILE k, setF .PWR_PROFILE_CAP (profileCap k), setF .PWR_PROFILE_SMB_ADDR (profileAddr k)]

/-- The power cap in effect (R470). -/
def State.cap (s : State) : Nat := min (s.get .PWR_PROFILE_CAP) (s.get .PWR_CFG_CAP)

/-! The input (R464 to R468). -/

/-- HBM contents are lost. -/
def loseHbm : Plan := fun _ => [.keepMem (fun a => decide (0x010000000000 ≤ a))]

/-- The input rises through 41.0 V after all rails had fallen; `profile` is what the strap reads (R465, R480). -/
def planPowerOn (profile : Nat) : Plan := fun s =>
  if s.var .unpowered = 0 then []
  else plans [fun _ => [.var .unpowered 0 0, .var .bulk 0 0, .var .strap 0 (profile % 16), setF .PWR_STATUS_INPUT_OK 1],
    raiseReset 0 0] s

/-- The bulk is fully charged (R465): PWR_OK_OUT is released, but not while a trip keeps the rails off. -/
def planPwrOk : Plan := fun s =>
  if s.var .unpowered = 1 ∨ s.var .bulk = 1 ∨ s.var .railsOff = 1 then []
  else [.var .bulk 0 1, .var .pwrOk 0 (b2n (s.var .tripped == 0))]

/-- CLIP_SENSE mates (R486): the bulk charges at the inrush limit. -/
def planClip : Plan := fun s => if s.var .clip = 1 then [] else [.var .clip 0 1]

/-- Whether a loss of input is followed by a flush (R468): not before START, nor in a reset or the ROM loader, nor after a
trip. -/
def State.flushes (s : State) : Bool :=
  !s.stopped && s.boot.phase == 3 && s.var .tripped == 0 && s.var .rstLevel == 0

/-- The input-loss condition completes (R464, R466): INPUT_LOSS is posted and the last gasp begins, where one does. -/
def planInputLoss (mv : Nat) : Plan := fun s =>
  if s.var .unpowered = 1 ∨ s.var .lgPhase ≠ 0 ∨ s.var .railsOff = 1 then []
  else plans [fun _ => [setF .PWR_STATUS_INPUT_OK 0, setF .PWR_INPUT_MV mv], alertBits 4,
    postEvent 0x52 8 0 0 mv u64max,
    if s.flushes then fun _ => [.var .lgPhase 0 1, setF .PWR_STATUS_STATE 2]
    else fun _ => [.var .railsOff 0 1, .var .pwrOk 0 0]] s

/-- INPUT_LOSS events not yet in the history take the last SEQ flushed (R430). -/
def noteFlushed : Plan := fun s =>
  let last := if s.var .lgLast = 0 then u64max else s.var .lgLast - 1
  let f : Event → Event := fun e => if e.code = 0x52 then { e with d1 := last } else e
  [.logs (fun l => { l with owed := l.owed.map f, pend := l.pend.map f })]

/-- The flush ends (R293), and the HBM goes into self-refresh while the other rails and PWR_OK_OUT go off (R467). `clk`
counts from the loss. -/
def planGaspEnd (clk : Nat) : Plan := fun s =>
  plans [gaspEnd clk, fun s' =>
    if s.var .lgPhase = 3 ∧ s'.var .lgPhase = 4 then .var .railsOff 0 1 :: .var .pwrOk 0 0 :: noteFlushed s' else []] s

/-- The input rises through 41.0 V before the bulk has fallen to 30 V (R467). -/
def planBrownout : Plan := fun s =>
  if s.var .railsOff = 0 ∨ s.var .unpowered = 1 then []
  else plans [fun _ => [.var .railsOff 0 0, .var .bulk 0 0, setF .PWR_STATUS_INPUT_OK 1], raiseSource 1] s

/-- All rails fall (R467): what is not in the module store is lost, with history entries that still pended (R430) and an
image that was being programmed (R439). -/
def planRailsFall : Plan := fun s =>
  if s.var .railsOff = 0 ∨ s.var .unpowered = 1 then []
  else [.var .unpowered 0 1, .var .railsOff 0 0, .var .pwrOk 0 0, .var .lgPhase 0 0, .keepMem (fun _ => false),
    .logs (fun l => { l with owed := [] }),
    .boot (fun b => { b with phase := 0, image := if s.var .fwBusy = 1 then [] else b.image, staged := [] }),
    .var .fwBusy 0 0, setF .PWR_STATUS_STATE 0]

/-! Power states (R469). -/

/-- A write of PWR_CTRL.STANDBY: rails go off, and with them HBM contents and the ports. -/
def planStandby : Plan := fun s =>
  if !s.stopped ∨ s.get .PWR_STATUS_STATE ≠ 1 then []
  else plans [loseHbm, fun _ => [setF .PWR_STATUS_STATE 0],
    fun s' => planEach ((List.range 16).filter (fun p => s'.portState p != 5)) (fun p => portClear p 0) s'] s

/-- A write of PWR_CTRL.WAKE in STANDBY. -/
def planWake : Plan := fun s =>
  if s.get .PWR_STATUS_STATE ≠ 0 ∨ s.boot.phase ≠ 3 then [] else raiseReset 4 1 s

/-! Temperature and throttling (R471 to R474). -/

/-- Temperatures are signed and in 1/16 °C. -/
def temp (t : Nat) : Int := sext 16 t

/-- The signed greatest of temperatures, and the lowest sensor that reads it. -/
def hottest : List Nat → Nat × Nat
  | [] => (0, 0)
  | t :: ts =>
    (ts.zipIdx 1).foldl (fun m p => if temp p.1 > temp m.1 then p else m) (t, 0)

/-- Every sensor's reading. -/
def State.temps (s : State) : List Nat := (List.range 37).map (fun i => s.get .PWR_THERM_TEMP i)

/-- Whether every sensor reads `c` °C or less, and whether one reads `c` or more. -/
def State.allCool (s : State) (c : Int) : Bool := s.temps.all (fun t => decide (temp t ≤ 16 * c))
def State.anyHot (s : State) (c : Int) : Bool := s.temps.any (fun t => decide (temp t ≥ 16 * c))

/-- The sensors and the input are read (R471, R488): temperatures of the 37 sensors, the input's voltage, current, power and
the highest 10 µs power since the last read. -/
def planSensors (temps : List Nat) (mv amps watts peak : Nat) : Plan := fun s =>
  let ts := (List.range 37).map (fun i => temps.getD i (s.get .PWR_THERM_TEMP i) % 65536)
  let (top, at') := hottest ts
  plans [
    fun _ => (ts.zipIdx.map (fun p =>
        let old := s.get .PWR_THERM_MAX p.2
        [setF .PWR_THERM_TEMP p.1 p.2, setF .PWR_THERM_MAX (if temp p.1 > temp old then p.1 else old) p.2])).flatten ++
      [setF .PWR_THERM_HOTTEST top, setF .PWR_INPUT_MV mv, setF .PWR_INPUT_CURRENT amps, setF .PWR_INPUT_POWER watts,
       setF .PWR_INPUT_PEAK (max peak (s.get .PWR_INPUT_PEAK))],
    fun s' =>
      if s'.var .thermWarn = 0 ∧ s'.anyHot 105 then
        plans [fun _ => [.var .thermWarn 0 1], alertBits 2, postEvent 0x50 8 0 0 top at'] s'
      else if s'.var .thermWarn = 1 ∧ s'.allCool 100 then [.var .thermWarn 0 0]
      else []] s

/-- The pad that firmware reaches next, and why it last grew (R473). -/
def State.nextPad (s : State) : Nat × Nat :=
  let t := temp (s.get .PWR_THERM_HOTTEST)
  let w := s.get .PWR_INPUT_POWER
  let p := s.var .padP
  if t ≥ 16 * 105 ∨ w > s.cap then (min (p + 256) 4096, if t ≥ 16 * 105 then 1 else 2)
  else if t ≤ 16 * 100 ∧ w + 50 ≤ s.cap then (p - 256, s.var .padWhy)
  else (p, s.var .padWhy)

/-- Firmware updates the beat pad (R473): in RUNNING at a boundary that opens a beat whose number is a multiple of 64. -/
def planThrottle : Plan := fun s =>
  let due := s.var .boundaryDue
  let opens := if due ≥ 2 then s.get .BEAT_COUNT_COUNT else s.get .BEAT_COUNT_COUNT + 1
  if s.running ∧ (due = 0 ∨ opens % 64 ≠ 0) then []
  else
    let (p, why) := s.nextPad
    let floor := s.get .PWR_CFG_PAD_FLOOR
    let pad := max p floor
    let cause := if pad = 0 then 0 else if floor > p then 3 else why
    let told := if cause = 0 then s.get .PWR_THROTTLE_CAUSE else cause
    plans [fun _ => [.var .padP 0 p, .var .padWhy 0 why, setF .PWR_THROTTLE_PAD pad, setF .PWR_THROTTLE_CAUSE cause],
      if pad = s.get .PWR_THROTTLE_PAD then fun _ => []
      else plans [if pad > 0 then alertBits 1 else fun _ => [], postEvent 0x51 8 0 0 s.cap (told - 1)]] s

/-- A sensor reads 115 °C (R474): PWR_OK_OUT goes low and the rails stay off until THERM_RECOVER. -/
def planTrip : Plan := fun s =>
  if !s.anyHot 115 ∨ s.var .tripped = 1 then []
  else plans [fun _ => [.var .tripped 0 1, .var .pwrOk 0 0], alertBits 8, raiseSource 5] s

/-- Every sensor reads 100 °C or less after a trip: the rails may come up again. -/
def planRecover : Plan := fun s =>
  if s.var .tripped = 1 ∧ s.allCool 100 then [.var .tripped 0 0, .var .pwrOk 0 (s.var .bulk)] else []

/-! Other sources (R475, R479). -/

/-- MOD_RESET_N has been low for 1 µs (R479). -/
def planPin : Plan := fun s => if s.var .pinLow = 1 then [] else plans [fun _ => [.var .pinLow 0 1], raiseSource 2] s

/-- MOD_RESET_N rises (R479): a reset that had only waited for it completes. -/
def planPinUp : Plan := fun s =>
  if s.var .pinLow = 0 then []
  else .var .pinLow 0 0 :: (if s.boot.phase = 0 then [.boot (fun b => { b with phase := 1 })] else [])

/-! The SMBus target (R482) and the output pins (R481, R483). -/

/-- A byte enters the CRC-8 of the SMBus, x^8 + x^2 + x + 1 over the high bit. -/
def pecByte (c b : Nat) : Nat :=
  (List.range 8).foldl (fun x _ => if x ≥ 128 then (2 * x % 256) ^^^ 7 else 2 * x) (c ^^^ b)

/-- The target returns bytes at its address, with the Packet Error Code for a host that asks for it (R482): over the address
with its write and read bits, the command, the length of a block, and the bytes. PRESUMED: the PEC of SMBus 2.0, which R482
names (notes/assumptions/108.md). -/
def smbReply (cmd : Nat) (v : State → List Nat) : Plan := fun s =>
  let a := 2 * s.get .PWR_PROFILE_SMB_ADDR
  let bs := v s
  let block := if bs.length > 2 then [bs.length] else []
  if s.var .unpowered = 1 then []
  else [send .smbus (s.get .PWR_PROFILE_SMB_ADDR) [([a, cmd, a + 1] ++ block ++ bs).foldl pecByte 0] bs]

/-- A field as a word of two bytes. -/
def smbWord (cmd : Nat) (f : Fld) : Plan := smbReply cmd (fun s => leBytes 2 (s.get f))

/-- The alert status is read, and cleared. -/
def planSmbAlert : Plan := fun s =>
  if s.var .unpowered = 1 then [] else smbReply 6 (fun s' => [s'.var .alert]) s ++ [.var .alert 0 0]

/-- ALERT_N is asserted while an alert-status bit is set. -/
def State.alertN (s : State) : Bool := s.var .alert != 0

/-- The module answers at the Alert Response Address with its own address. -/
def planAlertResponse : Plan := fun s =>
  if s.alertN ∧ s.var .unpowered = 0 then [send .smbus 0x0C [s.get .PWR_PROFILE_SMB_ADDR] []] else []

/-- STATUS_LED[2:0] (R483), which a reset at level 2 holds until READY (R484). -/
def State.statusLed (s : State) : Nat :=
  if s.var .unpowered = 1 then 0
  else if s.var .ledHeld ≠ 0 then s.var .ledHeld - 1
  else if s.var .tripped = 1 ∨ s.get .PWR_STATUS_STATE = 2 ∨ s.var .railsOff = 1 ∨
      (s.inHold ∧ s.get .BEAT_STATUS_HOLD_CAUSE ≥ 2) then 7
  else if s.boot.phase = 4 then 2
  else if s.boot.phase ≠ 3 ∨ s.get .PWR_STATUS_STATE = 0 then 1
  else if s.running then (if s.get .PWR_THROTTLE_PAD = 0 then 4 else 6)
  else if s.inHold then 5
  else 3

/-- POWER_ON (R465). -/
def execPowerOn (profile : Nat) := answer (planPowerOn profile)
/-- PWR_OK_RELEASE (R465). -/
def execPwrOkRelease := answer planPwrOk
/-- BROWNOUT (R467). -/
def execBrownout := answer planBrownout
/-- RAILS_FALL (R467). -/
def execRailsFall := answer planRailsFall
/-- CLIP_SENSE_MATE (R486). -/
def execClipSenseMate := answer planClip
/-- INPUT_LOSS (R466). -/
def execInputLoss (mv : Nat) := answer (planInputLoss mv)
/-- LAST_GASP_END (R293). -/
def execLastGaspEnd (clk : Nat) := answer (planGaspEnd clk)
/-- THERM_SENSOR_READ (R471). -/
def execThermSensorRead (temps : List Nat) (mv amps watts peak : Nat) := answer (planSensors temps mv amps watts peak)
/-- THROTTLE_UPDATE (R473). -/
def execThrottleUpdate := answer planThrottle
/-- THERMAL_TRIP (R474). -/
def execThermalTrip := answer planTrip
/-- THERM_RECOVER (R474). -/
def execThermRecover := answer planRecover
/-- MOD_RESET_N (R479). -/
def execModResetN := answer planPin
/-- MOD_RESET_N_RELEASE (R479). -/
def execModResetNRelease := answer planPinUp
/-- WATCHDOG (R475). -/
def execWatchdog := answer (raiseSource 3)
/-- SYSTEM_CONTROLLER_FAULT (R432). -/
def execSystemControllerFault := answer (raiseSource 6)
/-- PWR_COMMIT (R488). -/
def execPwrCommit := answer (writeCommit 11 0)
/-- PWR_STANDBY (R469). -/
def execPwrStandby := answer planStandby
/-- PWR_WAKE (R469). -/
def execPwrWake := answer planWake
/-- SMB_READ_STATE (R482). -/
def execSmbReadState := answer (smbReply 0 (fun s => [s.get .PWR_STATUS_STATE]))
/-- SMB_READ_PROFILE (R482). -/
def execSmbReadProfile := answer (smbReply 1 (fun s => [s.get .PWR_PROFILE_PROFILE]))
/-- SMB_READ_VOLTAGE (R482). -/
def execSmbReadVoltage := answer (smbWord 2 .PWR_INPUT_MV)
/-- SMB_READ_CURRENT (R482). -/
def execSmbReadCurrent := answer (smbWord 3 .PWR_INPUT_CURRENT)
/-- SMB_READ_POWER (R482). -/
def execSmbReadPower := answer (smbWord 4 .PWR_INPUT_POWER)
/-- SMB_READ_TEMP (R482). -/
def execSmbReadTemp := answer (smbWord 5 .PWR_THERM_HOTTEST)
/-- SMB_READ_ALERT (R482). -/
def execSmbReadAlert := answer planSmbAlert
/-- SMB_READ_SERIAL (R482). -/
def execSmbReadSerial := answer (smbReply 7 (fun s => leBytes 16 s.boot.fuses.serial))
/-- SMB_READ_SVN (R482). -/
def execSmbReadSvn := answer (smbReply 8 (fun s => [s.get .FMP_FW_RUN_SVN]))
/-- SMB_ALERT_RESPONSE (R482). -/
def execSmbAlertResponse := answer planAlertResponse
/-- SMB_UNDEFINED_COMMAND (R482). -/
def execSmbUndefinedCommand (cmd : Nat) := answer (if cmd % 256 ≤ 8 then fun _ => [] else smbReply (cmd % 256) (fun _ => [0xFF]))
/-- SMB_WRITE (R482): the target NACKs after the command byte, and nothing changes. -/
def execSmbWrite := answer (fun _ => [])

end Sys2Proof.Machine
end

