-- ==== Sys2Proof/Machine/RingCore.lean ====
section
/-!
DEFINITION. Command rings (R454 to R458): doorbells, descriptor reads and checks, and completions.
-/
namespace Sys2Proof.Machine

/-- A ring beside its registers. -/
def State.ringSt (s : State) (i : Nat) : Ring := Sparse.get {} s.fmp.rings i

/-- A ring's state takes a value. -/
def setRing (i : Nat) (r : Ring) : Upd := .fmp (fun x => { x with rings := Sparse.set {} x.rings i r })

/-- Entries of a ring: 2^n. -/
def State.ringSize (s : State) (i : Nat) : Nat := 2 ^ s.get .FMP_RING_CFG_LOG2_ENTRIES i

/-- DPA of the descriptor of an index, and of its completion entry (R454, R455). -/
def State.descAt (s : State) (i idx : Nat) : Nat := s.get .FMP_RING_CFG_BASE i * 4096 + 64 * (idx % s.ringSize i)
def State.doneAt (s : State) (i idx : Nat) : Nat :=
  s.get .FMP_RING_CFG_BASE i * 4096 + 64 * s.ringSize i + 16 * (idx % s.ringSize i)

/-- The engine issues the read of the descriptor at HEAD, after `tries` re-reads; a line in error gives no bytes (R457). -/
def issueRead (i tries : Nat) (rung : Bool) : Plan := fun s =>
  let a := s.descAt i (s.get .FMP_RING_STATE_HEAD i)
  plans [noteRead 9 a, fun _ =>
    [setRing i { stage := 1, tries := tries, rung := rung, desc := if s.lineBad a then none else some (s.bytesAt a 64) },
     setF .FMP_RING_STATS_STATE (if tries = 0 then 2 else 3) i]] s

/-- The ring reads its next descriptor, or has no work. -/
def ringNext (i : Nat) : Plan := fun s =>
  if s.get .FMP_RING_STATE_HEAD i = s.get .FMP_RING_STATE_TAIL i then [setRing i {}, setF .FMP_RING_STATS_STATE 1 i]
  else issueRead i 0 false s

/-- A doorbell write (R455, R457): TAIL moves within the ring, and an idle or stalled ring begins at HEAD. -/
def planDoorbell (i tail : Nat) : Plan := fun s =>
  let head := s.get .FMP_RING_STATE_HEAD i
  let t := tail % 2 ^ 32
  let r := s.ringSt i
  if i ≥ 16 ∨ s.get .FMP_RING_STATS_STATE i = 0 then []
  else if serialBefore t head then [s.addF .FMP_RING_STATS_BAD_TAIL 1 i]
  else
    let far := decide ((t + 2 ^ 32 - head) % 2 ^ 32 > s.ringSize i)
    plans [fun _ => [setF .FMP_RING_STATE_TAIL (if far then (head + s.ringSize i) % 2 ^ 32 else t) i],
      if r.stage = 0 then ringNext i
      else if r.stage = 2 ∨ (r.stage = 1 ∧ r.tries > 0) then fun _ => [setRing i { r with rung := true }]
      else fun _ => []] s

/-- Whether the descriptor read passes its checks (R455, R457). -/
def State.descOk (s : State) (i : Nat) : Bool :=
  match (s.ringSt i).desc with
  | some b =>
    (b.getD 1 0).testBit 0 == (s.get .FMP_RING_STATE_HEAD i).testBit (s.get .FMP_RING_CFG_LOG2_ENTRIES i) &&
      ofLe (b.drop 60) == crc32c (b.take 60)
  | none => false

/-- The check of the descriptor read (R457). -/
def planCheck (i : Nat) : Plan := fun s =>
  let r := s.ringSt i
  if i ≥ 16 ∨ r.stage ≠ 1 then []
  else if s.descOk i then [setRing i { stage := 3, desc := r.desc }, setF .FMP_RING_STATS_STATE 2 i]
  else [setRing i { r with stage := 2 }, setF .FMP_RING_STATS_STATE 3 i]

/-- A failed check is followed by a re-read, or after the eighth by EARLY_DOORBELL and a stalled ring, which a doorbell of
the meantime starts again (R457). -/
def planReread (i : Nat) : Plan := fun s =>
  let r := s.ringSt i
  if i ≥ 16 ∨ r.stage ≠ 2 then []
  else if r.tries < 8 then issueRead i (r.tries + 1) r.rung s
  else plans [postEvent 0x40 8 0 i i (s.get .FMP_RING_STATE_HEAD i),
    fun s' => [s'.addF .FMP_RING_STATS_EARLY 1 i, setRing i {}, setF .FMP_RING_STATS_STATE 4 i],
    if r.rung then ringNext i else fun _ => []] s

/-- The command of a ring completes with a status: its entry is written, HEAD advances, and the next descriptor is read
(R455); NOTIFY adds an entry to the next EVENT message (R462). -/
def ringDone (i status : Nat) : Plan := fun s =>
  match (s.ringSt i).desc with
  | none => []
  | some b =>
    let head := s.get .FMP_RING_STATE_HEAD i
    let entry := [status, 0, 0, 0] ++ (b.drop 4).take 4 ++ leBytes 8 (s.get .BEAT_COUNT_COUNT)
    let note : Event := { code := 0x41, unit := 8, store := 0, index := i, d0 := fieldOf b 4 4, d1 := ofLe (entry.take 8)
                          beat := s.get .BEAT_COUNT_COUNT, phase := s.eventPhase }
    plans [writeMem (s.doneAt i head) entry,
      fun _ => (if (b.getD 1 0).testBit 1 then [.fmp (fun x => { x with notes := x.notes ++ [note] })] else []) ++
        [setF .FMP_RING_STATE_HEAD ((head + 1) % 2 ^ 32) i],
      ringNext i] s

/-- The arguments of a ring's command, by offset from 8 and size. -/
def ringArg (b : List Nat) (off size : Nat) : Nat := fieldOf b (8 + off) size

/-- A ring's command begins, where it is the one that the descriptor holds. -/
def ringRun (i op : Nat) (f : List Nat → Plan) : Plan := fun s =>
  match (s.ringSt i).desc with
  | some b => if i < 16 ∧ (s.ringSt i).stage = 3 ∧ b.getD 0 0 = op then f b s else []
  | none => []

/-- A ring's command is under way: what it has still to write, how it will complete, and whether it waits. -/
def ringBegun (i status : Nat) (left : List (Nat × Nat)) (wait : Bool) : Plan := fun s =>
  [setRing i { s.ringSt i with stage := 4, status := status, left := left, wait := wait }]

/-- DOORBELL (R455). -/
def execDoorbell (ring tail : Nat) := answer (planDoorbell ring tail)
/-- DESCRIPTOR_CHECK (R457). -/
def execDescriptorCheck (ring : Nat) := answer (planCheck ring)
/-- DESCRIPTOR_REREAD (R457). -/
def execDescriptorReread (ring : Nat) := answer (planReread ring)

end Sys2Proof.Machine
end

