-- ==== Sys2Proof/Machine/Readback.lean ====
section
/-!
DEFINITION. What a reader sees of the module: records of a Clay image (R190), an image as a dump holds it (R452), the logs
(R399, R429, R430), and the fields that registers form as they are read.
-/
namespace Sys2Proof.Machine

/-! Records of an image (R190). -/

/-- A number's bytes as `n` bytes. -/
def recBytes (n r : Nat) : List Nat := leBytes n r

/-- A section's records in the order of one of their bytes. -/
def byByte (off : Nat) (rs : List Nat) : List Nat :=
  rs.mergeSort (fun a b => decide (recGet a off 1 ≤ recGet b off 1))

/-- STREAMS records in ascending STREAM. -/
def Image.streams (i : Image) : List Nat := byByte 0 (i.sec 8)

/-- The bytes of a program in effect: base and length in instructions, in a cell's Tarn (R162). -/
def State.progBytes (s : State) (cell base len : Nat) : List Nat := s.bytesAt (cellTarn cell base) (8 * len)

/-- A joined SCHEDULE block as 8 B words (R161, R190). -/
def schedWords (b : Nat × Nat × List Nat) : List Nat := (b.1 + b.2.1 * 256 + b.2.2.length * 2 ^ 32) :: b.2.2

/-- The rescale entries that an image declares for a cell, as records that name it (R169, R190). -/
def Image.scalesOf (i : Image) (cell : Nat) : List Nat :=
  (List.range 64).filterMap (fun e => (i.scaleRec cell e).map (fun r => recPut r 0 1 cell))

/-- Record `n` of a section as it is in effect, for a cell where the section goes by cells (R190). -/
def State.imageRec (s : State) (i : Image) (sec cell n : Nat) : Option (List Nat) :=
  let at' : Nat → List Nat → Option (List Nat) := fun len rs => (rs[n]?).map (recBytes len)
  match sec with
  | 0 => if n < 2 then some (recBytes 64 (i.hdr >>> (512 * n))) else none
  | 1 => at' 8 ((i.sec 1).filter (fun r => recGet r 0 1 == cell))
  | 2 => at' 8 (byByte 1 ((i.sec 2).filter (fun r => recGet r 0 1 == cell)))
  | 4 => at' 8 (i.sched.map schedWords).flatten
  | 5 => (i.progs.find? (fun p => p.1 == cell)).bind (fun p =>
      if 64 * n < 8 * p.2.2 then some ((s.progBytes cell p.2.1 p.2.2).drop (64 * n) |>.take 64) else none)
  | 8 => if n < i.streams.length then at' 48 i.streams
    else (((i.streams.map i.layersOf).flatten)[n - i.streams.length]?).map (recBytes 16)
  | 0xA => if n = 0 then (if i.hasOpts then some (recBytes 32 i.optHdr) else none)
    else ((i.sec 0xA)[n - 1]?).map (recBytes 64)
  | 0xC => at' 8 (i.scalesOf cell)
  | 3 | 6 | 7 | 9 | 0xB | 0xD => at' (recLen sec) (i.sec sec)
  | _ => none

/-- What CLAY_RB_SEL names, as 64 B (R190). -/
def State.clayRecord (s : State) : Option (List Nat) :=
  match (if s.get .CLAY_RB_SEL_PLANE = 0 then s.clay.active else s.clay.shadow) with
  | some i => (s.imageRec i (s.get .CLAY_RB_SEL_SECTION) (s.get .CLAY_RB_SEL_CELL) (s.get .CLAY_RB_SEL_RECORD)).map
      (fun b => b ++ List.replicate (64 - b.length) 0)
  | none => none

/-! An image as bytes (R155, R452). -/

/-- Zero bytes up to a multiple of `m`. -/
def padTo (m : Nat) (b : List Nat) : List Nat := b ++ List.replicate (roundUp b.length m - b.length) 0

/-- The PROGRAMS record of a cell as it reads back (R158, R162): with a SOURCE its LENGTH is 0 and no body follows; a cell
that keeps its program under PROG_KEEP has none. -/
def State.progRecord (s : State) (i : Image) (p : Nat × Nat × Nat) : List Nat :=
  let src := Sparse.get 0 i.progSrc p.1
  let head : Nat → Nat → List Nat := fun source len => [p.1 % 256, source, 0, 0] ++ leBytes 4 len ++ leBytes 4 p.2.1 ++ leBytes 4 0
  if src = 0x200 then []
  else if src = 0 then padTo 64 (head 0xFF p.2.2 ++ s.progBytes p.1 p.2.1 p.2.2)
  else padTo 64 (head (src - 1) 0)

/-- The body of a section in effect and its COUNT. -/
def State.sectionBody (s : State) (i : Image) (t : Nat) : List Nat × Nat :=
  let recs := i.sec t
  match t with
  | 4 => ((i.sched.map (fun b => ((schedWords b).map (leBytes 8)).flatten)).flatten, i.sched.length)
  | 5 => ((i.progs.map (s.progRecord i)).flatten, (i.progs.filter (fun p => Sparse.get 0 i.progSrc p.1 != 0x200)).length)
  | 8 =>
    let rs := i.streams
    let n := rs.length
    let starts := (List.range n).map (fun k => 48 * n + 16 * ((rs.take k).map (fun r => (i.layersOf r).length)).foldl (· + ·) 0)
    (((rs.zip starts).map (fun p => leBytes 48 (recPut p.1 36 4 p.2))).flatten ++
      ((rs.map i.layersOf).flatten.map (leBytes 16)).flatten, n)
  | 0xA => (leBytes 32 (recPut i.optHdr 8 2 recs.length) ++ (recs.map (leBytes 64)).flatten, recs.length)
  | _ => ((recs.map (leBytes (recLen t))).flatten, recs.length)

/-- The sections that an image in effect holds, ascending. -/
def Image.sectionTypes (i : Image) : List Nat :=
  [1, 2, 3, 4, 5, 6, 7, 8, 9, 0xA, 0xB, 0xC, 0xD].filter (fun t =>
    requiredSections.contains t || !(i.sec t).isEmpty || (t == 0xA && i.hasOpts))

/-- The section table and the bodies after it: each body begins at a multiple of 64 (R156). `off`: where the next begins. -/
def State.placeSections (s : State) (i : Image) : List Nat → Nat → List Nat × List Nat
  | [], _ => ([], [])
  | t :: ts, off =>
    let (b, n) := s.sectionBody i t
    let (tab, rest) := s.placeSections i ts (off + roundUp b.length 64)
    (leBytes 2 t ++ leBytes 2 0 ++ leBytes 4 (crc32c b) ++ leBytes 8 off ++ leBytes 8 b.length ++ leBytes 4 n ++
      leBytes 4 0 ++ tab, padTo 64 b ++ rest)

/-- An image in effect in the layout of R155, with CRCs recomputed and no OWNER_SIGNATURE (R452). Where the sections lie is
the model's choice (notes/assumptions/63.md). -/
def State.imageBytes (s : State) (i : Image) : List Nat :=
  let ts := i.sectionTypes
  let start := 128 + roundUp (32 * ts.length) 64
  let (tab, bodies) := s.placeSections i ts start
  let whole := bodies ++ List.replicate (4096 - (start + bodies.length)) 0
  let h1 := recPut (recPut i.hdr 10 2 (recGet i.hdr 10 2 &&& 0xFFFD)) 16 8 (start + whole.length)
  let h2 := recPut (recPut (recPut h1 28 2 ts.length) 32 4 128) 36 4 (crc32c tab)
  let h3 := recPut h2 12 4 0
  let hdr := leBytes 128 (recPut h3 12 4 (crc32c (leBytes 128 h3)))
  hdr ++ padTo 64 tab ++ whole

/-! Logs (R399, R429, R430). -/

/-- An event entry as 32 B (R429). -/
def Event.bytes (e : Event) : List Nat :=
  leBytes 6 e.beat ++ leBytes 2 e.code ++ [e.unit, e.store] ++ leBytes 2 e.index ++ leBytes 4 e.phase ++
    leBytes 8 e.d0 ++ leBytes 8 e.d1

/-- Entry `n` of the event log, and of the error history (its CRC checked). -/
def State.eventEntry (s : State) (n : Nat) : Option (List Nat) := (Sparse.get none s.logs.log (n % 4096)).map Event.bytes
def State.histEntry (s : State) (n : Nat) : Option (List Nat) :=
  let r := Sparse.get 0 s.logs.hist n
  let b := leBytes 64 r
  if r = 0 ∨ ofLe (b.drop 60) ≠ crc32c (b.take 60) then none else some b

/-- The entry that ERR_HIST_SEL names, once its read has completed (R431). -/
def State.histSel (s : State) : Option (List Nat) :=
  if s.var .clk < s.var .histReady then none else s.histEntry (s.get .ERR_HIST_SEL_INDEX)

/-- Eight bytes of an entry for register `n`, or zero. -/
def entryWord (e : Option (List Nat)) (n : Nat) : Nat := match e with | some b => fieldOf b (8 * n) 8 | none => 0

/-! Fields formed as they are read. -/

/-- The torn list of a stack, in ascending key order (R260). -/
def State.tornOf (s : State) (stack : Nat) : List TornRow := s.rows.torn.filter (fun t => t.stack == stack)

/-- Entries of a kind in a stack's Drift Map slice. -/
def State.mapUse (s : State) (stack kind : Nat) : Nat :=
  (s.rows.dmap.filter (fun e => e.1 / 2 ^ 21 == stack && locKind e.2.2 == kind)).length

/-- KEXP register `n` of a die: eight channels in effect (R311, R326). -/
def State.kexpWord (s : State) (i : Nat) : Nat :=
  let n := i % 1024
  ofLe ((List.range 8).map (fun j => wrapInt 8 (s.kexp (i / 1024) (n / 128) (n % 128 * 8 + j))))

/-- The latch of the probed queue (R42): DEPTH, CREDITS, OCCUPANCY, GEN, STALL_CLK and SENT; none for no queue. -/
def State.probe (s : State) : List Nat := (s.queue (s.get .BEAT_QPROBE_SEL_QUEUE)).latch

/-- Word `k` of the probe. -/
def State.probeAt (s : State) (k : Nat) : Nat := s.probe.getD k 0

/-- The history and layer that a die's SEQ_SEL names. -/
def State.seqSel (s : State) (die : Nat) : Nat × Nat :=
  (min (128 * die + 127) (max (128 * die) (s.get .SEQ_SEL_HIST die)),
   min (s.get .SEQ_SEL_LAYER die) (s.get .SEQ_CFG_LAYERS_M1 die))

/-- The page that a die's SEQ_SEL names, where it is not FREE. -/
def State.pageSel (s : State) (die : Nat) (v : State → Nat → Nat → Nat) : Nat :=
  let p := s.get .SEQ_SEL_PAGE die
  if s.kv.used.any (fun u => u.1 == die && u.2.1 == p) then v s die p else 0

/-- The value of a field as a read returns it: most are held, the rest are formed. -/
def State.viewField (s : State) (f : Fld) (i : Nat) : Nat :=
  match f with
  | .BEAT_QPROBE_STATE_VALID => b2n (!s.probe.isEmpty)
  | .BEAT_QPROBE_STATE_DEPTH => s.probeAt 0
  | .BEAT_QPROBE_STATE_CREDITS => s.probeAt 1
  | .BEAT_QPROBE_STATE_OCCUPANCY => s.probeAt 2
  | .BEAT_QPROBE_STATE_GEN => s.probeAt 3
  | .BEAT_QPROBE_STATE_STALL_CLK => s.probeAt 4
  | .BEAT_QPROBE_TOTAL_SENT => s.probeAt 5
  | .TIER_HOT_DIRTY_W => (s.dirtyCopies 0).length
  | .TIER_HOT_DIRTY_E => (s.dirtyCopies 1).length
  | .TIER_STREAM_READY | .TIER_STREAM_FILLING | .TIER_STREAM_WAIT_CLK =>
    if (s.img.sec 8).any (fun r => recGet r 0 1 == i) then s.get f i else 0
  | .CELL_ID_ID => i
  | .CELL_ID_DIE => i / 72
  | .CELL_ID_ROW => i % 72 / 9
  | .CELL_ID_COL => i % 9
  | .CELL_REG_DATA_DATA => s.regData i
  | .CLAY_STATUS_FLIP_BLOCK => s.flipBlocks
  | .CLAY_RB_SEL_VALID => b2n s.clayRecord.isSome
  | .CLAY_RB_DATA_DATA => entryWord s.clayRecord i
  | .EMB_STATUS_RESHARD => b2n (s.clay.active.isSome && s.prevN.isSome)
  | .EMB_TABLE_COUNT_FETCHED | .EMB_TABLE_COUNT_ABSENT | .EMB_TABLE_EXCL_INVALID | .EMB_TABLE_EXCL_ERR
  | .EMB_TABLE_EXCL_TIMEOUT | .EMB_TABLE_EXCL_FULL => if (s.table (i % 4096)).isSome then s.get f i else 0
  | .DRIFT_STATUS_IN_FLIGHT => (s.rows.drifts.filter (fun d => d.stack == i && d.cause == 0 && d.stage != 9)).length
  | .DRIFT_MAP_USE_RESIDENT => s.mapUse i kResident
  | .DRIFT_MAP_USE_MOVED => s.mapUse i kMoved
  | .DRIFT_MAP_USE_CACHED => min (s.mapUse i kCached) 1048575
  | .DRIFT_PROBE_LOCATION => s.dmLoc i (s.get .DRIFT_PROBE_KEY_KEY i)
  | .DRIFT_PROBE_EST_EST => s.estimate i (s.get .DRIFT_PROBE_KEY_KEY i)
  | .DRIFT_HEAVY_KEY_KEY =>
    let e := s.heavyAt i (s.get .DRIFT_HEAVY_SEL_INDEX i)
    if e.2 = 0 then 0 else e.1
  | .DRIFT_HEAVY_EST_EST => (s.heavyAt i (s.get .DRIFT_HEAVY_SEL_INDEX i)).2 - 1
  | .DRIFT_HEAVY_EST_VALID => b2n ((s.heavyAt i (s.get .DRIFT_HEAVY_SEL_INDEX i)).2 != 0)
  | .SILT_LANES_LOG_IN_USE => (s.rows.log.filter (fun e => e.stack == i)).length
  | .SILT_TORN_COUNT => (s.tornOf i).length
  | .SILT_TORN_DEFERRED => (s.rows.deferred.filter (fun d => d.stack == i)).length
  | .SILT_TORN_SEL_VALID => b2n (decide (s.get .SILT_TORN_SEL_INDEX i < (s.tornOf i).length))
  | .SILT_TORN_KEY_KEY => match (s.tornOf i)[s.get .SILT_TORN_SEL_INDEX i]? with | some t => t.key | none => 0
  | .SEQ_PAGES_HISTS => s.kvHists i
  | .SEQ_HIST_LENGTH => s.kvLen (s.seqSel i).1 (s.seqSel i).2
  | .SEQ_HIST_ENTRY =>
    let (h, l) := s.seqSel i
    if s.get .SEQ_SEL_INDEX i < kvPages (s.kvLen h l) then s.kvEntry h l (s.get .SEQ_SEL_INDEX i) else 0xFFFF
  | .SEQ_HIST_PENDING => match s.kvPend (s.seqSel i).1 (s.seqSel i).2 with | some p => p.page | none => 0xFFFF
  | .SEQ_PAGE_REFCOUNT => s.pageSel i State.kvRef
  | .SEQ_PAGE_STATE => s.pageSel i State.kvState
  | .SEQ_PAGE_FILL => s.pageSel i State.kvFill
  | .SEQ_PAGE_TIER => s.pageSel i State.kvTier
  | .SEQ_PAGE_FRAME => s.pageSel i State.kvFrame
  | .SEQ_KEXP_KEXP => s.kexpWord i
  | .COLL_PEER_STATE => if s.clay.active.isSome ∧ i = s.rank then 3 else s.get f i
  | .SILT_STATUS_STEP => s.oldestStep i
  | .SPRING_DURABLE_SEQ_SEQ => if s.durableSeq = 0 then u64max else s.durableSeq - 1
  | .COLL_STATUS_LIVE => if s.clay.active.isNone then 0 else s.liveRanks.length
  | .COLL_LEASE_HELD => s.coll.lent.length
  | .COLL_PERM_IN_FLIGHT => min 65535 (((List.range 16).map s.permMoves).foldl (· + ·) 0)
  | .XPORT_STATUS_QUARANTINE_ANY => b2n ((s.listed .XPORT_EP_STATE_CONN).any (fun c => s.get .XPORT_EP_STATE_CONN c == 3))
  | .XPORT_VLOG_DATA_DATA => fieldOf (leBytes 32 (Sparse.get 0 s.xport.vlog (s.get .XPORT_VLOG_SEL_INDEX))) (8 * i) 8
  | .XPORT_SVC_ADDR_HI_ADDR | .XPORT_SVC_ADDR_LO_ADDR => if s.get .XPORT_EP_SEL_SVC = 1 then s.get f i else 0
  | .ERR_STATUS_DMA_HALTED => ((List.range 3).map (fun c => s.get .ERR_DMA_STATE_HALTED c * 2 ^ c)).foldl (· + ·) 0
  | .ERR_SCRUB_FIRST_UE_LINE | .ERR_SCRUB_LAST_UE_LINE => if s.get .ERR_SCRUB_SUM1_UE = 0 then 0 else s.get f i
  | .ERR_EVLOG_SEL_VALID => b2n (s.eventEntry (s.get .ERR_EVLOG_SEL_INDEX)).isSome
  | .ERR_EVLOG_DATA_DATA => entryWord (s.eventEntry (s.get .ERR_EVLOG_SEL_INDEX)) i
  | .ERR_HIST_SEL_VALID => b2n s.histSel.isSome
  | .ERR_HIST_DATA_DATA => entryWord s.histSel i
  | .FMP_STATUS_SESSION => b2n (s.get .FMP_SESSION_ID != 0)
  | .FMP_STATUS_UNOWNED => b2n s.ownerDigests.isEmpty
  | .FMP_FW_SVN_MIN => s.boot.fuses.svnMin
  | .FMP_FUSE_OWNER_PRESENT => (s.boot.fuses.owners.zipIdx.map (fun p => b2n (p.1 != 0) * 2 ^ p.2)).foldl (· + ·) 0
  | .FMP_FUSE_OWNER_REVOKED => s.boot.fuses.revoke
  | .FMP_FUSE_CLAY_SIG_REQUIRED => b2n s.boot.fuses.claySig
  | .FMP_FUSE_DATA_PORT_FMP_OFF => b2n s.boot.fuses.dataOff
  | .FMP_FUSE_ROM_LOADER_OFF => b2n s.boot.fuses.romOff
  | .FMP_FUSE_PENDING => b2n (s.boot.burnt != s.boot.fuses)
  | .RST_MAP_LEVEL => s.sourceLevel i
  | .PWR_STATUS_THROTTLED => b2n (s.get .PWR_THROTTLE_PAD != 0)
  | _ => s.get f i

/-! Reading a register (R14, R15). -/

/-- The fields of the register at an address, with the instances that they show; none where no register is. -/
def State.fieldsAt (s : State) (addr : Nat) : List (FieldDesc × Nat) :=
  match findReg regTable addr with
  | none => []
  | some (r, i1, i2) => r.fields.map (fun f => (f, s.fldInst r.sel f (i1 * r.n2 + i2)))

/-- What a read of a control-space address returns: WO fields, reserved bits and addresses without a register are zero. -/
def State.readReg (s : State) (addr : Nat) : Nat :=
  (s.fieldsAt addr).foldl (fun n p =>
    if p.1.acc = .wo then n else n + ((s.viewField p.1.fld p.2 % 2 ^ p.1.fld.width) <<< p.1.lo)) 0

/-- Where a field of one index shows: FAILOVERS is one count of a pair, which each of its sinks shows (R301). -/
def State.sharedBy (s : State) (f : Fld) (i : Nat) : List Nat :=
  if f = .SPRING_SINK_STATS_FAILOVERS then i :: (s.members (s.pairId i)).filter (· != i) else [i]

/-- What a read does: RC fields are cleared (R14). -/
def readClears (addr : Nat) : Plan := fun s =>
  (((s.fieldsAt addr).filter (fun p => p.1.acc == .rc)).map (fun p =>
    (s.sharedBy p.1.fld p.2).map (fun i => Upd.reg p.1.fld i p.1.fld.reset))).flatten

end Sys2Proof.Machine
end

