-- ==== Sys2Proof/Machine/Reset.lean ====
section
/-!
DEFINITION. Resets (R475 to R479): what each level clears and keeps (R477, R484), the cell reset (R478), and what the stacks
do of it for their rows (R205, R259, R260, R272).
-/
namespace Sys2Proof.Machine

/-! What stays. -/

/-- Whether a field's key lies between two fields of the register maps. -/
def keyIn (lo hi : Fld) (k : Nat) : Bool := decide (lo.ctorIdx ≤ k % 1024 ∧ k % 1024 ≤ hi.ctorIdx)

/-- Whether a key is of one of some fields. -/
def keyOf (fs : List Fld) (k : Nat) : Bool := fs.any (fun f => f.ctorIdx == k % 1024)

/-- Fields that report what resets at levels 2 and 3 keep: Spring's ring state, lost stacks, retired pages, lost cells. -/
def keptState : List Fld := [.SPRING_STATUS_RING_HIGH, .SPRING_SEQ_NEXT_SEQ, .SPRING_SEQ_RETAINED_SEQ,
  .SPRING_RING_USE_USED, .SPRING_UNSENT_UNSENT, .SPRING_DURABLE_STEP, .SPRING_DURABLE_VALID, .SPRING_DURABLE_SEQ_SEQ,
  .SPRING_SINK_STATE_STATE, .SPRING_SINK_STATE_ROLE, .SPRING_SINK_STATE_PROTOCOL, .SPRING_SINK_STATE_PAIR,
  .SPRING_SINK_STATE_INCARNATION, .SPRING_SINK_ACKED_SEQ, .ERR_STATUS_STATE_LOST, .CLAY_CELL_FAIL_FAILED]

/-- Fields of a cell that report its planes (R477). -/
def planeFlds : List Fld := [.CELL_RS_CFG_ACTIVE, .CELL_RS_AMAX_CUR_AMAX, .CELL_RS_AMAX_H, .CELL_RS_HIST_VALUE,
  .CELL_RS_HIST_NEXT, .CELL_SEQ_PROG_LENGTH, .CELL_SEQ_PROG_BASE]

/-- The blocks whose fields a reset at level 3 leaves. -/
def outerBlock (k : Nat) : Bool :=
  keyIn .PORT_CTRL_COMMIT .PORT_FWD_TABLE_ENTRY k || keyIn .FMP_CTRL_COMMIT .FMP_DOORBELL_TAIL k ||
  keyIn .PWR_CTRL_COMMIT .PWR_THROTTLE_PADDED k || keyIn .RST_CAUSE_LEVEL .RST_LAST_BEAT_BEAT k

/-- Register fields that a reset leaves as they are (R477, R489). The count of retired pages and INPUT_OK report what no
reset changes, and the profile what level 2 does not read again. -/
def keepsReg (level k : Nat) : Bool :=
  keyOf [.ERR_RETIRE_STATS_PAGES, .PWR_STATUS_INPUT_OK] k ||
  match level with
  | 0 => false
  | 1 => keyIn .RST_CAUSE_LEVEL .RST_LAST_BEAT_BEAT k
  | 2 => keyIn .RST_CAUSE_LEVEL .RST_LAST_BEAT_BEAT k || keyOf keptState k ||
      keyOf [.PWR_PROFILE_PROFILE, .PWR_PROFILE_CAP, .PWR_PROFILE_SMB_ADDR] k
  | 3 => outerBlock k || keyOf keptState k
  | _ => !keyIn .CELL_ID_ID .CELL_SEQ_CLAMP_LAST_OPCODE k || keyOf planeFlds k

/-- Variables that every reset leaves: the clock, what the outside fixes, and what firmware keeps in the module store. -/
def lastingVars : List Var := [.clk, .freeCount, .histCount, .tripped, .railsOff, .unpowered, .bulk, .clip, .pinLow, .strap,
  .thermWarn, .pwrOk, .fwBusy]

/-- Variables that a reset at level 3 leaves beside them: those of FMP and of power. -/
def outerVars : List Var := [.padNow, .padP, .padWhy, .stretchSince, .soundAt, .rstAsk, .rstDueAt, .ledHeld]

/-- Variables that a reset leaves as they are. -/
def keepsVar (level k : Nat) : Bool :=
  let any := fun (vs : List Var) => vs.any (fun v => v.ctorIdx == k % 256)
  any lastingVars || (decide (level ≥ 2) && any [.alert]) || (decide (level ≥ 3) && any outerVars)

/-! What the stacks do (R205, R259, R260). -/

/-- Drifts in progress are abandoned (R205). A copy that is not installed goes with its slot, and the entry that it
displaced stands again. -/
def abandonDrifts : Plan := fun s =>
  let pend := s.rows.dmap.filter (fun e => locKind e.2.2 == kResident && locPending e.2.2)
  plans [
    planEach pend (fun e s' =>
      let stack := e.1 / 2 ^ 21
      let old := ((s.rows.arrivals.find? (fun a => a.stack == stack && a.key == e.2.1)).map (·.old)).getD 0
      plans [(match s'.table (keyTable e.2.1) with
          | some t => setAreaBit stack t (locLast e.2.2) false
          | none => fun _ => []),
        dmFree stack e.2.1, if old = 0 then fun _ => [] else dmPlace stack e.2.1 old] s'),
    planEach s.rows.dmap (fun e =>
      if locLeaving e.2.2 ∨ locKind e.2.2 = kBucket then clearLeaving (e.1 / 2 ^ 21) e.2.1
      else if locKind e.2.2 = kTombstone then dmFree (e.1 / 2 ^ 21) e.2.1
      else fun _ => []),
    fun _ => [.rows (fun r => { r with drifts := [], arrivals := [] })]] s

/-- Updates in flight are abandoned, and their log entries become TORN rows (R259, R260, R419). -/
def tornLogMove : Plan := fun s =>
  plans [planEach (List.range 16) (fun i => readList i 1), fun _ => [.rows (fun r => { r with log := [] }), .silt (fun x => { x with
      writing := [], combs := x.combs.map (fun c => if c.st = 1 then { c with st := 2 } else c) })],
    planEach s.rows.log (fun e => addTorn e.stack e.key e.dpa)] s

/-- DPA of the slot at a position of a table's walk. -/
def posDpa (stack t pos : Nat) : Nat :=
  if pos < 16 * tblBuckets t then tblDpa stack t + pos / 16 * bucketBytes t + 128 + pos % 16 * tblSlot t
  else driftDpa stack t (pos - 16 * tblBuckets t)

/-- The rows of a stack whose header has HOT_DIRTY. -/
def State.dirtyRows (s : State) (stack : Nat) : List TornRow :=
  s.tablesById.flatMap (fun t =>
    (List.range (16 * tblBuckets t + tblSpare t)).filterMap (fun pos =>
      match s.rowAt stack t pos with
      | some key => if hdrDirty (slotHdr s (posDpa stack t pos)) then some ⟨stack, key, posDpa stack t pos⟩ else none
      | none => none))

/-- The shared Tarns are cleared: every stack sweeps its tables, as the image that ends has them (R260). -/
def beginSweeps : Plan := fun s =>
  .rows (fun r => { r with sweep := r.sweep ++ ((List.range 16).flatMap s.dirtyRows) }) ::
  (List.range 16).map (fun i => setF .SILT_TORN_SWEEP_BUSY 1 i)

/-! Levels 0 to 3. -/

/-- The error history takes the reset, with its lowest source and its level (R430). -/
def noteReset (sources level : Nat) : Plan := fun s =>
  let src := ((bitsSet 7 sources).head?).getD 0
  let e : Event := { code := 0x100, unit := 8, store := 0, index := 0, d0 := src + level * 16, d1 := 0
                     beat := s.get .BEAT_COUNT_COUNT, phase := s.eventPhase }
  [.logs (fun l => { l with owed := l.owed ++ [e] })]

/-- What firmware and the ROM keep: the fuses are sensed again at levels 0 and 1, and the ROM is due at levels 0 to 2, once
MOD_RESET_N is high. -/
def bootReset (level : Nat) : Plan := fun s =>
  let ph := if s.var .pinLow = 1 then 0 else 1
  [.boot (fun b =>
    let b1 := if level ≤ 1 then { b with fuses := b.burnt } else b
    if level ≤ 2 then { b1 with phase := ph, image := if s.var .fwBusy = 1 then [] else b.image, staged := [] } else b1)] ++
  (if level ≤ 2 then [.var .fwBusy 0 0] else [])

/-- A reset at levels 0 to 3 (R477): the module is STOPPED without an image. -/
def resetModule (level : Nat) : Plan := fun s =>
  let hard := decide (level ≤ 1)
  let held := !hard && (List.range 8).any (fun k => s.sinkSt k != 0)
  plans [
    if hard then fun _ => [] else plans [abandonDrifts, tornLogMove, beginSweeps, appendAll],
    fun s1 => [
      .keepRegs (fun k => keepsReg level k || (!hard && keyOf [.SILT_TORN_SWEEP_BUSY] k)),
      .keepVars (keepsVar level), .keepMem (fun a => !hard && decide (a < 0x010000000000)), .dropQueues,
      .slices (fun _ => []), .cells (fun _ => {}), .logs (fun l => { owed := l.owed, hist := l.hist }), .clay (fun _ => {}),
      .xport (fun x => if level = 3 then { ports := x.ports } else {}),
      .rows (fun r => if hard then { retired := r.retired } else
        { dmap := r.dmap, dmapBad := r.dmapBad, listBad := r.listBad, torn := r.torn, sweep := r.sweep, retired := r.retired }),
      .spring (fun x => if hard then {} else
        { ring := x.ring, head := x.head, sinks := x.sinks, off := x.off, past := x.past, link := x.link }),
      .silt (fun _ => {}), .emb (fun _ => {}), .kv (fun _ => {}), .coll (fun _ => {}),
      .fmp (fun x => if level ≤ 2 then {} else x)] ++
      (if level ≤ 1 then latchProfile s1 else if level = 2 then [.var .ledHeld 0 (s1.statusLed + 1)] else []) ++
      (if held then .var .sinksHeld 0 1 :: ((List.range 8).filter (fun k => s1.sinkSt k != 0 && s1.sinkSt k != 5)).map (fun k =>
        setF .SPRING_SINK_STATE_STATE 4 k) else []),
    fun s2 => (if level ≤ 2 then [setF .PWR_CFG_CAP (s2.get .PWR_PROFILE_CAP)] else []) ++
      (if held then [setF .SPRING_STATUS_PAIR_DOWN 1] else []),
    if level = 3 then loadEnded 5 else fun _ => [],
    bootReset level, newIncarnation] s

/-! Level 4 (R478). -/

/-- The APPLY slices under way are abandoned with the beat; a step whose LAST APPLY was among them ends as one without
(R268, R478). -/
def abandonApply : Plan := fun s =>
  [.silt (fun x => { x with
    quota := []
    lastAt := (List.range 16).foldl (fun m k =>
      if Sparse.get 0 s.silt.ended k < Sparse.get 0 m k then Sparse.set 0 m k (Sparse.get 0 s.silt.ended k) else m) x.lastAt
    combs := x.combs.filter (fun c => c.st != 2) })]

/-- A reset of the cells: what they had in flight goes, a running beat freezes and the module holds. -/
def resetCells : Plan := fun s =>
  plans [abandonDrifts, tornLogMove, abandonApply,
    planEach (s.rows.drifts.filter (fun d => d.cause == 1)) (fun d => permRetry d.stack d.key),
    planEach (s.rows.drifts.filter (fun d => d.cause == 2)) (fun d => retireLost d.stack d.key),
    dropFlipMbs, recredit s.img false, endSlices false, clearTiles,
    fun _ => [.keepRegs (keepsReg 4), .cells (fun c => { c with v := [], s := [], m := [], a := [] })],
    clearVar .cellCommit, clearVar .cellStall, clearVar .tileWait, clearVar .arrayBusy, clearVar .lastAopTag,
    (if s.running then plans [enterHold 1, fun _ => [.var .boundaryDue 0 1]] else fun _ => []),
    planEach s.rows.held (fun h => releaseHeld h.stack h.key)] s

/-! RESET. -/

/-- A reset runs at the lowest level that pends (R476), but not during a flush (R468). One that comes while MOD_RESET_N
holds the module in reset merges into that, or restarts it at a lower-numbered level. The reset that a RESET message asks
for joins once it is due (R449). -/
def planReset : Plan := fun s =>
  let ask := s.var .rstAsk
  let pend : Plan := if ask ≠ 0 ∧ (s.var .rstLevel = 0 ∨ s.var .clk ≥ s.var .rstDueAt) then
      plans [raiseReset 4 (ask - 1), fun _ => [.var .rstAsk 0 0, .var .rstDueAt 0 0]]
    else fun _ => []
  let run : Plan := fun s' =>
    if s'.var .rstLevel = 0 then []
    else
      let level := s'.var .rstLevel - 1
      let sources := s'.var .rstPend
      let inReset := s'.var .pinLow = 1 ∧ s'.boot.phase = 0
      let beat := if sources.testBit 0 then 0 else s'.get .BEAT_COUNT_COUNT % 2 ^ 48
      if inReset ∧ level ≥ s'.get .RST_CAUSE_LEVEL then
        [setF .RST_CAUSE_SOURCES (s'.get .RST_CAUSE_SOURCES ||| sources), .var .rstPend 0 0, .var .rstLevel 0 0]
      else
        let all := if inReset then s'.get .RST_CAUSE_SOURCES ||| sources else sources
        let n := if level = 0 then 0 else s'.get .RST_CAUSE_COUNT + 1
        plans [noteReset all level, fun _ => [.var .rstPend 0 0, .var .rstLevel 0 0, .var .lgPhase 0 0],
          if level ≤ 3 then resetModule level else resetCells,
          fun _ => [setF .RST_CAUSE_LEVEL level, setF .RST_CAUSE_SOURCES all, setF .RST_CAUSE_COUNT (min n (2 ^ 32 - 1)),
            setF .RST_LAST_BEAT_BEAT beat]] s'
  if s.var .unpowered = 1 ∨ (s.var .lgPhase ≠ 0 ∧ s.var .lgPhase ≠ 4) then [] else plans [pend, run] s

/-- RESET (R475 to R479). -/
def execReset := answer planReset

end Sys2Proof.Machine
end

