-- ==== Sys2Proof/Machine/Control.lean ====
section
/-!
DEFINITION. A write of a control-space register (R14, R15): its fields land together, and writes of 1 to its command bits
act as the commands' own rows do.
-/
namespace Sys2Proof.Machine

/-- The block of a commit field. -/
def commitBlock : Fld → Option Nat
  | .TIER_CTRL_COMMIT => some 0
  | .CELL_CTRL_COMMIT => some 1
  | .EMB_CTRL_COMMIT => some 2
  | .SILT_CTRL_COMMIT => some 3
  | .SPRING_CTRL_COMMIT => some 4
  | .SEQ_CTRL_COMMIT => some 5
  | .COLL_CTRL_COMMIT => some 6
  | .PORT_CTRL_COMMIT => some 7
  | .XPORT_CTRL_COMMIT => some 8
  | .FMP_CTRL_COMMIT => some 10
  | .PWR_CTRL_COMMIT => some 11
  | _ => none

/-- What a 1 in a command bit of instance `i` does. -/
def writeBit (f : Fld) (i : Nat) : Plan := fun s =>
  match f with
  | .BEAT_CTRL_START => planStart s
  | .BEAT_CTRL_HOLD_REQ => planHoldReq (s.get .BEAT_CTRL_HOLD_MODE) s
  | .BEAT_CTRL_RESUME => planResume s
  | .TIER_CTRL_HOT_FLUSH => planHotFlush s
  | .CELL_SEQ_CTRL_RESTART => planSeqRestart i (s.get .CELL_SEQ_CTRL_RESTART_PC i) s
  | .CLAY_CTRL_LOAD => planLoad s
  | .CLAY_CTRL_CANCEL => planCancel s
  | .CLAY_CTRL_ARM => planArm s
  | .CLAY_CTRL_GROUP_COMMIT => planGroup s
  | .EMB_CTRL_SKETCH_CLEAR => [.var .sketchClear i 1]
  | .DRIFT_CMD_GO => planGo i (s.get .DRIFT_CMD_DEST_RANK i) (s.get .DRIFT_CMD_DEST_STACK i) s
  | .SPRING_CTRL_CLOSE_WINDOW => closeWindow (s.get .BEAT_STEP_STEP) 3 s
  | .SPRING_CTRL_SWAP => planSwap s
  | .SPRING_CTRL_PAIR_ENABLE => planTurn 1 s
  | .SPRING_CTRL_PAIR_DISABLE => planTurn 2 s
  | .SPRING_CTRL_SINKS_RECONNECT => planReconnect s
  | .COLL_CTRL_PERM_START => planPermStart s
  | .COLL_CTRL_PERM_ABORT => planPermAbort s
  | .PORT_CTRL_RETRAIN => planIf (fun s' => s'.portOn i) (portFail i 3) s
  | .PORT_CTRL_LANE_CLEAR => planLaneClear i s
  | .XPORT_CTRL_QUAR_CLEAR => planQuarClear s
  | .XPORT_CTRL_CONN_RESET => resetEp s.selEp s
  | .XPORT_CTRL_ROCE_REARM => roceRearm (s.get .XPORT_ROCE_SEL_SINK) s
  | .ERR_CTRL_SCRUB_GO => planScrubGo s
  | .ERR_CTRL_SCRUB_ABORT => planScrubAbort s
  | .ERR_CTRL_DMA_RESTART => planDmaRestart false s
  | .ERR_CTRL_DMA_RESTART_SKIP => planDmaRestart true s
  | .ERR_CTRL_RETIRE_GO => planRetireGo s
  | .ERR_CTRL_LINE_CLEAR => planLineClear s
  | .ERR_CTRL_STACK_CLEAR => planStackClear s
  | .PWR_CTRL_STANDBY => planStandby s
  | .PWR_CTRL_WAKE => planWake s
  | _ => match commitBlock f with
    | some b => writeCommit b i s
    | none => []

/-- The history entry that ERR_HIST_SEL names is read from the module store, which takes at most 512 clk (R431). -/
def histSelect : Plan := fun s =>
  [.var .histReady 0 (s.var .clk + s.free 9 + 1), .var .freeCount 0 (s.var .freeCount + 1)]

/-- A field of a written register takes its bits, by its access code. -/
def writeField (p : FieldDesc × Nat) (v : Nat) : Plan := fun s =>
  let f := p.1.fld
  let w := bits v p.1.lo f.width
  match p.1.acc with
  | .rw => if f = .ERR_HIST_SEL_INDEX then plans [writeRw f p.2 w, histSelect] s else writeRw f p.2 w s
  | .rws | .rwsClass => writeShadow f p.2 w s
  | .w1c => if w = 1 then [setF f 0 p.2] else []
  | _ => []

/-- A command field of a written register acts: SINK_ACK and the doorbells take a value, the others are single bits. -/
def writeCommand (p : FieldDesc × Nat) (v : Nat) : Plan := fun s =>
  let f := p.1.fld
  let w := bits v p.1.lo f.width
  if p.1.acc ≠ .wo then []
  else match f with
    | .SPRING_SINK_ACK_SEQ => planAckWrite w s
    | .FMP_DOORBELL_TAIL => planDoorbell p.2 w s
    | _ => if w = 1 then writeBit f p.2 s else []

/-- A write of a control-space register: values land first, then the command bits act in the order of their places. An
address without a register takes no write (R450). -/
def writeReg (addr v : Nat) : Plan := fun s =>
  let fs := s.fieldsAt addr
  plans [planEach fs (fun p => writeField p v), planEach fs (fun p => writeCommand p v)] s

/-- REGISTER_WRITE (R14). -/
def execRegisterWrite (addr value : Nat) := answer (writeReg addr value)
/-- FMP_COMMIT (R463). -/
def execFmpCommit := answer (writeCommit 10 0)
/-- MGMT_ADDR_WRITE (R463): a write of FMP_MGMT_ADDR_LO. -/
def execMgmtAddrWrite (lo : Nat) := answer (writeRw .FMP_MGMT_ADDR_LO_ADDR 0 lo)

end Sys2Proof.Machine
end

