-- ==== Sys2Proof/Machine/Ring.lean ====
section
/-!
DEFINITION. The commands of the rings (R456). A short command completes in its own row; a long one has begun and completes
with RING_COMMAND_COMPLETION.
-/
namespace Sys2Proof.Machine

/-- Whether every byte of a range lies in a populated part of the DPA map. -/
def inMap (a n : Nat) : Bool := (linesOf a n).all populated

/-- Register writes land in order, each as a write of its own (R450). -/
def writeList (ws : List (Nat × Nat)) : Plan := planEach ws (fun w => writeReg w.1 w.2)

/-- A status that the spec leaves open: a free value. -/
def ringOpen (i : Nat) : Plan := fun s =>
  plans [ringBegun i (s.free 8) [] false, fun s' => [.var .freeCount 0 (s'.var .freeCount + 1)]] s

/-- LOAD_IMAGE: a LOAD that is ignored is REFUSED, and any other completes with its load. -/
def ringLoad (i : Nat) (b : List Nat) : Plan := fun s =>
  let busy := decide (s.loading ∨ (s.running ∧ s.get .CLAY_STATUS_ARMED = 1))
  plans [writeReg 0x20010 (ringArg b 0 8), writeReg 0x20018 (ringArg b 8 8), planLoad,
    if busy then ringDone i 2 else ringBegun i 0 [] true] s

/-- Whether an ARM would set FLIP_REFUSED or FLIP_LATE (R178). -/
def State.armFails (s : State) : Bool := !s.ready || s.flipBlocks != 0 || !s.running || s.armLate

/-- ARM_FLIP. -/
def ringArm (i : Nat) (b : List Nat) : Plan := plans [writeReg 0x20020 (ringArg b 0 8), fun s =>
  plans [planArm, ringDone i (if s.armFails then 2 else 0)] s]

/-- The pairs of address and value that a list in DPA holds, up to the first line that cannot be read, whether there is
one, and the lines read. -/
def State.writePairs (s : State) (list count : Nat) : List (Nat × Nat) × Bool × List Nat :=
  let ls := linesOf list (16 * count)
  match ls.find? s.lineBad with
  | some l =>
    let n := (l - list) / 16
    (((List.range n).map (fun k => (s.leAt (list + 16 * k) 8, s.leAt (list + 16 * k + 8) 8))), true,
      ls.filter (fun x => decide (x ≤ l)))
  | none => (((List.range count).map (fun k => (s.leAt (list + 16 * k) 8, s.leAt (list + 16 * k + 8) 8))), false, ls)

/-- REG_WRITES: the list is read; without a beat, or after it has begun, `before` writes land now and the rest with the
completion, and otherwise all wait for the beat. -/
def ringWrites (i before : Nat) (b : List Nat) : Plan := fun s =>
  let count := ringArg b 8 4
  let beat := ringArg b 16 8
  if count > 4090 then ringOpen i s
  else
    let (ws, bad, ls) := s.writePairs (ringArg b 0 8) count
    let late := decide (beat ≠ 0 ∧ s.get .BEAT_COUNT_COUNT ≥ beat)
    let status := if bad then 3 else if late then 6 else 0
    plans [planEach ls noteUnlisted,
      if beat = 0 ∨ late then plans [ringBegun i status (ws.drop before) false, writeList (ws.take before)]
      else ringBegun i status ws true] s

/-- The beat of a command that waits: its AT_BEAT or BEAT argument. -/
def waitBeat (b : List Nat) : Nat := if b.getD 0 0 = 3 then ringArg b 16 8 else ringArg b 0 8

/-- A command of an opcode that waits for its beat goes on once the beat has begun. -/
def ringAwaited (i op : Nat) (p : Ring → Plan) : Plan := fun s =>
  let r := s.ringSt i
  match r.desc with
  | some b => if i < 16 ∧ r.stage = 4 ∧ r.wait ∧ b.getD 0 0 = op ∧ s.get .BEAT_COUNT_COUNT ≥ waitBeat b then p r s else []
  | none => []

/-- REG_WRITES_AT_BEAT: every write of the list lands in the beat. -/
def ringAtBeat (i : Nat) : Plan := ringAwaited i 3 (fun r =>
  plans [fun _ => [setRing i { r with wait := false, left := [] }], writeList r.left])

/-- WAIT_BEAT. -/
def ringWait (i : Nat) (b : List Nat) : Plan := fun s =>
  if s.get .BEAT_COUNT_COUNT ≥ ringArg b 0 8 then ringDone i 0 s else ringBegun i 0 [] true s

/-- COPY in ascending 64 B, `n` of them left; a line that cannot be read ends it (notes/assumptions/64.md). -/
def ringCopyLines (i src dst : Nat) : Nat → Plan
  | 0 => ringBegun i 0 [] false
  | n + 1 => fun s =>
    let ls := linesOf src 64
    match ls.find? s.lineBad with
    | some l => plans [noteUnlisted l, writeMem dst (s.bytesAt src (l - src)), ringBegun i 3 [] false] s
    | none => plans [planEach ls noteUnlisted, writeMem dst (s.bytesAt src 64), ringCopyLines i (src + 64) (dst + 64) n] s

/-- COPY. -/
def ringCopy (i : Nat) (b : List Nat) : Plan :=
  let src := ringArg b 0 8
  let dst := ringArg b 8 8
  let len := ringArg b 16 8
  if len % 64 ≠ 0 then ringOpen i
  else if !(inMap src len && inMap dst len) then ringBegun i 4 [] false
  else ringCopyLines i src dst (len / 64)

/-- FILL. -/
def ringFill (i : Nat) (b : List Nat) : Plan :=
  let dst := ringArg b 0 8
  let len := ringArg b 8 8
  if len % 64 ≠ 0 then ringOpen i
  else if !inMap dst len then ringBegun i 4 [] false
  else plans [writeMem dst (List.replicate (len / 8) (leBytes 8 (ringArg b 16 8))).flatten, ringBegun i 0 [] false]

/-- A descriptor with an undefined opcode. -/
def ringBad (i : Nat) : Plan := fun s =>
  match (s.ringSt i).desc with
  | some b => if b.getD 0 0 ≥ 7 then ringRun i (b.getD 0 0) (fun _ => ringDone i 1) s else []
  | none => []

/-- A command that has begun and waits for nothing completes: its last writes land first. -/
def ringFinish (i : Nat) : Plan := fun s =>
  let r := s.ringSt i
  if i < 16 ∧ r.stage = 4 ∧ !r.wait then plans [writeList r.left, ringDone i r.status] s else []

/-- RING_NOP (R456). -/
def execRingNop (ring : Nat) := answer (ringRun ring 0 (fun _ => ringDone ring 0))
/-- LOAD_IMAGE (R456). -/
def execLoadImage (ring : Nat) := answer (ringRun ring 1 (ringLoad ring))
/-- ARM_FLIP (R456). -/
def execArmFlip (ring : Nat) := answer (ringRun ring 2 (ringArm ring))
/-- REG_WRITES (R456): `before` of the writes land before the next command. -/
def execRegWrites (ring before : Nat) := answer (ringRun ring 3 (ringWrites ring before))
/-- REG_WRITES_AT_BEAT (R456). -/
def execRegWritesAtBeat (ring : Nat) := answer (ringAtBeat ring)
/-- WAIT_BEAT (R456). -/
def execWaitBeat (ring : Nat) := answer (ringRun ring 4 (ringWait ring))
/-- WAIT_BEAT_DONE (R456). -/
def execWaitBeatDone (ring : Nat) := answer (ringAwaited ring 4 (fun _ => ringDone ring 0))
/-- RING_COPY (R456). -/
def execRingCopy (ring : Nat) := answer (ringRun ring 5 (ringCopy ring))
/-- RING_FILL (R456). -/
def execRingFill (ring : Nat) := answer (ringRun ring 6 (ringFill ring))
/-- RING_BAD_OPCODE (R456). -/
def execRingBadOpcode (ring : Nat) := answer (ringBad ring)
/-- RING_COMMAND_COMPLETION (R455). -/
def execRingCommandCompletion (ring : Nat) := answer (ringFinish ring)

end Sys2Proof.Machine
end

