-- ==== Sys2Proof/Machine/FmpCore.lean ====
section
/-!
DEFINITION. FMP's frames, tags, reassembly, request order and sessions (R441 to R448).
-/
namespace Sys2Proof.Machine

/-! Frames (R442). -/

/-- The customisation strings of R442 and R446. -/
def tagName : List Nat := [0x47, 0x52, 0x4E, 0x37, 0x20, 0x46, 0x4D, 0x50, 0x20, 0x54, 0x41, 0x47]
def keyName : List Nat := [0x47, 0x52, 0x4E, 0x37, 0x20, 0x46, 0x4D, 0x50, 0x20, 0x4B, 0x45, 0x59]

/-- The current session, 0 for none. -/
def State.session (s : State) : Nat := s.get .FMP_SESSION_ID

/-- The tag of a frame: KMAC256 within the session, zero outside one. -/
def State.fmpTag (s : State) (session : Nat) (body : List Nat) : List Nat :=
  if session ≠ 0 ∧ session = s.session then leBytes 32 (kmac256 s.fmp.key tagName body) else List.replicate 32 0

/-- A frame's header. -/
def fmpHeader (type flags status session seq len off n : Nat) : List Nat :=
  let h := [1, type, flags, status] ++ leBytes 4 session ++ leBytes 8 seq ++ leBytes 4 len ++ leBytes 4 off ++
    leBytes 2 n ++ [0, 0]
  h ++ leBytes 4 (crc32c h)

/-- A message leaves in frames of at most 8,960 B; the last has FLAGS.LAST. -/
def fmpSend (dest via type flags status session seq : Nat) (payload : List Nat) : Plan := fun s =>
  let ps := if payload.isEmpty then [[]] else slotParts payload
  ps.zipIdx.map (fun p =>
    let last := if p.2 + 1 = ps.length then 4 else 0
    let b := fmpHeader type (flags + last) status session seq payload.length (8960 * p.2) p.1.length ++ p.1
    send .fmp dest [via] (b ++ s.fmpTag session b))

/-- A reply leaves; a DENIED one is counted. -/
def fmpReply (m : FmpMsg) (status : Nat) (payload : List Nat := []) : Plan := fun s =>
  (if status = 3 then [s.addF .FMP_STATS_DENIED 1] else []) ++
    fmpSend m.src m.via m.type 1 status m.session m.seq payload s

/-! The order of a session's requests (R444). -/

/-- Whether a request of the session is executing: a quote, an open, or a list of register writes. -/
def State.fmpBusy (s : State) : Bool :=
  let mine : FmpMsg → Bool := fun m => m.session == s.session && m.session != 0
  (s.fmp.quote.any (fun q => mine q.1)) || (s.fmp.opening.any (fun q => mine q.1)) || (s.fmp.lateFor.any mine)

/-- SEQs of the session's requests that wait. -/
def State.fmpSeqs (s : State) : List Nat :=
  (s.fmp.queue.filter (fun m => m.session != 0 && m.session == s.session)).map (·.seq)

/-- Whether a SEQ has come: it waits or executes. -/
def State.fmpHere (s : State) (q : Nat) : Bool := s.fmpSeqs.contains q || (s.fmpBusy && q == s.fmp.next)

/-- The first SEQ from `q` on that has neither come nor been SKIPPED. -/
def State.fmpGap (s : State) : Nat → Nat → Nat
  | 0, q => q
  | n + 1, q =>
    match s.fmp.skips.find? (fun r => r.1 ≤ q && q < r.2) with
    | some r => s.fmpGap n r.2
    | none => if s.fmpHere q then s.fmpGap n (q + 1) else q

/-- The gap before the held requests, if any is held. -/
def State.firstGap (s : State) : Nat := s.fmpGap (s.fmp.queue.length + s.fmp.skips.length + 2) s.fmp.next

/-- Replies are kept, the last 64 of them. -/
def keepReplies (rs : List (Nat × Nat × Nat × List Nat)) : Upd :=
  .fmp (fun x =>
    let all := x.replies ++ rs
    { x with replies := all.drop (all.length - 64) })

/-- The next SEQ after one has been answered: SKIPPED ones are passed. -/
def nextSeq (skips : List (Nat × Nat)) (q : Nat) : Nat :=
  match skips.find? (fun r => r.1 == q) with | some r => r.2 | none => q

/-- A request has executed. A session's reply is kept and its next request may run; a session that a takeover has replaced
gets no reply (R447). -/
def fmpDone (m : FmpMsg) (status : Nat) (payload : List Nat := []) : Plan := fun s =>
  if m.session = 0 then fmpReply m status payload s
  else if m.session ≠ s.session then (if status = 3 then [s.addF .FMP_STATS_DENIED 1] else [])
  else plans [fmpReply m status payload, fun _ => [keepReplies [(m.seq, m.type, status, payload)],
    .fmp (fun x =>
      let n := nextSeq x.skips (m.seq + 1)
      { x with next := n, skips := x.skips.filter (fun r => decide (n < r.1)) })]] s

/-- A gap has been open for 65,536 clk (R444): the missing SEQs are SKIPPED. -/
def planGapTimeout : Plan := fun s =>
  let g := s.firstGap
  match minOf 0 (s.fmpSeqs.filter (fun q => decide (g < q))) with
  | 0 => []
  | hi =>
    let n := hi - g
    [s.addF .FMP_STATS_SKIPPED n,
     keepReplies ((List.range (min n 64)).map (fun k => (hi - min n 64 + k, 0, 10, []))),
     .fmp (fun x =>
      if x.next = g ∧ !s.fmpBusy then { x with next := hi }
      else { x with skips := x.skips ++ [(g, hi)] })]

/-- A whole request joins the queue, or is answered by R444. -/
def fmpTake (m : FmpMsg) : Plan := fun s =>
  let join : List Upd := [.fmp (fun x => { x with queue := x.queue ++ [m] })]
  if m.session = 0 then join
  else if m.seq < s.fmp.next ∨ s.fmp.skips.any (fun r => r.1 ≤ m.seq && m.seq < r.2) then
    match s.fmp.replies.find? (fun r => r.1 == m.seq) with
    | some r => fmpSend m.src m.via (if r.2.2.1 = 10 then m.type else r.2.1) 1 r.2.2.1 m.session m.seq r.2.2.2 s
    | none => fmpReply m 8 [] s
  else if s.fmpHere m.seq then []
  else
    let g := s.firstGap
    if m.seq > g ∧ (s.fmpSeqs.filter (fun q => decide (g < q))).length ≥ 32 then fmpReply m 9 [] s else join

/-! Fragments (R441 to R443). -/

/-- Bytes that a request of a type may have (R449). -/
def fmpLimit (type : Nat) : Nat :=
  match type with
  | 0x01 | 0x02 | 0x05 | 0x23 => 0
  | 0x03 => 32
  | 0x04 => 1672 + 49856
  | 0x10 => 8 + 8 * 1024
  | 0x11 => 8 + 16 * 1024
  | 0x12 | 0x24 | 0x41 => 8
  | 0x13 => 8 + 1048576
  | 0x14 => 16 + 24 * 64
  | 0x20 => 72
  | 0x21 => 40
  | 0x22 => 16
  | _ => 1048640

/-- The message types that need a session. -/
def needsSession (type : Nat) : Bool := [0x05, 0x10, 0x11, 0x12, 0x13, 0x14, 0x20, 0x21, 0x22, 0x23, 0x24].contains type

/-- The bytes that fragments in ascending offset spell from the front. -/
def assemble (got : List (Nat × List Nat)) : List Nat :=
  (got.mergeSort (fun a b => decide (a.1 ≤ b.1))).foldl (fun cur p =>
    if p.1 ≤ cur.length then cur ++ p.2.drop (cur.length - p.1) else cur) []

/-- A fragment joins its message. -/
def fmpJoin (m : FmpMsg) (len off : Nat) (frag : List Nat) : Plan := fun s =>
  let same : FmpPart → Bool := fun p => p.msg == m && p.len == len
  let used := ((s.fmp.parts.map (fun p => (p.got.map (fun g => g.2.length)).foldl (· + ·) 0)).foldl (· + ·) 0)
  let dropPart : Upd := .fmp (fun x => { x with parts := x.parts.filter (fun p => !same p) })
  if len > fmpLimit m.type then dropPart :: fmpTake { m with long := true } s
  else if frag.length = len then dropPart :: fmpTake { m with data := frag } s
  else if used + frag.length > 4194304 then []
  else
    let old := ((s.fmp.parts.find? same).map (·.got)).getD []
    let got := old.filter (fun g => g.1 != off) ++ [(off, frag)]
    let whole := assemble got
    if whole.length ≥ len then dropPart :: fmpTake { m with data := whole.take len } s
    else [.fmp (fun x => { x with parts := x.parts.filter (fun p => !same p) ++ [{ msg := m, len := len, got := got }] })]

/-- A frame reaches FMP: `via` 0 by the management port and 1 by a data port, `src` its source address and UDP port. -/
def planFragment (via src : Nat) (bs : List Nat) : Plan := fun s =>
  let loader := decide (s.boot.phase = 4)
  let body := bs.take (bs.length - 32)
  let tag := bs.drop (bs.length - 32)
  let type := fieldOf bs 1 1
  let session := fieldOf bs 4 4
  let len := fieldOf bs 16 4
  let off := fieldOf bs 20 4
  let n := fieldOf bs 24 2
  let m : FmpMsg := { type, session, seq := fieldOf bs 8 8, src, via := via % 2 }
  if !(loader || s.boot.phase == 3) ∨ (via % 2 = 1 ∧ (loader ∨ s.boot.fuses.dataOff)) then []
  else if bs.length < 64 ∨ bs.getD 0 0 ≠ 1 ∨ crc32c (bs.take 28) ≠ fieldOf bs 28 4 then [s.addF .FMP_STATS_BAD_HEADER 1]
  else if (session = 0 ∨ session = s.session) ∧ tag ≠ s.fmpTag session body then [s.addF .FMP_STATS_BAD_TAG 1]
  else if n ≠ bs.length - 64 ∨ n > 8960 ∨ off + n > len ∨ (bs.getD 2 0) % 4 ≠ 0 then []
  else if loader then
    (if session = 0 ∧ [0x01, 0x40, 0x41].contains type then fmpJoin m len off ((bs.drop 32).take n) s else [])
  else if (session ≠ 0 ∧ session ≠ s.session) ∨ (session = 0 ∧ needsSession type) then fmpReply m 1 [] s
  else
    (if session = 0 then [] else [.fmp (fun x => { x with peer := src, via := via % 2 })]) ++
      fmpJoin m len off ((bs.drop 32).take n) s

/-- A message stays incomplete for 65,536 clk and is discarded: part `n` of those under reassembly. -/
def planReassembly (n : Nat) : Plan := fun _ => [.fmp (fun x => { x with parts := x.parts.eraseIdx n })]

/-! Sessions (R445 to R448). -/

/-- The session ends: only FMP state changes. -/
def endSession : Plan := fun _ => [setF .FMP_SESSION_ID 0, setF .FMP_SESSION_KEY 0, setF .FMP_SESSION_VIA 0,
  .fmp (fun x => { x with
    parts := x.parts.filter (fun p => p.msg.session == 0), queue := x.queue.filter (fun m => m.session == 0)
    next := 1, skips := [], replies := [], key := [], script := 0, dump := none })]

/-- The next request of a type that may run now. -/
def State.fmpNext (s : State) (type : Nat → Bool) : Option FmpMsg :=
  s.fmp.queue.find? (fun m => type m.type && (m.session == 0 || (m.session == s.session && m.seq == s.fmp.next && !s.fmpBusy)))

/-- A request of a type runs, or is answered TOO_LONG. -/
def fmpRun (type : Nat → Bool) (f : FmpMsg → Plan) : Plan := fun s =>
  if s.boot.phase ≠ 3 ∧ s.boot.phase ≠ 4 then []
  else match s.fmpNext type with
    | none => []
    | some m => plans [fun _ => [.fmp (fun x => { x with queue := x.queue.erase m })],
        if m.long then fmpDone m 11 else f m] s

/-- FMP_FRAGMENT (R441 to R443). -/
def execFmpFragment (via src : Nat) (bytes : List Nat) := answer (planFragment via src bytes)
/-- FMP_REASSEMBLY_TIMEOUT (R443). -/
def execFmpReassemblyTimeout (n : Nat) := answer (planReassembly n)
/-- FMP_GAP_TIMEOUT (R444). -/
def execFmpGapTimeout := answer planGapTimeout
/-- SESSION_IDLE_TIMEOUT (R448). -/
def execSessionIdleTimeout := answer (planIf (fun s => s.get .FMP_CFG_IDLE_S != 0 && s.session != 0) endSession)

end Sys2Proof.Machine
end

