-- ==== Sys2Proof/Machine/Arrival.lean ====
section
/-!
DEFINITION. A frame arrives on a port and is discarded, delivered to the transport or forwarded (R370 to R374, R380, R382).
A frame is its bytes without the FCS: Ethernet header, IPv6 header from byte 14, and UDP header from byte 54.
-/
namespace Sys2Proof.Machine

/-- A big-endian field of a frame. -/
def netField (bs : List Nat) (o n : Nat) : Nat := ofBe ((bs.drop o).take n)

/-- The IPv6 destination, as a number whose byte k is byte k of the address in network order. -/
def frameDst (bs : List Nat) : Nat := fieldOf bs 38 16

/-- The IPv6 source. -/
def frameSrc (bs : List Nat) : Nat := fieldOf bs 22 16

/-- The endpoint id under the job prefix that a frame is for (R370). -/
def State.frameId (s : State) (bs : List Nat) : Option Nat :=
  match s.epOf (frameDst bs) with
  | some e => if e < 65536 then some e else none
  | none => none

/-- A GT frame of an endpoint, read from its bytes (R381). -/
def gtRead (port ep : Nat) (bs : List Nat) : GtFrame :=
  let h := bs.drop 62
  { port, ep, ch := h.getD 2 0 % 4, flags := h.getD 3 0 % 16, inc := fieldOf h 4 4, seq := fieldOf h 8 4,
    ack := fieldOf h 12 4, credit := fieldOf h 16 4,
    rsv := h.getD 2 0 / 4 + h.getD 3 0 / 16 * 64
    body := { op := h.getD 1 0, step := fieldOf h 24 8 % 2 ^ 44, arg0 := fieldOf h 32 8, arg1 := fieldOf h 40 4,
              gen := h.getD 22 0 % 16, payload := (h.drop 48).take (fieldOf h 20 2) } }

/-- The GT receiver takes a frame: the first two checks of R382 are of its bytes and the third of its UDP length. -/
def gtReceive (port : Nat) (bs : List Nat) : Plan := fun s =>
  match s.epOf (frameSrc bs) with
  | none => [s.addF .PORT_DROPS_OTHER 1 port]
  | some ep =>
    let f := gtRead port ep bs
    let h := bs.drop 62
    if s.get .XPORT_EP_CFG_KIND ep = 0 then sendNoConn port ep f.ch f.body.op f.seq s
    else if crc32c (h.take 44) ≠ fieldOf h 44 4 ∨ h.length < 48 ∨ h.getD 0 0 ≠ 1 then
      violation ep f.ch 1 0xFF f.seq (fieldOf h 0 8) 0 s
    else if netField bs 58 2 ≠ 56 + fieldOf h 20 2 ∨ h.length < 48 + fieldOf h 20 2 then
      violation ep f.ch 3 f.body.op f.seq (fieldOf h 0 8) 0 s
    else gtArrive f s

/-- The RoCEv2 requester takes a packet (R401): an acknowledgement of one of its queue pairs, or anything else, which is
discarded. A packet with a bad ICRC is discarded. PRESUMED: the InfiniBand encodings (notes/assumptions/66.md). -/
def roceReceive (bs : List Nat) : Plan := fun s =>
  let p := bs.drop 14
  let n := netField bs 58 2 + 40
  let h := bs.drop 62
  let qpn := netField h 5 3
  let syn := h.getD 12 0
  let psn := netField h 9 3
  let kind := if h.getD 0 0 ≠ 0x11 then 4
    else if bits syn 5 2 = 0 then 0
    else if bits syn 5 2 = 1 then 1
    else if bits syn 5 2 = 3 then (if syn % 32 = 0 then 2 else if syn % 32 ≤ 3 then 3 else 4)
    else 4
  if n < 68 ∨ p.length < n ∨ icrc (p.take (n - 4)) ≠ fieldOf p (n - 4) 4 ∨ qpn < 0x100 ∨ qpn ≥ 0x108 then []
  else planRoceResponse (qpn - 0x100) kind psn s

/-- Whether a UDP port is that of GT: GT_UDP_PORT, or the port of a connection of the sender that opened on another (R380,
R409). -/
def State.gtPort (s : State) (ep : Option Nat) (dport : Nat) : Bool :=
  dport == s.get .XPORT_CFG_GT_UDP_PORT ||
  ep.any (fun e => (List.range 4).any (fun ch => s.connState e ch != 0 && (s.conn e ch).udp == dport))

/-- A frame for this module is dispatched by its UDP port (R380). -/
def frameDeliver (port : Nat) (bs : List Nat) : Plan := fun s =>
  let dport := netField bs 56 2
  let other := [s.addF .PORT_DROPS_OTHER 1 port]
  if bs.getD 20 0 ≠ 17 then other
  else if s.gtPort (s.epOf (frameSrc bs)) dport then gtReceive port bs s
  else if dport = 4791 then roceReceive bs s
  else if dport = s.get .FMP_CFG_UDP_PORT then
    planFragment 1 (frameSrc bs * 65536 + netField bs 54 2) ((bs.drop 62).take (netField bs 58 2 - 8)) s
  else other

/-- The Traffic Class of a frame. -/
def frameTc (bs : List Nat) : Nat := netField bs 14 2 / 16 % 256

/-- The forwarding entry of a frame that is not for this module, and the id that its spreading takes (R370, R371). -/
def State.frameEntry (s : State) (bs : List Nat) : Nat × Nat :=
  match s.frameId bs with
  | some i => (s.get .PORT_FWD_TABLE_ENTRY i, i)
  | none => (s.get .PORT_FWD_DEFAULT_ENTRY, Config.spreadId (frameDst bs))

/-- A frame is forwarded (R371 to R374): `stomp` says that it ends with a wrong FCS. -/
def frameForward (port : Nat) (bs : List Nat) (stomp : Bool) : Plan := fun s =>
  let hop := bs.getD 21 0
  let tc := frameTc bs
  let id := match s.frameId bs with | some i => i | none => 65536
  let e := s.frameEntry bs
  if hop ≤ 1 then [s.addF .PORT_FWD_STATS_HOP 1]
  else plans [fun s' =>
      [if stomp then s'.addF .PORT_DROPS_STOMPED 1 port else s'.addF .PORT_FWD_STATS_FORWARDED 1],
    handFrame ⟨tc == s.get .PORT_FWD_CFG_CTRL_TC, false, bs.length + 4, e.1, e.2, netField bs 54 2, port,
      ⟨.transit, id, [hop - 1, tc, b2n stomp], bs, [hop - 1, tc, netField bs 54 2, netField bs 56 2]⟩⟩] s

/-- FRAME_ARRIVAL (R367, R370, R373, R418): `fcs` says that the FCS is good, `code` that every codeword that carried the
frame could be decoded, and `kept` that the transit buffer of its egress port gives it back without an uncorrectable word.
A bad frame that cuts through is ended with a wrong FCS, as is one that the transit buffer spoils; a stored bad frame is
discarded. -/
def planFrame (port : Nat) (bs : List Nat) (fcs code kept : Bool) : Plan := fun s =>
  let ok := fcs && code
  let len := bs.length + 4
  let rx := s.addF .PORT_FRAMES_RX 1 port
  let bad := [s.addF .PORT_DROPS_BAD 1 port]
  let mine := s.frameId bs == some (s.get .PORT_FWD_CFG_OWN_ID)
  if port ≥ 16 ∨ s.portState port ≠ 4 then []
  else if s.e200 port ∧ (len < 64 ∨ 9216 < len) then bad
  else if netField bs 12 2 ≠ 0x86DD ∨ mine then
    if !ok then bad
    else if netField bs 12 2 ≠ 0x86DD ∨ bs.getD 20 0 = 58 then [rx, s.addF .PORT_DROPS_OTHER 1 port]
    else plans [fun _ => [rx], frameDeliver port bs] s
  else if ok then
    match s.choose (s.frameEntry bs).1 (s.frameEntry bs).2 (netField bs 54 2) port with
    | none => [rx, s.addF .PORT_FWD_STATS_NO_ROUTE 1]
    | some p =>
      plans [fun _ => [rx], if kept then fun _ => [] else noteWord 5 (p / 8) 2 11, frameForward port bs (!kept)] s
  else match s.choose (s.frameEntry bs).1 (s.frameEntry bs).2 (netField bs 54 2) port with
    | none => bad
    | some out =>
      let ctrl := frameTc bs == s.get .PORT_FWD_CFG_CTRL_TC
      let cut := !(s.portSt out).waiting.any (fun w => w.ctrl == ctrl) &&
        s.macRate out (s.portSt out).rateMap ≤ s.macRate port (s.get .PORT_STATUS_RX_MAP port)
      if cut then frameForward port bs true s else bad

/-- FRAME_ARRIVAL (R370). -/
def execFrameArrival (port : Nat) (bytes : List Nat) (fcs code kept : Bool) := answer (planFrame port bytes fcs code kept)

end Sys2Proof.Machine
end

