-- ==== Sys2Proof/Machine/FmpReq.lean ====
section
/-!
DEFINITION. The requests of FMP (R435, R438 to R440, R445 to R453, R459, R460).
-/
namespace Sys2Proof.Machine

/-- A request that needs `n` payload bytes, or is a BAD_REQUEST. -/
def withLen (n : Nat) (f : FmpMsg → Plan) (m : FmpMsg) : Plan := if m.data.length = n then f m else fmpDone m 4

/-- A free value is taken. -/
def tookFree (n : Nat) : Plan := fun s => [.var .freeCount 0 (s.var .freeCount + n)]

/-! Identity and sessions. -/

/-- HELLO (R449): a fresh nonce is kept with the last three before it. -/
def reqHello (m : FmpMsg) : Plan := fun s =>
  let nonce := s.free 256
  let usable := ((List.range 4).map (fun k =>
    b2n (s.boot.fuses.owners.getD k 0 != 0 && !s.boot.fuses.revoke.testBit k) * 2 ^ k)).foldl (· + ·) 0
  let p := leBytes 32 nonce ++ leBytes 16 s.boot.fuses.serial ++ [b2n (s.boot.phase == 4), s.get .FMP_FW_RUN_SVN, usable,
    b2n (s.session != 0)] ++ List.replicate 12 0
  plans [fun _ => [.fmp (fun x =>
      let all := x.nonces ++ [(nonce, s.var .clk)]
      { x with nonces := all.drop (all.length - 4) })], tookFree 1, fmpDone m 0 p] s

/-- A quote's bytes 0 to 255 (R460). -/
def State.quoteBytes (s : State) (m : FmpMsg) : List Nat :=
  let meas := fun f => ((List.range 4).map (fun i => leBytes 8 (s.get f i))).flatten
  [0x47, 0x52, 0x4E, 0x51, 0x55, 0x4F, 0x54, 0x45] ++ leBytes 2 1 ++ leBytes 2 2 ++ leBytes 4 49856 ++ m.data.take 32 ++
    leBytes 16 s.boot.fuses.serial ++ meas .FMP_BOOT_MEAS_DIGEST ++
    [s.get .FMP_FW_RUN_SVN, s.boot.fuses.svnMin] ++ leBytes 2 (s.readReg 0x780060) ++ leBytes 4 (s.get .CLAY_GEN_ACTIVE) ++
    meas .CLAY_MEAS_ACTIVE_DIGEST ++ meas .CLAY_MEAS_SHADOW_DIGEST ++
    leBytes 32 (if m.session ≠ 0 ∧ m.session = s.session then s.fmp.script else 0) ++
    leBytes 8 (s.get .BEAT_COUNT_COUNT) ++ leBytes 4 (s.get .SPRING_EPOCH_EPOCH) ++ leBytes 2 s.rank ++
    [s.get .BEAT_STATUS_STATE] ++ List.replicate 41 0

/-- ATTEST: one quote is signed at a time. -/
def reqAttest : FmpMsg → Plan := withLen 32 (fun m s =>
  if s.get .FMP_STATUS_IDENTITY_BAD = 1 then fmpDone m 3 [] s
  else if s.fmp.quote.isSome then fmpDone m 2 [] s
  else [.fmp (fun x => { x with quote := some (m, s.quoteBytes m) })])

/-- The signing of a quote ends. -/
def planQuoteSigned : Plan := fun s =>
  match s.fmp.quote with
  | some (m, b) =>
    plans [fun _ => [.fmp (fun x => { x with quote := none })], fmpDone m 0 (b ++ Config.slhSign s.boot.fuses.seed b)] s
  | none => []

/-- The owner digest slot of a key's digest: any key satisfies an unowned module (R445). -/
def State.ownerSlot (s : State) (digest : Nat) : Option Nat :=
  if s.ownerDigests.isEmpty then some 0
  else (List.range 4).find? (fun k =>
    digest != 0 && s.boot.fuses.owners.getD k 0 == digest && !s.boot.fuses.revoke.testBit k)

/-- SESSION_OPEN (R445, R447). The nonce is used once it has been found valid. -/
def reqOpen (m : FmpMsg) : Plan := fun s =>
  let d := m.data
  let sigLen := if fieldOf d 32 2 = 1 then 29792 else 49856
  let nonce := ofLe (d.take 32)
  let key := (d.drop 40).take 64
  let digest := shake256 32 key
  let fresh := s.fmp.nonces.any (fun n => n.1 == nonce && decide (s.var .clk ≤ n.2 + 15000000000))
  let use : List Upd := [.fmp (fun x => { x with nonces := x.nonces.filter (fun n => n.1 != nonce) })]
  if d.length ≠ 1672 + sigLen ∨ fieldOf d 36 4 ≠ sigLen ∨ !([1, 2].contains (fieldOf d 32 2)) then fmpDone m 4 [] s
  else if s.get .FMP_STATUS_IDENTITY_BAD = 1 ∨ !fresh then fmpDone m 3 [] s
  else match s.ownerSlot digest with
    | none => use ++ fmpDone m 3 [] s
    | some slot =>
      if !Config.slhVerify digest (d.take 1672) (d.drop 1672) then use ++ fmpDone m 3 [] s
      else if !kemCheck ((d.drop 104).take 1568) then use ++ fmpDone m 4 [] s
      else if s.session ≠ 0 ∧ !(d.getD 34 0).testBit 0 then use ++ fmpDone m 2 [] s
      else use ++ [.fmp (fun x => { x with opening := some (m, slot) })]

/-- SESSION_OPENs are handled one at a time. -/
def planOpen : Plan := fun s =>
  if s.fmp.opening.isSome ∨ s.boot.phase ≠ 3 then [] else fmpRun (· == 0x04) reqOpen s

/-- SESSION_ACCEPT (R445 to R447): the accept is signed, the new session replaces any old one, and its key is formed. -/
def planAccept : Plan := fun s =>
  match s.fmp.opening with
  | none => []
  | some (m, slot) =>
    let id := max 1 (s.free 32)
    let (ct, secret) := Config.kemEncaps ((m.data.drop 104).take 1568) (s.free 256 1)
    let b := leBytes 4 id ++ leBytes 4 0 ++ ct ++ leBytes 32 (shake256 32 m.data)
    let t := shake256 32 b
    plans [fmpDone m 0 (b ++ Config.slhSign s.boot.fuses.seed b), endSession, tookFree 2, fun _ =>
      [setF .FMP_SESSION_ID id, setF .FMP_SESSION_KEY slot, setF .FMP_SESSION_VIA m.via,
       .fmp (fun x => { x with
         opening := none, key := leBytes 32 (kmac256 secret keyName (leBytes 32 t)), script := t
         peer := m.src, via := m.via }),
       .boot (fun x => { x with opener := (m.data.drop 40).take 64 })]] s

/-! Registers and the window (R450, R451). -/

/-- The values that reads of registers return one after the other: each clears its RC fields. -/
def regReads : List Nat → State → List Nat
  | [], _ => []
  | a :: as, s => s.readReg a :: regReads as (s.run (readClears a s))

/-- The words of a payload from byte 8 on. -/
def words8 (d : List Nat) : List Nat := (chunks 8 (d.drop 8)).map ofLe

/-- REG_READ. -/
def reqRegRead (m : FmpMsg) : Plan := fun s =>
  let n := fieldOf m.data 0 4
  if n > 1024 then fmpDone m 11 [] s
  else if m.data.length ≠ 8 + 8 * n then fmpDone m 4 [] s
  else
    let as := words8 m.data
    plans [planEach as readClears, fmpDone m 0 ((regReads as s).map (leBytes 8)).flatten] s

/-- REG_WRITE: `before` of the writes land before the next boundary and the rest after it; with none left the reply
follows. -/
def reqRegWrite (before : Nat) (m : FmpMsg) : Plan := fun s =>
  let n := fieldOf m.data 0 4
  if n > 1024 then fmpDone m 11 [] s
  else if m.data.length ≠ 8 + 16 * n then fmpDone m 4 [] s
  else
    let ws := (List.range n).map (fun k => (fieldOf m.data (8 + 16 * k) 8, fieldOf m.data (16 + 16 * k) 8))
    let k := if s.running then before else n
    plans [writeList (ws.take k),
      if k ≥ n then fmpDone m 0 else fun _ => [.fmp (fun x => { x with late := ws.drop k, lateFor := some m })]] s

/-- Writes that waited for the boundary land, and their request is answered. -/
def lateWrites : Plan := fun s =>
  plans [fun _ => [.fmp (fun x => { x with late := [], lateFor := none })], writeList s.fmp.late,
    match s.fmp.lateFor with | some m => fmpDone m 0 | none => fun _ => []] s

/-- The 64 B accesses of the window that lie in holes are counted (R74). -/
def noteHoles (a n : Nat) : Plan := fun s =>
  let hs := (linesOf a n).filter (fun l => !populated l)
  match hs.getLast? with
  | some l => [s.addF .TIER_HOLE_COUNT hs.length, setF .TIER_HOLE_LAST (max a l)]
  | none => []

/-- Bytes performed of a window request (R94). -/
def windowPart (off len : Nat) : Nat := min len (0x4000000 - off)

/-- Byte `j` from an address on as read: that of a code unit with an uncorrectable error is a free value. -/
def State.asRead (s : State) (a j : Nat) : Nat :=
  let c := canonDpa (a + j)
  if Sparse.get 0 s.unitErr (c / unitBytes c * unitBytes c) = 2 then s.free 8 j else s.byteAt (a + j)

/-- WIN_READ. -/
def reqWinRead : FmpMsg → Plan := withLen 8 (fun m s =>
  let off := fieldOf m.data 0 4
  let len := fieldOf m.data 4 4
  let n := windowPart off len
  let base := s.get .TIER_WINDOW_BASE * 2 ^ 26
  let ls := linesOf (base + off) n
  let bad := ls.find? s.lineBad
  if len > 1048576 then fmpDone m 11 [] s
  else if off % 8 ≠ 0 ∨ len % 8 ≠ 0 then fmpDone m 4 [] s
  else plans [planEach ls (noteRead 8), noteHoles (base + off) n, tookFree n,
    fmpDone m (if bad.isSome then 5 else if n < len then 7 else 0)
      (leBytes 4 n ++ leBytes 4 (match bad with | some l => l - base | none => 0xFFFFFFFF) ++ (List.range n).map (s.asRead (base + off)))] s)

/-- WIN_WRITE. -/
def reqWinWrite (m : FmpMsg) : Plan := fun s =>
  let off := fieldOf m.data 0 4
  let len := fieldOf m.data 4 4
  let n := windowPart off len
  let base := s.get .TIER_WINDOW_BASE * 2 ^ 26
  if len > 1048576 then fmpDone m 11 [] s
  else if m.data.length ≠ 8 + len ∨ off % 8 ≠ 0 ∨ len % 8 ≠ 0 then fmpDone m 4 [] s
  else plans [writeMem (base + off) ((m.data.drop 8).take n), noteHoles (base + off) n,
    fmpDone m (if n < len then 7 else 0) (leBytes 4 n ++ leBytes 4 0)] s

/-! STATE_DUMP (R452, R453). -/

/-- A section of a dump: its length in bytes, and entries of one size. -/
structure DumpSec where
  size  : Nat
  count : Nat
  entry : Nat → List Nat

/-- Bytes a .. b - 1 of a section. -/
def DumpSec.slice (d : DumpSec) (a b : Nat) : List Nat :=
  let z := max 1 d.size
  let first := a / z
  let n := (min b (d.size * d.count) + z - 1) / z - first
  (((List.range n).map (fun k => d.entry (first + k))).flatten.drop (a - first * z)).take (min b (d.size * d.count) - a)

/-- An entry of bytes padded with zeros to its size. -/
def padEntry (n : Nat) (b : Option (List Nat)) : List Nat :=
  let x := b.getD []
  x.take n ++ List.replicate (n - x.length) 0

/-- The registers of a cell as 8 B words: V by pairs of lanes, S, M, A, then loop states; zero while it runs or holds. -/
def State.cellDump (s : State) (cell k : Nat) : List Nat :=
  let st := s.get .CELL_SEQ_STATUS_STATE cell
  if st = 1 ∨ st = 2 then leBytes 8 0
  else if k < 2048 then leBytes 8 (bits (s.vReg cell (k / 32)) (64 * (k % 32)) 64)
  else if k < 2080 then leBytes 8 (s.sReg cell (k - 2048))
  else if k < 2096 then leBytes 8 (s.mReg cell (k - 2080))
  else if k < 2112 then leBytes 8 (s.aReg cell (k - 2096))
  else leBytes 8 (s.loopWord cell (k - 2112))

/-- The in-flight log of a stack and then its torn list, as 16 B words (R452, notes/assumptions/65.md). -/
def State.logDump (s : State) (stack k : Nat) : List Nat :=
  if k < 1024 then
    let lane := k / 32
    match ((s.rows.log.filter (fun e => e.stack == stack && e.lane == lane))[k / 2 % 16]?) with
    | some e => if k % 2 = 0 then leBytes 8 e.key ++ leBytes 8 e.dpa else leBytes 8 e.step ++ leBytes 8 0
    | none => List.replicate 16 0
  else match (s.tornOf stack)[k - 1024]? with
    | some t => leBytes 8 t.key ++ leBytes 8 t.dpa
    | none => List.replicate 16 0

/-- The count sketch of a stack as words of 16 B, and then its heavy-row list. -/
def State.sketchDump (s : State) (stack k : Nat) : List Nat :=
  if k < 32768 then ((List.range 8).map (fun j => leBytes 2 (Sparse.get 0 s.rows.sketch (stack * 2 ^ 18 + 8 * k + j)))).flatten
  else
    let e := s.heavyAt stack (k - 32768)
    if e.2 = 0 then List.replicate 16 0 else leBytes 8 e.1 ++ leBytes 8 (e.2 - 1)

/-- The section that a dump item names: kind, index, start and length; none where the request is bad. -/
def State.dumpSec (s : State) (kind index start len : Nat) : Option DumpSec :=
  let short := decide (len ≤ 2 ^ 40)
  let words := fun (ws : List Nat) (n : Nat) => (⟨8, n, fun k => leBytes 8 (ws.getD k 0)⟩ : DumpSec)
  match kind with
  | 1 => if short then some ⟨1, len, fun k => [bits (s.readReg ((start + k) / 8 * 8)) (8 * ((start + k) % 8)) 8]⟩ else none
  | 2 => if short then some ⟨1, len, fun k => [s.asRead start k]⟩ else none
  | 3 =>
    if index > 1 then none
    else match (if index = 0 then s.clay.active else s.clay.shadow) with
      | some i =>
        let b := s.imageBytes i
        some ⟨1, b.length, fun k => [b.getD k 0]⟩
      | none => some ⟨1, 0, fun _ => []⟩
  | 4 => if index < 16 then some ⟨16, 2 ^ 21, fun k =>
      let e := s.dmAt index (k / 8) (k % 8)
      leBytes 8 e.1 ++ leBytes 8 e.2⟩ else none
  | 5 => if index < 16 then some ⟨16, 1024 + 524288, s.logDump index⟩ else none
  | 6 => if index < 16 then some (words (Sparse.get [] s.rows.retired index) 4096) else none
  | 7 => if index < 144 then some ⟨8, 2116, s.cellDump index⟩ else none
  | 8 => if index = 0 then some ⟨32, 4096, fun k => padEntry 32 (s.eventEntry k)⟩ else none
  | 9 => if index = 0 then some ⟨32, 512, fun k => leBytes 32 (Sparse.get 0 s.xport.vlog k)⟩ else none
  | 10 => if index = 0 then some ⟨64, 2 ^ 20, fun k => leBytes 64 (Sparse.get 0 s.logs.hist k)⟩ else none
  | 11 => if index < 16 then some ⟨16, 32768 + 64, s.sketchDump index⟩ else none
  | 12 => if index = 0 then some ⟨32, 16384, fun k => padEntry 32 ((s.coll.lent[k]?).map (fun l =>
      leBytes 2 l.rank ++ List.replicate 6 0 ++ leBytes 8 l.key ++ leBytes 8 l.version))⟩ else none
  | _ => none

/-- Bytes a .. b - 1 of the stream of sections with their headers, each given with its kind and index. -/
def dumpStream : List (Nat × Nat × DumpSec) → Nat → Nat → List Nat
  | [], _, _ => []
  | (kind, index, d) :: rest, a, b =>
    let n := d.size * d.count
    let h := leBytes 2 kind ++ leBytes 2 index ++ leBytes 4 0 ++ leBytes 8 n
    (h.drop a).take (b - a) ++ d.slice (a - 16) (b - 16) ++
      (if b > 16 + n then dumpStream rest (a - (16 + n)) (b - (16 + n)) else [])

/-- STATE_DUMP. -/
def reqDump (m : FmpMsg) : Plan := fun s =>
  let d := m.data
  let off := fieldOf d 0 8
  let max' := fieldOf d 8 4
  let n := fieldOf d 12 4
  if n > 64 ∨ max' > 1048576 then fmpDone m 11 [] s
  else if n = 0 ∨ d.length ≠ 16 + 24 * n then fmpDone m 4 [] s
  else
    let items := (List.range n).map (fun k =>
      let at' := 16 + 24 * k
      (fieldOf d at' 2, fieldOf d (at' + 2) 2, s.dumpSec (fieldOf d at' 2) (fieldOf d (at' + 2) 2) (fieldOf d (at' + 8) 8)
        (fieldOf d (at' + 16) 8)))
    let secs := items.filterMap (fun i => i.2.2.map (fun x => (i.1, i.2.1, x)))
    if secs.length ≠ n then fmpDone m 4 [] s
    else
      let total := (secs.map (fun x => 16 + x.2.2.size * x.2.2.count)).foldl (· + ·) 0
      let sel := d.drop 16
      let changed := match s.fmp.dump with | some p => p.1 == sel && p.2 != total | none => false
      plans [fun _ => [.fmp (fun x => { x with dump := some (sel, total) })],
        fmpDone m (if changed then 12 else 0) (leBytes 8 total ++ dumpStream secs off (min (off + max') total))] s

/-! Keys, fuses and firmware (R434 to R440). -/

/-- KEY_INSTALL. -/
def reqKey : FmpMsg → Plan := withLen 72 (fun m s =>
  let key := m.data.drop 8
  let digest := shake256 32 key
  if s.ownerDigests.contains digest then
    .boot (fun b => { b with keys := b.keys.filter (fun k => k.1 != digest) ++ [(digest, key)] }) :: fmpDone m 0 [] s
  else fmpDone m 3 [] s)

/-- Unrevoked owner digests of a fuse state. -/
def usableOwners (owners : List Nat) (revoke : Nat) : Nat :=
  (owners.zipIdx.filter (fun p => p.1 != 0 && !revoke.testBit p.2)).length

/-- FUSE_PROGRAM (R434, R435): VALUE holds the fuse's bits, and INDEX the slot of an owner digest. -/
def reqFuse : FmpMsg → Plan := withLen 40 (fun m s =>
  let fuse := fieldOf m.data 0 2
  let index := fieldOf m.data 2 2
  let value := ofLe (m.data.drop 8)
  let b := s.boot.burnt
  let put : (Fuses → Fuses) → Plan := fun f s' => .boot (fun x => { x with burnt := f x.burnt }) :: fmpDone m 0 [] s'
  match fuse with
  | 1 =>
    if index > 3 then fmpDone m 4 [] s
    else if b.owners.getD index 0 ≠ 0 then fmpDone m 3 [] s
    else put (fun f => { f with owners := f.owners.set index value }) s
  | 2 =>
    let r := b.revoke ||| (value % 16)
    if usableOwners b.owners r = 0 then fmpDone m 3 [] s
    else put (fun f => { f with revoke := r }) s
  | 3 =>
    if usableOwners b.owners b.revoke = 0 then fmpDone m 3 [] s
    else put (fun f => { f with claySig := f.claySig || value.testBit 0 }) s
  | 4 => put (fun f => { f with dataOff := f.dataOff || value.testBit 0 }) s
  | 5 => put (fun f => { f with romOff := f.romOff || value.testBit 0 }) s
  | _ => fmpDone m 4 [] s)

/-- What a firmware image fails (R436, R437): 1 its header, 2 its SVN, 3 its key or signature; 0 nothing. -/
def State.firmwareError (s : State) (b : List Nat) : Nat :=
  let len := fieldOf b 16 8
  let h := b.take 12 ++ [0, 0, 0, 0] ++ (b.drop 16).take 48
  let digest := shake256 32 Config.romKey
  if b.take 8 ≠ [0x47, 0x52, 0x4E, 0x46, 0x57, 0x30, 0x30, 0x37] ∨ fieldOf b 8 2 ≠ 1 ∨ crc32c h ≠ fieldOf b 12 4 ∨
      fieldOf b 10 2 ≠ 1 ∨ len % 64 ≠ 0 ∨ len < 64 ∨ len + 29792 > b.length then 1
  else if fieldOf b 24 1 < s.boot.fuses.svnMin ∨ fieldOf b 24 1 > 64 then 2
  else if digest ≠ s.boot.fuses.fwKey ∨ !Config.slhVerify digest (b.take len) ((b.drop len).take 29792) then 3
  else 0

/-- The measurement of a firmware image (R436). -/
def firmwareMeas (b : List Nat) : Nat := shake256 32 (b.take (fieldOf b 16 8))

/-- Whether a range may stage bytes: HBM outside every active HBM class region (R172). -/
def State.mayStage (s : State) (a n : Nat) : Bool :=
  (decide (a + n ≤ 0x010000000000) || (decide (0x010000000000 ≤ a) && decide (a + n ≤ 0x020000000000))) &&
  !((s.listed .TIER_CLASS_REGION_SIZE).filter (fun i => hbmClass (i / 256))).any (fun i =>
    hbmOverlap a n (s.get .TIER_CLASS_REGION_BASE i * 65536) (s.get .TIER_CLASS_REGION_SIZE i * 65536))

/-- FW_UPDATE (R439). -/
def reqUpdate : FmpMsg → Plan := withLen 16 (fun m s =>
  let a := fieldOf m.data 0 8
  let n := fieldOf m.data 8 8
  let b := s.bytesAt a (min n 67108864)
  let fail : Nat → Plan := fun e => plans [fun _ => [setF .FMP_FW_STATE 4, setF .FMP_FW_ERROR e], fmpDone m 3]
  if s.var .fwBusy = 1 then fmpDone m 2 [] s
  else if n > 67108864 then fmpDone m 11 [] s
  else if !s.mayStage a n ∨ (linesOf a n).any s.lineBad then
    plans [planEach ((linesOf a n).filter s.lineBad) (noteRead 17), fail 4] s
  else
    let e := s.firmwareError b
    plans [fun _ => if e = 1 then [] else [setF .FMP_FW_STAGED_SVN (fieldOf b 24 1)],
      if e ≠ 0 then fail e
      else plans [fun _ => [.var .fwBusy 0 1, setF .FMP_FW_STATE 2, setF .FMP_FW_ERROR 0,
        .boot (fun x => { x with staged := b })], fmpDone m 0]] s)

/-- The image area is programmed (R439), and the history takes a FW_UPDATE entry (R430). A store that cannot be programmed
ends the update with error 5 (R463) and no valid image. DESIGN CHOICE (notes/assumptions/107.md). -/
def planFwDone : Plan := fun s =>
  if s.var .fwBusy = 0 then []
  else
    let e : Event := { code := 0x101, unit := 8, store := 0, index := 0, d0 := 0
                       d1 := firmwareMeas s.boot.staged % 2 ^ 64
                       beat := s.get .BEAT_COUNT_COUNT, phase := s.eventPhase }
    [.var .fwBusy 0 0, setF .FMP_FW_STATE (if s.boot.storeBad then 4 else 3),
     setF .FMP_FW_ERROR (if s.boot.storeBad then 5 else 0),
     .boot (fun x => { x with image := if x.storeBad then [] else x.staged, staged := [] }),
     .logs (fun l => { l with owed := l.owed ++ [e] })]

/-- FW_SVN_COMMIT (R440). -/
def reqSvn (m : FmpMsg) : Plan := fun s =>
  let v := s.get .FMP_FW_RUN_SVN
  if v ≤ s.boot.burnt.svnMin then fmpDone m 3 [] s
  else .boot (fun x => { x with burnt := { x.burnt with svnMin := v } }) :: fmpDone m 0 [] s

/-- RESET (R449, R475): it follows 1,024 clk after the reply, at the fused level where it asks for a lower-numbered one. -/
def reqReset : FmpMsg → Plan := withLen 8 (fun m s =>
  let l := max (m.data.getD 0 0) (s.sourceLevel 4) + 1
  if m.data.getD 0 0 > 4 then fmpDone m 4 [] s
  else plans [fmpDone m 0, fun _ => [.var .rstAsk 0 (if s.var .rstAsk = 0 then l else min l (s.var .rstAsk)),
    .var .rstDueAt 0 (s.var .clk + 1024)]] s)

/-- LOADER_WRITE (R438): bytes of the image area that nothing has written are zero. -/
def reqLoaderWrite (m : FmpMsg) : Plan := fun s =>
  let off := fieldOf m.data 0 8
  let b := m.data.drop 8
  let old := s.boot.image
  if m.data.length < 8 ∨ off + b.length > 67108864 then fmpDone m 4 [] s
  else
    let new := old.take off ++ List.replicate (off - old.length) 0 ++ b ++ old.drop (off + b.length)
    .boot (fun x => { x with image := new }) :: fmpDone m 0 [] s

/-- LOADER_COMMIT (R438). -/
def reqLoaderCommit : FmpMsg → Plan := withLen 8 (fun m s =>
  let b := s.boot.image.take (fieldOf m.data 0 8)
  if s.firmwareError b = 0 then plans [fmpDone m 0, fun _ => [.boot (fun x => { x with image := b, phase := 1 })]] s
  else fmpDone m 3 [] s)

/-- The message types that a request of the firmware may have (R449). -/
def definedType (t : Nat) : Bool := needsSession t || [0x01, 0x02, 0x03, 0x04].contains t

/-- A request with firmware running, of one type. -/
def fwRun (type : Nat) (f : FmpMsg → Plan) : Plan := planIf (fun s => s.boot.phase == 3) (fmpRun (· == type) f)

/-- FMP_HELLO (R449). -/
def execFmpHello := answer (fmpRun (· == 0x01) reqHello)
/-- CERT_GET (R449). -/
def execCertGet := answer (fwRun 0x02 (fun m s => fmpDone m 0 s.boot.cert s))
/-- ATTEST (R460). -/
def execAttest := answer (fwRun 0x03 reqAttest)
/-- QUOTE_SIGNED (R460). -/
def execQuoteSigned := answer planQuoteSigned
/-- SESSION_OPEN (R445). -/
def execSessionOpen := answer planOpen
/-- SESSION_ACCEPT (R445). -/
def execSessionAccept := answer planAccept
/-- SESSION_CLOSE (R448). -/
def execSessionClose := answer (fwRun 0x05 (fun m => plans [fmpDone m 0, endSession]))
/-- REG_READ (R450). -/
def execRegRead := answer (fwRun 0x10 reqRegRead)
/-- REG_WRITE (R450). -/
def execRegWrite (before : Nat) := answer (fwRun 0x11 (reqRegWrite before))
/-- WIN_READ (R451). -/
def execWinRead := answer (fwRun 0x12 reqWinRead)
/-- WIN_WRITE (R451). -/
def execWinWrite := answer (fwRun 0x13 reqWinWrite)
/-- STATE_DUMP (R452). -/
def execStateDump := answer (fwRun 0x14 reqDump)
/-- KEY_INSTALL (R449). -/
def execKeyInstall := answer (fwRun 0x20 reqKey)
/-- FUSE_PROGRAM (R435). -/
def execFuseProgram := answer (fwRun 0x21 reqFuse)
/-- FW_UPDATE (R439). -/
def execFwUpdate := answer (fwRun 0x22 reqUpdate)
/-- FW_WRITE_DONE (R439). -/
def execFwWriteDone := answer planFwDone
/-- FW_SVN_COMMIT (R440). -/
def execFwSvnCommit := answer (fwRun 0x23 reqSvn)
/-- FMP_RESET (R449). -/
def execFmpReset := answer (fwRun 0x24 reqReset)
/-- LOADER_WRITE (R438). -/
def execLoaderWrite := answer (planIf (fun s => s.boot.phase == 4) (fmpRun (· == 0x40) reqLoaderWrite))
/-- LOADER_COMMIT (R438). -/
def execLoaderCommit := answer (planIf (fun s => s.boot.phase == 4) (fmpRun (· == 0x41) reqLoaderCommit))
/-- FMP_UNDEFINED_TYPE (R449). -/
def execFmpUndefinedType := answer (planIf (fun s => s.boot.phase == 3) (fmpRun (fun t => !definedType t) (fun m => fmpDone m 4)))

end Sys2Proof.Machine
end

