-- ==== Sys2Proof/Machine/Boot.lean ====
section
/-!
DEFINITION. The boot of the system controller (R437) and the management port's Neighbor Discovery (R441).
-/
namespace Sys2Proof.Machine

/-- The mask ROM runs (R437): the image is measured and checked, and the firmware starts, or the ROM loader or a halt
follows. -/
def planRom : Plan := fun s =>
  let b := s.boot.image
  if s.boot.phase ≠ 1 then []
  else if s.firmwareError b = 0 then
    (List.range 4).map (fun i => setF .FMP_BOOT_MEAS_DIGEST (bits (firmwareMeas b) (64 * i) 64) i) ++
    [setF .FMP_FW_RUN_SVN (fieldOf b 24 1), .boot (fun x => { x with phase := 2 })]
  else [.boot (fun x => { x with phase := if s.boot.fuses.romOff then 5 else 4 })]

/-- Whether the certificate names the identity key (R459). -/
def State.identityOk (s : State) : Bool := (s.boot.cert.drop 24).take 64 == Config.identityKey s.boot.fuses.seed

/-- The firmware serves FMP (R437): the configuration store is loaded and the rails are up, where no trip keeps them off. -/
def planReady : Plan := fun s =>
  if s.boot.phase ≠ 2 ∨ s.var .tripped = 1 ∨ s.var .railsOff = 1 ∨ s.var .unpowered = 1 then []
  else [.boot (fun x => { x with phase := 3 }), .var .ledHeld 0 0, setF .FMP_STATUS_READY 1, setF .PWR_STATUS_STATE 1,
    setF .FMP_STATUS_IDENTITY_BAD (b2n !s.identityOk), setF .FMP_MGMT_ADDR_HI_ADDR s.boot.addrHi,
    setF .FMP_MGMT_ADDR_LO_ADDR s.boot.addrLo, setF .FMP_CFG_UDP_PORT s.boot.udp, setF .FMP_CFG_IDLE_S s.boot.idle]

/-- The management address as HI and LO: that of the configuration store, or for a ROM loader that cannot read the store
the link-local one of fe80::/64 and the low 64 bits of SERIAL (R438). -/
def State.mgmtAddr (s : State) : Nat × Nat :=
  if s.boot.phase = 4 ∧ s.boot.storeBad then (0x80FE, ofLe (netBytes 8 (s.boot.fuses.serial % 2 ^ 64)))
  else (s.boot.addrHi, s.boot.addrLo)

/-- A Neighbor Solicitation for the management address, of a source address, is answered on the management port (R441). An
address is a number whose byte k is byte k of the address in network order. -/
def planSolicit (src hi lo : Nat) : Plan := fun s =>
  if (s.boot.phase = 3 ∨ s.boot.phase = 4) ∧ (hi, lo) = s.mgmtAddr then
    [send .mgmt src [136] (leBytes 8 hi ++ leBytes 8 lo)] else []

/-- BOOT_ROM (R437). -/
def execBootRom := answer planRom
/-- FIRMWARE_READY (R437). -/
def execFirmwareReady := answer planReady
/-- NEIGHBOR_SOLICITATION (R441). -/
def execNeighborSolicitation (src hi lo : Nat) := answer (planSolicit src hi lo)

end Sys2Proof.Machine
end

