-- ==== Sys2Proof/Machine/Late.lean ====
section
/-!
DEFINITION. The boundary's own command (R22), after which the writes that waited for it land (R450), and what firmware sends
unasked: EVENT and SOUNDING messages (R462), with the load window and the Drift policy of each Sounding (R223, R225).
-/
namespace Sys2Proof.Machine

/-- BEAT_BOUNDARY (R22): due once the retire check has passed. -/
def planBoundary : Plan := fun s =>
  if s.running ∧ s.var .boundaryDue ≥ 1 then
    plans [boundary, planIf (fun s' => s'.fmp.lateFor.isSome) lateWrites] s
  else []

/-- A message of the module to the session's controller (R462). -/
def fmpUnasked (type : Nat) (payload : List Nat) : Plan := fun s =>
  if s.session = 0 then []
  else plans [fmpSend s.fmp.peer s.fmp.via type 2 0 s.session s.fmp.out payload,
    fun _ => [.fmp (fun x => { x with out := x.out + 1 })]] s

/-- EVENT: new entries of the event log, and completions that asked for NOTIFY, 256 in all at most. -/
def planEvents : Plan := fun s =>
  let beat := s.get .BEAT_COUNT_COUNT
  let fresh := min 256 ((s.get .ERR_EVLOG_HEAD_HEAD + 4096 - s.fmp.evNext) % 4096)
  let notes := s.fmp.notes.take (256 - fresh)
  let es := (List.range fresh).map (fun k => padEntry 32 (s.eventEntry (s.fmp.evNext + k))) ++ notes.map Event.bytes
  if s.session = 0 ∨ s.get .FMP_CFG_EVENTS = 0 ∨ es.isEmpty ∨ (s.fmp.evBeat ≠ 0 ∧ beat + 1 < s.fmp.evBeat + 64) then []
  else plans [fmpUnasked 0x30 (leBytes 4 s.fmp.evNext ++ leBytes 4 es.length ++ es.flatten),
    fun _ => [.fmp (fun x => { x with
      evNext := (x.evNext + fresh) % 4096, evBeat := beat + 1, notes := x.notes.drop (256 - fresh) })]] s

/-- The load counts of the window that ends are latched, and a new window begins (R223). -/
def latchLoad : Plan := fun s =>
  let idx := (s.listed .DRIFT_LOAD_LOOKUPS ++ s.listed .DRIFT_LOAD_UPDATES ++ (s.rows.load.map (fun (p : Nat × Nat) => p.1 / 2))).eraseDups
  (idx.map (fun i => [setF .DRIFT_LOAD_LOOKUPS (min (2 ^ 32 - 1) (Sparse.get 0 s.rows.load (2 * i))) i,
    setF .DRIFT_LOAD_UPDATES (min (2 ^ 32 - 1) (Sparse.get 0 s.rows.load (2 * i + 1))) i])).flatten ++
  [.rows (fun r => { r with load := [] })]

/-- The rows of a stack's heavy list that may move, in descending estimate. -/
def State.movable (s : State) (stack : Nat) : List Nat :=
  let es := ((List.range 64).map (s.heavyAt stack)).filter (fun e => e.2 != 0)
  ((es.mergeSort (fun a b => decide (a.2 ≥ b.2))).map Prod.fst).filter (fun key =>
    match s.table (keyTable key) with
    | some t => tblDrift t && (match s.resolve stack t key true with | .at _ => true | _ => false)
    | none => false)

/-- The Drift policy of a die (R225). -/
def driftPolicy (die : Nat) : Plan := fun s =>
  let load := fun (i : Nat) =>
    s.get .DRIFT_LOAD_LOOKUPS ((8 * die + i) * 4097 + 4096) + s.get .DRIFT_LOAD_UPDATES ((8 * die + i) * 4097 + 4096)
  let sum := ((List.range 8).map load).foldl (· + ·) 0
  let top := (List.range 8).foldl (fun m i => if load i > load m then i else m) 0
  let low := (List.range 8).foldl (fun m i => if load i < load m then i else m) 0
  if s.get .EMB_DRIFT_POLICY_ENABLE die = 1 ∧ load top * 8 * 16 > sum * s.get .EMB_DRIFT_POLICY_IMBALANCE die then
    planEach ((s.movable (8 * die + top)).take (s.get .EMB_DRIFT_POLICY_MAX_MOVES die))
      (fun key s' => driftGo (8 * die + top) key s'.rank (8 * die + low) s') s
  else []

/-- Ports of a kind as a mask. -/
def portMask (p : Nat → Bool) : Nat := ((List.range 16).map (fun i => b2n (p i) * 2 ^ i)).foldl (· + ·) 0

/-- The payload of a Sounding (R462). -/
def State.sounding (s : State) : List Nat :=
  let up := fun i => s.get .PORT_STATUS_STATE i == 4
  let narrow := fun i => up i && (popCount 4 (s.get .PORT_STATUS_TX_MAP i) < 4 || popCount 4 (s.get .PORT_STATUS_RX_MAP i) < 4)
  leBytes 8 (s.get .BEAT_COUNT_COUNT) ++ leBytes 8 (s.readReg 0x10018) ++ leBytes 8 (s.readReg 0x400040) ++
    leBytes 4 (s.get .SPRING_RING_USE_USED) ++ leBytes 2 (s.get .PWR_INPUT_POWER) ++ leBytes 2 (s.get .PWR_THERM_HOTTEST) ++
    leBytes 4 (s.viewField .COLL_STATUS_LIVE 0) ++ leBytes 2 (portMask up) ++ leBytes 2 (portMask narrow) ++
    leBytes 4 (s.get .ERR_EVLOG_HEAD_HEAD) ++ leBytes 4 (min (s.var .stretchSince) (2 ^ 32 - 1)) ++
    leBytes 4 (s.get .CLAY_GEN_ACTIVE) ++ leBytes 2 (s.readReg 0x10008) ++ List.replicate 10 0

/-- SOUNDING: in RUNNING once for each boundary with BEAT_COUNT a multiple of 1,024, else as its clock says. -/
def planSounding : Plan := fun s =>
  let beat := s.get .BEAT_COUNT_COUNT
  if s.running ∧ (beat % 1024 ≠ 0 ∨ s.var .soundAt = beat + 1 ∨ s.var .boundaryDue ≠ 0) then []
  else plans [latchLoad,
    fun s' => if s'.session ≠ 0 ∧ s'.get .FMP_CFG_SOUNDINGS = 1 then fmpUnasked 0x31 s'.sounding s' else [],
    fun _ => [.var .stretchSince 0 0, .var .soundAt 0 (if s.running then beat + 1 else 0)],
    driftPolicy 0, driftPolicy 1] s

/-- BEAT_BOUNDARY (R22). -/
def execBeatBoundary := answer planBoundary
/-- EVENT_SEND (R462). -/
def execEventSend := answer planEvents
/-- SOUNDING (R462). -/
def execSounding := answer planSounding

end Sys2Proof.Machine
end

