-- ==== Sys2Proof/Machine/Dispatch.lean ====
section
/-!
DEFINITION. The dispatch of a command to its meaning: one arm for each constructor of Instr, each arm one direct call.
-/
namespace Sys2Proof.Machine

def exec (i : Instr) (s : State) : Host.Outcome State Fault Refusal :=
  match i with
  | .beatRetireCheck => Sys2Proof.Machine.execBeatRetireCheck s
  | .stretchSample n => Sys2Proof.Machine.execStretchSample n s
  | .beatBoundary => Sys2Proof.Machine.execBeatBoundary s
  | .commitApply block unit => Sys2Proof.Machine.execCommitApply block unit s
  | .beatStart => Sys2Proof.Machine.execBeatStart s
  | .beatZeroBoundary => Sys2Proof.Machine.execBeatZeroBoundary s
  | .holdReq mode => Sys2Proof.Machine.execHoldReq mode s
  | .holdEnter => Sys2Proof.Machine.execHoldEnter s
  | .resume => Sys2Proof.Machine.execResume s
  | .faultHold => Sys2Proof.Machine.execFaultHold s
  | .sliceRetire kind index => Sys2Proof.Machine.execSliceRetire kind index s
  | .tokenArrival q => Sys2Proof.Machine.execTokenArrival q s
  | .creditArrival q => Sys2Proof.Machine.execCreditArrival q s
  | .seqHoldRelease cell clk => Sys2Proof.Machine.execSeqHoldRelease cell clk s
  | .tarnBankGrant tarn requester wait => Sys2Proof.Machine.execTarnBankGrant tarn requester wait s
  | .tierCommit => Sys2Proof.Machine.execTierCommit s
  | .hotFlush => Sys2Proof.Machine.execHotFlush s
  | .hotFlushDone => Sys2Proof.Machine.execHotFlushDone s
  | .microbatchDrop slot => Sys2Proof.Machine.execMicrobatchDrop slot s
  | .weightFillDone stream slot => Sys2Proof.Machine.execWeightFillDone stream slot s
  | .weightSlotRelease stream slot => Sys2Proof.Machine.execWeightSlotRelease stream slot s
  | .arrayTileGrant cell wait => Sys2Proof.Machine.execArrayTileGrant cell wait s
  | .arrayOpRetire cell busy => Sys2Proof.Machine.execArrayOpRetire cell busy s
  | .cellCommit cell => Sys2Proof.Machine.execCellCommit cell s
  | .vadd cell w => Sys2Proof.Machine.execVadd cell w s
  | .vmul cell w => Sys2Proof.Machine.execVmul cell w s
  | .vfma cell w => Sys2Proof.Machine.execVfma cell w s
  | .vmin cell w => Sys2Proof.Machine.execVmin cell w s
  | .vmax cell w => Sys2Proof.Machine.execVmax cell w s
  | .vcmp cell w => Sys2Proof.Machine.execVcmp cell w s
  | .vsel cell w => Sys2Proof.Machine.execVsel cell w s
  | .vcvt cell w => Sys2Proof.Machine.execVcvt cell w s
  | .vred cell w => Sys2Proof.Machine.execVred cell w s
  | .vand cell w => Sys2Proof.Machine.execVand cell w s
  | .vor cell w => Sys2Proof.Machine.execVor cell w s
  | .vxor cell w => Sys2Proof.Machine.execVxor cell w s
  | .vshl cell w => Sys2Proof.Machine.execVshl cell w s
  | .vshr cell w => Sys2Proof.Machine.execVshr cell w s
  | .vsra cell w => Sys2Proof.Machine.execVsra cell w s
  | .vlsh cell w => Sys2Proof.Machine.execVlsh cell w s
  | .vbcast cell w => Sys2Proof.Machine.execVbcast cell w s
  | .vext cell w => Sys2Proof.Machine.execVext cell w s
  | .vins cell w => Sys2Proof.Machine.execVins cell w s
  | .mand cell w => Sys2Proof.Machine.execMand cell w s
  | .mor cell w => Sys2Proof.Machine.execMor cell w s
  | .mxor cell w => Sys2Proof.Machine.execMxor cell w s
  | .mnot cell w => Sys2Proof.Machine.execMnot cell w s
  | .mshl cell w => Sys2Proof.Machine.execMshl cell w s
  | .mpop cell w => Sys2Proof.Machine.execMpop cell w s
  | .mset cell w => Sys2Proof.Machine.execMset cell w s
  | .mget cell w => Sys2Proof.Machine.execMget cell w s
  | .sadd cell w => Sys2Proof.Machine.execSadd cell w s
  | .ssub cell w => Sys2Proof.Machine.execSsub cell w s
  | .smul cell w => Sys2Proof.Machine.execSmul cell w s
  | .sand cell w => Sys2Proof.Machine.execSand cell w s
  | .sor cell w => Sys2Proof.Machine.execSor cell w s
  | .sxor cell w => Sys2Proof.Machine.execSxor cell w s
  | .sshl cell w => Sys2Proof.Machine.execSshl cell w s
  | .sshr cell w => Sys2Proof.Machine.execSshr cell w s
  | .ssra cell w => Sys2Proof.Machine.execSsra cell w s
  | .sli cell w => Sys2Proof.Machine.execSli cell w s
  | .sliu cell w => Sys2Proof.Machine.execSliu cell w s
  | .scmp cell w => Sys2Proof.Machine.execScmp cell w s
  | .sget cell w => Sys2Proof.Machine.execSget cell w s
  | .amov cell w => Sys2Proof.Machine.execAmov cell w s
  | .aadd cell w => Sys2Proof.Machine.execAadd cell w s
  | .atos cell w => Sys2Proof.Machine.execAtos cell w s
  | .vld cell w => Sys2Proof.Machine.execVld cell w s
  | .vst cell w => Sys2Proof.Machine.execVst cell w s
  | .sld cell w => Sys2Proof.Machine.execSld cell w s
  | .sst cell w => Sys2Proof.Machine.execSst cell w s
  | .vgath cell w => Sys2Proof.Machine.execVgath cell w s
  | .vscat cell w => Sys2Proof.Machine.execVscat cell w s
  | .qsend cell w => Sys2Proof.Machine.execQsend cell w s
  | .qrecv cell w => Sys2Proof.Machine.execQrecv cell w s
  | .qprobe cell w => Sys2Proof.Machine.execQprobe cell w s
  | .qrecvDeadline cell clk => Sys2Proof.Machine.execQrecvDeadline cell clk s
  | .aop cell w => Sys2Proof.Machine.execAop cell w s
  | .await cell w => Sys2Proof.Machine.execAwait cell w s
  | .wfill cell w => Sys2Proof.Machine.execWfill cell w s
  | .wrel cell w => Sys2Proof.Machine.execWrel cell w s
  | .xsta cell w => Sys2Proof.Machine.execXsta cell w s
  | .xget cell w => Sys2Proof.Machine.execXget cell w s
  | .xfree cell w => Sys2Proof.Machine.execXfree cell w s
  | .nop cell w => Sys2Proof.Machine.execNop cell w s
  | .br cell w => Sys2Proof.Machine.execBr cell w s
  | .brc cell w => Sys2Proof.Machine.execBrc cell w s
  | .brm cell w => Sys2Proof.Machine.execBrm cell w s
  | .loop cell w => Sys2Proof.Machine.execLoop cell w s
  | .slend cell w => Sys2Proof.Machine.execSlend cell w s
  | .fence cell w => Sys2Proof.Machine.execFence cell w s
  | .bwait cell w => Sys2Proof.Machine.execBwait cell w s
  | .trap cell w => Sys2Proof.Machine.execTrap cell w s
  | .undefinedOpcode cell opc w => Sys2Proof.Machine.execUndefinedOpcode cell opc w s
  | .scan cell w => Sys2Proof.Machine.execScan cell w s
  | .segscan cell w => Sys2Proof.Machine.execSegscan cell w s
  | .exp2 cell w => Sys2Proof.Machine.execExp2 cell w s
  | .log2 cell w => Sys2Proof.Machine.execLog2 cell w s
  | .rcp cell w => Sys2Proof.Machine.execRcp cell w s
  | .rsqrt cell w => Sys2Proof.Machine.execRsqrt cell w s
  | .cadd cell w => Sys2Proof.Machine.execCadd cell w s
  | .mxenc cell w => Sys2Proof.Machine.execMxenc cell w s
  | .fetchUe cell => Sys2Proof.Machine.execFetchUe cell s
  | .cellSeqRestart cell pc => Sys2Proof.Machine.execCellSeqRestart cell pc s
  | .clayLoad => Sys2Proof.Machine.execClayLoad s
  | .clayPass1Done => Sys2Proof.Machine.execClayPass1Done s
  | .claySignatureDone => Sys2Proof.Machine.execClaySignatureDone s
  | .clayPass2Done => Sys2Proof.Machine.execClayPass2Done s
  | .clayCancel => Sys2Proof.Machine.execClayCancel s
  | .clayArm => Sys2Proof.Machine.execClayArm s
  | .groupCommit => Sys2Proof.Machine.execGroupCommit s
  | .quiesceBegin => Sys2Proof.Machine.execQuiesceBegin s
  | .clayFlip => Sys2Proof.Machine.execClayFlip s
  | .embCoalesce die => Sys2Proof.Machine.execEmbCoalesce die s
  | .embFetch die => Sys2Proof.Machine.execEmbFetch die s
  | .embPool die => Sys2Proof.Machine.execEmbPool die s
  | .embGrad die => Sys2Proof.Machine.execEmbGrad die s
  | .embPush die => Sys2Proof.Machine.execEmbPush die s
  | .embEmptyItem die => Sys2Proof.Machine.execEmbEmptyItem die s
  | .lookupTimeout die => Sys2Proof.Machine.execLookupTimeout die s
  | .embCommit die => Sys2Proof.Machine.execEmbCommit die s
  | .sketchClear die => Sys2Proof.Machine.execSketchClear die s
  | .sketchDecay die => Sys2Proof.Machine.execSketchDecay die s
  | .driftGo stack rank dest => Sys2Proof.Machine.execDriftGo stack rank dest s
  | .driftLeaving stack key => Sys2Proof.Machine.execDriftLeaving stack key s
  | .driftSwitch stack key => Sys2Proof.Machine.execDriftSwitch stack key s
  | .driftInstall stack key => Sys2Proof.Machine.execDriftInstall stack key s
  | .driftFree stack key => Sys2Proof.Machine.execDriftFree stack key s
  | .driftCopyTimeout stack key => Sys2Proof.Machine.execDriftCopyTimeout stack key s
  | .sounding => Sys2Proof.Machine.execSounding s
  | .cellLost cell cause => Sys2Proof.Machine.execCellLost cell cause s
  | .push m => Sys2Proof.Machine.execPush m s
  | .endMark m => Sys2Proof.Machine.execEndMark m s
  | .siltClose stack => Sys2Proof.Machine.execSiltClose stack s
  | .siltApply stack => Sys2Proof.Machine.execSiltApply stack s
  | .siltEmptyItem stack => Sys2Proof.Machine.execSiltEmptyItem stack s
  | .siltLaneDispatch stack lane key wait => Sys2Proof.Machine.execSiltLaneDispatch stack lane key wait s
  | .siltUpdateDone stack key => Sys2Proof.Machine.execSiltUpdateDone stack key s
  | .tornSweepDone stack => Sys2Proof.Machine.execTornSweepDone stack s
  | .siltCommit stack => Sys2Proof.Machine.execSiltCommit stack s
  | .eccWriteback dpa => Sys2Proof.Machine.execEccWriteback dpa s
  | .springRecord emitter wait => Sys2Proof.Machine.execSpringRecord emitter wait s
  | .springMark => Sys2Proof.Machine.execSpringMark s
  | .springStream sink => Sys2Proof.Machine.execSpringStream sink s
  | .sinkAck f => Sys2Proof.Machine.execSinkAck f s
  | .sinkAckTimeout sink => Sys2Proof.Machine.execSinkAckTimeout sink s
  | .sinkFailover sink => Sys2Proof.Machine.execSinkFailover sink s
  | .springCommit => Sys2Proof.Machine.execSpringCommit s
  | .closeWindow => Sys2Proof.Machine.execCloseWindow s
  | .sinkSwap => Sys2Proof.Machine.execSinkSwap s
  | .pairEnable => Sys2Proof.Machine.execPairEnable s
  | .pairDisable => Sys2Proof.Machine.execPairDisable s
  | .sinksReconnect => Sys2Proof.Machine.execSinksReconnect s
  | .springEpochWrite epoch => Sys2Proof.Machine.execSpringEpochWrite epoch s
  | .springSinkAckWrite seq => Sys2Proof.Machine.execSpringSinkAckWrite seq s
  | .inputLoss mv => Sys2Proof.Machine.execInputLoss mv s
  | .lastGaspStop => Sys2Proof.Machine.execLastGaspStop s
  | .lastGaspFlush => Sys2Proof.Machine.execLastGaspFlush s
  | .lastGaspEnd clk => Sys2Proof.Machine.execLastGaspEnd clk s
  | .roceResponse sink kind psn => Sys2Proof.Machine.execRoceResponse sink kind psn s
  | .roceRetryTimeout sink => Sys2Proof.Machine.execRoceRetryTimeout sink s
  | .qpReady f => Sys2Proof.Machine.execQpReady f s
  | .roceRearm => Sys2Proof.Machine.execRoceRearm s
  | .kvAppend q slot => Sys2Proof.Machine.execKvAppend q slot s
  | .kvRead q => Sys2Proof.Machine.execKvRead q s
  | .kvShare q => Sys2Proof.Machine.execKvShare q s
  | .kvFree q => Sys2Proof.Machine.execKvFree q s
  | .kvPrefetch q => Sys2Proof.Machine.execKvPrefetch q s
  | .kvBadRequest q => Sys2Proof.Machine.execKvBadRequest q s
  | .kvCowInstall hist layer => Sys2Proof.Machine.execKvCowInstall hist layer s
  | .kvPageQuarantine die page => Sys2Proof.Machine.execKvPageQuarantine die page s
  | .kvPageReturn die page => Sys2Proof.Machine.execKvPageReturn die page s
  | .kvSpill die => Sys2Proof.Machine.execKvSpill die s
  | .kvMoveDone die page => Sys2Proof.Machine.execKvMoveDone die page s
  | .seqCommit die => Sys2Proof.Machine.execSeqCommit die s
  | .collChain die => Sys2Proof.Machine.execCollChain die s
  | .collRoot die => Sys2Proof.Machine.execCollRoot die s
  | .collGather die => Sys2Proof.Machine.execCollGather die s
  | .collEmptyItem die => Sys2Proof.Machine.execCollEmptyItem die s
  | .accumToken q => Sys2Proof.Machine.execAccumToken q s
  | .chainSeg m => Sys2Proof.Machine.execChainSeg m s
  | .rootContrib m => Sys2Proof.Machine.execRootContrib m s
  | .rootResult m => Sys2Proof.Machine.execRootResult m s
  | .hopDeadline => Sys2Proof.Machine.execHopDeadline s
  | .fetchReq m => Sys2Proof.Machine.execFetchReq m s
  | .fetchData m => Sys2Proof.Machine.execFetchData m s
  | .fetchStale m => Sys2Proof.Machine.execFetchStale m s
  | .leaseRelease m => Sys2Proof.Machine.execLeaseRelease m s
  | .leaseExpiry key version => Sys2Proof.Machine.execLeaseExpiry key version s
  | .peerLost ep => Sys2Proof.Machine.execPeerLost ep s
  | .rejoinLive rank => Sys2Proof.Machine.execRejoinLive rank s
  | .collCommit => Sys2Proof.Machine.execCollCommit s
  | .permStart => Sys2Proof.Machine.execPermStart s
  | .permAbort => Sys2Proof.Machine.execPermAbort s
  | .permMove stack => Sys2Proof.Machine.execPermMove stack s
  | .laneLoss port lane => Sys2Proof.Machine.execLaneLoss port lane s
  | .laneFailed port lane cause => Sys2Proof.Machine.execLaneFailed port lane cause s
  | .alignmentCodeword port block cor unc syms => Sys2Proof.Machine.execAlignmentCodeword port block cor unc syms s
  | .changeMarker port => Sys2Proof.Machine.execChangeMarker port s
  | .changeMarkerDetect port => Sys2Proof.Machine.execChangeMarkerDetect port s
  | .widthConfirm port => Sys2Proof.Machine.execWidthConfirm port s
  | .widthChangeTimeout port => Sys2Proof.Machine.execWidthChangeTimeout port s
  | .portFail port => Sys2Proof.Machine.execPortFail port s
  | .laneRetrainDone port lane => Sys2Proof.Machine.execLaneRetrainDone port lane s
  | .bringupStageDone port lanes => Sys2Proof.Machine.execBringupStageDone port lanes s
  | .bringupTimeout port => Sys2Proof.Machine.execBringupTimeout port s
  | .frameArrival port bytes fcs code kept => Sys2Proof.Machine.execFrameArrival port bytes fcs code kept s
  | .portCommit port => Sys2Proof.Machine.execPortCommit port s
  | .portRetrain port => Sys2Proof.Machine.execPortRetrain port s
  | .laneClear port => Sys2Proof.Machine.execLaneClear port s
  | .fwdTableWrite n value => Sys2Proof.Machine.execFwdTableWrite n value s
  | .gtKeepalive f => Sys2Proof.Machine.execGtKeepalive f s
  | .gtAck f => Sys2Proof.Machine.execGtAck f s
  | .gtNak f => Sys2Proof.Machine.execGtNak f s
  | .gtHello f => Sys2Proof.Machine.execGtHello f s
  | .gtHelloAck f => Sys2Proof.Machine.execGtHelloAck f s
  | .gtUndefinedOpcode f reason => Sys2Proof.Machine.execGtUndefinedOpcode f reason s
  | .qtoken f => Sys2Proof.Machine.execQtoken f s
  | .qcredit f => Sys2Proof.Machine.execQcredit f s
  | .lookupReq m => Sys2Proof.Machine.execLookupReq m s
  | .lookupReply m => Sys2Proof.Machine.execLookupReply m s
  | .driftCopy m => Sys2Proof.Machine.execDriftCopy m s
  | .copyAck m => Sys2Proof.Machine.execCopyAck m s
  | .copyNak m => Sys2Proof.Machine.execCopyNak m s
  | .switch m => Sys2Proof.Machine.execSwitch m s
  | .switchAck m => Sys2Proof.Machine.execSwitchAck m s
  | .driftCancel m => Sys2Proof.Machine.execDriftCancel m s
  | .driftFwd m => Sys2Proof.Machine.execDriftFwd m s
  | .refill f => Sys2Proof.Machine.execRefill f s
  | .gsr f line => Sys2Proof.Machine.execGsr f line s
  | .gtRto ep ch seq => Sys2Proof.Machine.execGtRto ep ch seq s
  | .gtAckTimer ep ch => Sys2Proof.Machine.execGtAckTimer ep ch s
  | .gtHelloRetry ep ch => Sys2Proof.Machine.execGtHelloRetry ep ch s
  | .keepaliveSend => Sys2Proof.Machine.execKeepaliveSend s
  | .xportCommit => Sys2Proof.Machine.execXportCommit s
  | .quarClear => Sys2Proof.Machine.execQuarClear s
  | .connReset => Sys2Proof.Machine.execConnReset s
  | .scrubGo => Sys2Proof.Machine.execScrubGo s
  | .scrubAbort => Sys2Proof.Machine.execScrubAbort s
  | .scrubLineRead => Sys2Proof.Machine.execScrubLineRead s
  | .dmaRestart => Sys2Proof.Machine.execDmaRestart s
  | .dmaRestartSkip => Sys2Proof.Machine.execDmaRestartSkip s
  | .retireGo => Sys2Proof.Machine.execRetireGo s
  | .retireDone => Sys2Proof.Machine.execRetireDone s
  | .lineClear => Sys2Proof.Machine.execLineClear s
  | .stackClear => Sys2Proof.Machine.execStackClear s
  | .errorHistoryAppend uptime => Sys2Proof.Machine.execErrorHistoryAppend uptime s
  | .fmpFragment via src bytes => Sys2Proof.Machine.execFmpFragment via src bytes s
  | .fmpReassemblyTimeout n => Sys2Proof.Machine.execFmpReassemblyTimeout n s
  | .fmpGapTimeout => Sys2Proof.Machine.execFmpGapTimeout s
  | .fmpHello => Sys2Proof.Machine.execFmpHello s
  | .certGet => Sys2Proof.Machine.execCertGet s
  | .attest => Sys2Proof.Machine.execAttest s
  | .quoteSigned => Sys2Proof.Machine.execQuoteSigned s
  | .sessionOpen => Sys2Proof.Machine.execSessionOpen s
  | .sessionAccept => Sys2Proof.Machine.execSessionAccept s
  | .sessionClose => Sys2Proof.Machine.execSessionClose s
  | .sessionIdleTimeout => Sys2Proof.Machine.execSessionIdleTimeout s
  | .regRead => Sys2Proof.Machine.execRegRead s
  | .regWrite before => Sys2Proof.Machine.execRegWrite before s
  | .winRead => Sys2Proof.Machine.execWinRead s
  | .winWrite => Sys2Proof.Machine.execWinWrite s
  | .stateDump => Sys2Proof.Machine.execStateDump s
  | .keyInstall => Sys2Proof.Machine.execKeyInstall s
  | .fuseProgram => Sys2Proof.Machine.execFuseProgram s
  | .fwUpdate => Sys2Proof.Machine.execFwUpdate s
  | .fwWriteDone => Sys2Proof.Machine.execFwWriteDone s
  | .fwSvnCommit => Sys2Proof.Machine.execFwSvnCommit s
  | .fmpReset => Sys2Proof.Machine.execFmpReset s
  | .loaderWrite => Sys2Proof.Machine.execLoaderWrite s
  | .loaderCommit => Sys2Proof.Machine.execLoaderCommit s
  | .fmpUndefinedType => Sys2Proof.Machine.execFmpUndefinedType s
  | .eventSend => Sys2Proof.Machine.execEventSend s
  | .fmpCommit => Sys2Proof.Machine.execFmpCommit s
  | .mgmtAddrWrite lo => Sys2Proof.Machine.execMgmtAddrWrite lo s
  | .doorbell ring tail => Sys2Proof.Machine.execDoorbell ring tail s
  | .descriptorCheck ring => Sys2Proof.Machine.execDescriptorCheck ring s
  | .descriptorReread ring => Sys2Proof.Machine.execDescriptorReread ring s
  | .ringNop ring => Sys2Proof.Machine.execRingNop ring s
  | .loadImage ring => Sys2Proof.Machine.execLoadImage ring s
  | .armFlip ring => Sys2Proof.Machine.execArmFlip ring s
  | .regWrites ring before => Sys2Proof.Machine.execRegWrites ring before s
  | .regWritesAtBeat ring => Sys2Proof.Machine.execRegWritesAtBeat ring s
  | .waitBeat ring => Sys2Proof.Machine.execWaitBeat ring s
  | .waitBeatDone ring => Sys2Proof.Machine.execWaitBeatDone ring s
  | .ringCopy ring => Sys2Proof.Machine.execRingCopy ring s
  | .ringFill ring => Sys2Proof.Machine.execRingFill ring s
  | .ringBadOpcode ring => Sys2Proof.Machine.execRingBadOpcode ring s
  | .bootRom => Sys2Proof.Machine.execBootRom s
  | .firmwareReady => Sys2Proof.Machine.execFirmwareReady s
  | .powerOn profile => Sys2Proof.Machine.execPowerOn profile s
  | .pwrOkRelease => Sys2Proof.Machine.execPwrOkRelease s
  | .brownout => Sys2Proof.Machine.execBrownout s
  | .clipSenseMate => Sys2Proof.Machine.execClipSenseMate s
  | .thermSensorRead temps mv amps watts peak => Sys2Proof.Machine.execThermSensorRead temps mv amps watts peak s
  | .throttleUpdate => Sys2Proof.Machine.execThrottleUpdate s
  | .thermalTrip => Sys2Proof.Machine.execThermalTrip s
  | .thermRecover => Sys2Proof.Machine.execThermRecover s
  | .modResetN => Sys2Proof.Machine.execModResetN s
  | .watchdog => Sys2Proof.Machine.execWatchdog s
  | .reset => Sys2Proof.Machine.execReset s
  | .pwrCommit => Sys2Proof.Machine.execPwrCommit s
  | .pwrStandby => Sys2Proof.Machine.execPwrStandby s
  | .pwrWake => Sys2Proof.Machine.execPwrWake s
  | .smbReadState => Sys2Proof.Machine.execSmbReadState s
  | .smbReadProfile => Sys2Proof.Machine.execSmbReadProfile s
  | .smbReadVoltage => Sys2Proof.Machine.execSmbReadVoltage s
  | .smbReadCurrent => Sys2Proof.Machine.execSmbReadCurrent s
  | .smbReadPower => Sys2Proof.Machine.execSmbReadPower s
  | .smbReadTemp => Sys2Proof.Machine.execSmbReadTemp s
  | .smbReadAlert => Sys2Proof.Machine.execSmbReadAlert s
  | .smbReadSerial => Sys2Proof.Machine.execSmbReadSerial s
  | .smbReadSvn => Sys2Proof.Machine.execSmbReadSvn s
  | .smbAlertResponse => Sys2Proof.Machine.execSmbAlertResponse s
  | .smbUndefinedCommand cmd => Sys2Proof.Machine.execSmbUndefinedCommand cmd s
  | .smbWrite => Sys2Proof.Machine.execSmbWrite s
  | .registerWrite addr value => Sys2Proof.Machine.execRegisterWrite addr value s
  | .modResetNRelease => Sys2Proof.Machine.execModResetNRelease s
  | .railsFall => Sys2Proof.Machine.execRailsFall s
  | .systemControllerFault => Sys2Proof.Machine.execSystemControllerFault s
  | .ringCommandCompletion ring => Sys2Proof.Machine.execRingCommandCompletion ring s
  | .neighborSolicitation src hi lo => Sys2Proof.Machine.execNeighborSolicitation src hi lo s
  | .qcreditReport rank => Sys2Proof.Machine.execQcreditReport rank s

end Sys2Proof.Machine
end

