-- ==== Sys2Proof/Machine/Tick.lean ====
section
/-!
DEFINITION. One clk with no command (R13): time passes and the beat timer counts while it runs, up to the retire check.
-/
namespace Sys2Proof.Machine

/-- A clk passes, and frames that wait at a port may start. What else is due at a clk is a command of its own
(notes/assumptions/6.md). The timer stands still from clk 3 of the boundary at which a HOLD is due (R28). -/
def planTick : Plan := plans [fun s =>
  let p := s.get .BEAT_STATUS_PHASE
  .var .clk 0 (s.var .clk + 1) ::
    (if s.running ∧ p < 4095 ∧ s.var .holdDue = 0 then [setF .BEAT_STATUS_PHASE (p + 1)] else []),
  portTurns]

end Sys2Proof.Machine
end

