-- ==== Sys2Proof/Safety.lean ====
section
/-!
DEFINITION. The terms that statements are made in: sound states, what a command completes with, and what it leaves alone.
-/
namespace Sys2Proof.Machine

/-! Sound states. -/

/-- Memory is in its canonical form: addresses strictly rising, no entry equal to what an unlisted address reads as. -/
def Memory.wf (m : List Host.Cell) : Bool := Sparse.wf 0#8 m

/-- Memory holds bytes only at addresses of the DPA map, under their stored address (R72 to R74). -/
def Memory.mapped (m : List Host.Cell) : Bool := m.all (fun c => populated c.1 && canonDpa c.1 == c.1)

/-- Every register field holds a value of its width (R14). -/
def State.fieldsFit (s : State) : Prop := ∀ (f : Fld) (i : Nat), s.get f i < 2 ^ f.width

/-- Every queue's tokens and credits stay within its depth (R42). -/
def State.queuesFit (s : State) : Prop :=
  ∀ q, (Sparse.get {} s.queues q).held ≤ (Sparse.get {} s.queues q).depth

/-- What every command keeps. -/
structure State.Inv (s : State) : Prop where
  memory : Memory.wf s.mem = true
  mapped : Memory.mapped s.mem = true
  fields : s.fieldsFit
  queues : s.queuesFit

/-! Completion. -/

/-- A command answers a next state, of which a property holds. -/
def Completes (c : Instr) (s : State) (post : State → Prop) : Prop := ∃ t, exec c s = .next t ∧ post t

/-! Frames. -/

/-- The parts of the state beside its register fields and internal variables. -/
inductive Part where
  | shadows | mem | unitErr | queues | slices | cells | logs | clay | xport | rows | spring | silt | emb | kv | coll
  | fmp | boot | out | pending
  deriving DecidableEq, Repr

/-- A part is as it was. -/
def State.same (s t : State) : Part → Prop
  | .shadows => t.shadows = s.shadows
  | .mem => t.mem = s.mem
  | .unitErr => t.unitErr = s.unitErr
  | .queues => t.queues = s.queues
  | .slices => t.slices = s.slices
  | .cells => t.cells = s.cells
  | .logs => t.logs = s.logs
  | .clay => t.clay = s.clay
  | .xport => t.xport = s.xport
  | .rows => t.rows = s.rows
  | .spring => t.spring = s.spring
  | .silt => t.silt = s.silt
  | .emb => t.emb = s.emb
  | .kv => t.kv = s.kv
  | .coll => t.coll = s.coll
  | .fmp => t.fmp = s.fmp
  | .boot => t.boot = s.boot
  | .out => t.out = s.out
  | .pending => t.pending = s.pending

/-- Only the parts, register fields and variables named may have changed. -/
structure Frame (s t : State) (parts : List Part) (fields : List (Fld × Nat)) (vars : List (Var × Nat)) : Prop where
  parts  : ∀ p, p ∉ parts → s.same t p
  fields : ∀ f i, (f, i) ∉ fields → t.get f i = s.get f i
  vars   : ∀ v i, (v, i) ∉ vars → t.var v i = s.var v i

/-- Bytes written at a DPA: they are what memory now holds there, and every other byte is as it was. A byte in a hole of
the map is not written (R74). -/
def Wrote (s t : State) (a : Nat) (bs : List Nat) : Prop :=
  (∀ i, i < bs.length → populated (a + i) = true → t.byteAt (a + i) = bs.getD i 0 % 256) ∧
  ∀ b, (∀ i, i < bs.length → canonDpa b ≠ canonDpa (a + i)) → t.byteAt b = s.byteAt b

/-! Cells. -/

/-- A cell's sequencer runs, its PC names an instruction of its program, and the next one is where a PC can point: the
state in which an instruction issues (R126, R144). -/
def State.cellReady (s : State) (cell : Nat) : Bool :=
  decide (cell < 144) && decide (s.get .CELL_SEQ_STATUS_STATE cell = 1) &&
  decide (s.get .CELL_SEQ_STATUS_PC cell < s.get .CELL_SEQ_PROG_LENGTH cell) &&
  decide ((settle (s.get .CELL_SEQ_STATUS_PC cell + 1) (s.loopsOf cell)).1 < 32768)

/-- Register files after one register of a cell is written: S0, M0 and A0 discard what is written (R127). -/
def Cells.putV (c : Cells) (cell r v : Nat) : Cells :=
  { c with v := Sparse.set 0 c.v (cell * 64 + r % 64) (BitVec.ofNat 2048 v) }
def Cells.putS (c : Cells) (cell r v : Nat) : Cells :=
  if r % 32 = 0 then c else { c with s := Sparse.set 0 c.s (cell * 32 + r % 32) (BitVec.ofNat 64 v) }
def Cells.putM (c : Cells) (cell r v : Nat) : Cells :=
  if r % 16 = 0 then c else { c with m := Sparse.set 0 c.m (cell * 16 + r % 16) (BitVec.ofNat 64 v) }
def Cells.putA (c : Cells) (cell r v : Nat) : Cells :=
  if r % 16 = 0 then c else { c with a := Sparse.set 0 c.a (cell * 16 + r % 16) (BitVec.ofNat 48 v) }

/-- A cell's loop stack is replaced. -/
def Cells.putLoops (c : Cells) (cell : Nat) (ls : List Loop) : Cells := { c with loops := Sparse.set [] c.loops cell ls }

/-- Register fields that every completing instruction of a cell may change: its PC, loop depth and counters. -/
def seqFields (cell : Nat) : List (Fld × Nat) :=
  [(.CELL_SEQ_STATUS_PC, cell), (.CELL_SEQ_STATUS_LOOP_DEPTH, cell), (.CELL_SEQ_ISSUED_COUNT, cell),
   (.CELL_SEQ_ISSUED_MACROS, cell), (.CELL_SEQ_CLAMP_COUNT, cell), (.CELL_SEQ_CLAMP_LAST_OPCODE, cell)]

/-- An instruction completes and the sequencer goes on to the next: of all the cells' own state only what `c` says has
changed, and the loop stack if a loop ended or began another round. `n` native instructions are counted, `m`
macro-operations, and `k` fields replaced under R130. -/
structure Issued (s t : State) (cell opc n m k : Nat) (c : Cells) : Prop where
  pc    : t.get .CELL_SEQ_STATUS_PC cell = (settle (s.get .CELL_SEQ_STATUS_PC cell + 1) (s.loopsOf cell)).1
  count : t.get .CELL_SEQ_ISSUED_COUNT cell = satAdd 48 (s.get .CELL_SEQ_ISSUED_COUNT cell) n
  macros : t.get .CELL_SEQ_ISSUED_MACROS cell = satAdd 16 (s.get .CELL_SEQ_ISSUED_MACROS cell) m
  clamp : t.get .CELL_SEQ_CLAMP_COUNT cell =
            if k = 0 then s.get .CELL_SEQ_CLAMP_COUNT cell else satAdd 32 (s.get .CELL_SEQ_CLAMP_COUNT cell) k
  last  : t.get .CELL_SEQ_CLAMP_LAST_OPCODE cell = if k = 0 then s.get .CELL_SEQ_CLAMP_LAST_OPCODE cell else opc
  cells : t.cells = c.putLoops cell (settle (s.get .CELL_SEQ_STATUS_PC cell + 1) (s.loopsOf cell)).2

end Sys2Proof.Machine
end

