-- ==== Sys2Proof/Certificates/Slice0/Obligations.lean ====
section
/-!
DEFINITION. The statements of this model. A statement about a command holds in every state that meets its hypotheses, and
says with `Completes` that the command answers a next state, what that state holds, and with `Frame` what it leaves alone.
A statement of several parts is the conjunction of its claims, each a definition of its own.
-/
open Sys2Proof Sys2Proof.Machine

/-! What the statements about frames and messages share. -/

/-- An acknowledgement that a frame carries names no SEQ that is not yet sent, and lets nothing go that a unit or a lease
waits with (R381, R391). -/
abbrev quietAck (s : State) (f : GtFrame) : Prop :=
  f.flags.testBit 3 = true → serialBefore (s.conn f.ep f.ch).next f.ack = false ∧ (s.conn f.ep f.ch).wait = [] ∧
    s.xport.parked = [] ∧ s.xport.outbox = [] ∧ s.coll.ended = []

/-- A sequenced frame is the next one of its open connection, passes every check of R382, and its unit takes it now (R383,
R390, R391). -/
abbrev inOrderFrame (s : State) (f : GtFrame) : Prop :=
  s.get .XPORT_EP_CFG_KIND f.ep ≠ 0 ∧ f.ep < 65792 ∧ 5 ≤ f.body.op ∧ s.gtFault f = 0 ∧ s.connState f.ep f.ch = 2 ∧
  s.get .XPORT_EP_STATE_PEER_INC (connIdx f.ep f.ch) = f.inc ∧ quietAck s f ∧
  f.seq = (s.conn f.ep f.ch).rcv ∧ f.seq < 2 ^ 32 - 1 ∧ (s.conn f.ep f.ch).ahead = [] ∧ (s.conn f.ep f.ch).ready = [] ∧
  1 ≤ (s.conn f.ep f.ch).win ∧ (s.conn f.ep f.ch).win < 2 ^ 31 ∧ s.takes f = true

/-- A message with opcode `op` comes from a rank: from a unit of this module, as one of those on their way, or in a
frame that is next in order. -/
abbrev comes (s : State) (op rank : Nat) (b : GtBody) : Via → Prop
  | .noc n => s.nocMsg op n = some b ∧ rank = s.rank
  | .gt f => inOrderFrame s f ∧ f.body = b ∧ b.op = op ∧ rank = f.ep


/-- In RUNNING an event waits for its place in the log until the boundary (R429). -/
abbrev posted (s t : State) (code unit store index d0 d1 : Nat) : Prop :=
  t.logs.pend = s.logs.pend ++
    [⟨code, unit, store, index, d0, d1, s.get .BEAT_COUNT_COUNT, s.get .BEAT_STATUS_PHASE⟩]

/-- A message of an opcode with a payload is on its way to a rank: between the units of this module, or, to another that is
present in the view, among the frames that wait, have left, or wait for room in the retransmit store. -/
def Sends (s t : State) (rank op : Nat) (payload : List Nat) : Prop :=
  if rank = s.rank then ∃ b ∈ t.xport.noc, b.op = op ∧ b.payload = payload
  else s.live rank = true → ∃ b : GtBody, b.op = op ∧ b.payload = payload ∧
    (b ∈ (t.conn rank 0).wait ∨ (∃ x ∈ (t.conn rank 0).unacked, x.body = b) ∨ (rank, 0, b) ∈ t.xport.parked)
/-! The block as a whole. -/

/-- A step takes the command at the front of the queue and runs it with the rest of the queue waiting. -/
def Obligations.StepRunsFrontCommand : Prop :=
  ∀ (c : Instr) (rest : List Instr) (s : State),
    step { s with pending := c :: rest } = exec c { s with pending := rest }

/-- With no command waiting a clk passes (the model's choice, assumption 6): the count of clk goes on and, while the timer
runs before its retire check and no HOLD is due, PHASE does. Beside them only frames and alignment codewords may leave at the
ports; where no port has anything of its own, nothing else changes. -/
def Obligations.IdleStepPassesOneClk : Prop :=
  ∀ s : State, s.pending = [] → ∃ t, step s = .next t ∧
    t.var .clk = s.var .clk + 1 ∧
    t.get .BEAT_STATUS_PHASE = (if s.running = true ∧ s.get .BEAT_STATUS_PHASE < 4095 ∧ s.var .holdDue = 0
      then s.get .BEAT_STATUS_PHASE + 1 else s.get .BEAT_STATUS_PHASE) ∧
    (∀ p, p ≠ .xport → p ≠ .out → s.same t p) ∧
    (∀ f i, f ≠ .BEAT_STATUS_PHASE → f ≠ .PORT_FRAMES_TX → t.get f i = s.get f i) ∧
    (∀ v i, v ≠ .clk → t.var v i = s.var v i) ∧
    (s.xport.ports = [] → Frame s t [] [(.BEAT_STATUS_PHASE, 0)] [(.clk, 0)])

/-- No command stops the block, and none touches the commands that wait behind it. -/
def Obligations.CommandsCompleteAndKeepTheQueue : Prop :=
  ∀ (c : Instr) (s : State), ∃ t, exec c s = .next t ∧ t.pending = s.pending

/-- Every step keeps a sound state: memory canonical and within the map, every register field within its width, every queue's
tokens and credits within its depth. -/
def Obligations.StepKeepsInvariant : Prop :=
  ∀ s t : State, s.Inv → step s = .next t → t.Inv

/-- The state after reset is sound. -/
def Claim.ResetIsSound : Prop := State.reset.Inv

/-- What the register tables give for reset: a stopped module with no image, default forwarding, transport and FMP fields,
and the first boundary's counts at 0. -/
def Claim.ResetValues : Prop :=
  State.reset.get .BEAT_STATUS_STATE = 0 ∧ State.reset.get .BEAT_COUNT_COUNT = 0 ∧
  State.reset.get .BEAT_STATUS_PHASE = 0 ∧ State.reset.get .PORT_FWD_CFG_HOP_LIMIT = 64 ∧
  State.reset.get .PORT_FWD_CFG_CTRL_TC = 0xB8 ∧ State.reset.get .FMP_CFG_UDP_PORT = 47009 ∧
  State.reset.get .FMP_CFG_IDLE_S = 30 ∧ State.reset.clay.active = none ∧ State.reset.pending = []

/-- The state after reset is sound and holds the reset values of the register tables. -/
def Obligations.ResetState : Prop := Claim.ResetIsSound ∧ Claim.ResetValues
/-! Cell instructions. Each completes in a ready sequencer: its registers are written as its rule says, every other register
of every cell, all of memory and every other register field stays, and the PC moves on. -/

/-- Scalar opcodes of two sources, as functions of S[SA] and of S[SB] or the immediate. -/
abbrev scalarTable : List ((Nat → CellWord → Instr) × Nat × (Nat → Nat → Nat)) :=
  [(.sadd, 0x40, fun a b => a + b), (.ssub, 0x41, fun a b => a + 2 ^ 64 - b), (.smul, 0x42, fun a b => a * b),
   (.sand, 0x43, fun a b => a &&& b), (.sor, 0x44, fun a b => a ||| b), (.sxor, 0x45, fun a b => a ^^^ b),
   (.sshl, 0x46, fun a b => a <<< (b % 64)), (.sshr, 0x47, fun a b => a >>> (b % 64)),
   (.ssra, 0x48, fun a b => wrapInt 64 (sext 64 a >>> (b % 64)))]

/-- SADD to SSRA write S[DST] modulo 2^64; S0 discards it. -/
def Claim.ScalarArithmetic : Prop :=
  ∀ p ∈ scalarTable, ∀ (cell : Nat) (w : CellWord) (s : State), s.cellReady cell = true →
    Completes (p.1 cell w) s (fun t =>
      Issued s t cell p.2.1 1 0 0
        (s.cells.putS cell w.dst.toNat (p.2.2 (s.sReg cell w.sa.toNat) (scalarB cell w s) % 2 ^ 64)) ∧
      Frame s t [.cells] (seqFields cell) [])

/-- SLI, SLIU, SCMP, SGET and the address opcodes AMOV, AADD and ATOS. Choices of the model in it: assumption 95. -/
def Claim.ScalarMovesAndAddresses : Prop :=
  ∀ (cell : Nat) (w : CellWord) (s : State), s.cellReady cell = true →
    let done := fun (i : Instr) (opc k : Nat) (c : Cells) =>
      Completes i s (fun t => Issued s t cell opc 1 0 k c ∧ Frame s t [.cells] (seqFields cell) [])
    done (.sli cell w) 0x49 0 (s.cells.putS cell w.dst.toNat (wrapInt 64 (w.simm 23))) ∧
    done (.sliu cell w) 0x4A 0
      (s.cells.putS cell w.dst.toNat (((s.sReg cell w.dst.toNat <<< 23) ||| w.imm.toNat) % 2 ^ 64)) ∧
    done (.scmp cell w) 0x4B (legalCode (w.im 18 4) 8 0).2
      (s.cells.putS cell w.dst.toNat (b2n (scalarCmp (legalCode (w.im 18 4) 8 0).1 (s.sReg cell w.sa.toNat)
        (if w.imm.toNat.testBit 22 then wrapInt 64 (w.simm 18) else s.sReg cell w.sb.toNat)))) ∧
    done (.sget cell w) 0x4C 0 (s.cells.putS cell w.dst.toNat (sgetValue cell (w.im 0 5) s)) ∧
    done (.amov cell w) 0x4D 0 (s.cells.putA cell w.dst.toNat (s.sReg cell w.sa.toNat)) ∧
    done (.aadd cell w) 0x4E 0
      (s.cells.putA cell w.dst.toNat ((s.aReg cell w.sa.toNat + scalarB cell w s) % 2 ^ 48)) ∧
    done (.atos cell w) 0x4F 0 (s.cells.putS cell w.dst.toNat (s.aReg cell w.sa.toNat))

/-- The mask opcodes; M0 discards what is written. -/
def Claim.MaskResults : Prop :=
  ∀ (cell : Nat) (w : CellWord) (s : State), s.cellReady cell = true →
    let a := s.mReg cell w.sa.toNat
    let b := s.mReg cell w.sb.toNat
    let done := fun (i : Instr) (opc : Nat) (c : Cells) =>
      Completes i s (fun t => Issued s t cell opc 1 0 0 c ∧ Frame s t [.cells] (seqFields cell) [])
    done (.mand cell w) 0x30 (s.cells.putM cell w.dst.toNat (a &&& b)) ∧
    done (.mor cell w) 0x31 (s.cells.putM cell w.dst.toNat (a ||| b)) ∧
    done (.mxor cell w) 0x32 (s.cells.putM cell w.dst.toNat (a ^^^ b)) ∧
    done (.mnot cell w) 0x33 (s.cells.putM cell w.dst.toNat (2 ^ 64 - 1 - a)) ∧
    done (.mshl cell w) 0x34 (s.cells.putM cell w.dst.toNat
      (maskShift (w.imm.toNat.testBit 6) (w.im 0 6) (w.imm.toNat.testBit 7) a)) ∧
    done (.mpop cell w) 0x35 (s.cells.putS cell w.dst.toNat (popCount 64 a)) ∧
    done (.mset cell w) 0x36 (s.cells.putM cell w.dst.toNat (s.sReg cell w.sa.toNat)) ∧
    done (.mget cell w) 0x37 (s.cells.putS cell w.dst.toNat a)

/-- The lanes that a vector opcode leaves in V[DST]: under the write mask, a masked lane keeps its value or is zero. -/
def maskedLanes (cell : Nat) (w : CellWord) (s : State) (new : List Nat) : Nat :=
  pack 32 (blend (s.mReg cell w.msk.toNat) w.mmode (s.lanes cell w.dst.toNat) new)

/-- Vector arithmetic: its opcode, the formats it has, and one element of it. -/
abbrev vectorTable : List ((Nat → CellWord → Instr) × Nat × List Nat × (Nat → Nat → Nat → Nat)) :=
  [(.vadd, 0x10, [0, 2, 3, 9], elemAdd), (.vmul, 0x11, [0, 2, 3, 9], elemMul), (.vmin, 0x13, [0, 9], elemMin),
   (.vmax, 0x14, [0, 9], elemMax)]

/-- VADD, VMUL, VMIN, VMAX and VFMA work element by element in FMT, or in FP32 with a clamp counted where FMT is none of
theirs. -/
def Claim.VectorArithmetic : Prop :=
  (∀ p ∈ vectorTable, ∀ (cell : Nat) (w : CellWord) (s : State), s.cellReady cell = true →
    Completes (p.1 cell w) s (fun t =>
      Issued s t cell p.2.1 1 0 (legalFmt w p.2.2.1).2 (s.cells.putV cell w.dst.toNat (maskedLanes cell w s
        (asLanes (legalFmt w p.2.2.1).1 (List.zipWith (p.2.2.2 (legalFmt w p.2.2.1).1)
          (srcA (legalFmt w p.2.2.1).1 cell w s) (srcB (legalFmt w p.2.2.1).1 cell w s))))) ∧
      Frame s t [.cells] (seqFields cell) [])) ∧
  ∀ (cell : Nat) (w : CellWord) (s : State), s.cellReady cell = true →
    let f := (legalFmt w [0, 2, 3]).1
    Completes (.vfma cell w) s (fun t =>
      Issued s t cell 0x12 1 0 (legalFmt w [0, 2, 3]).2 (s.cells.putV cell w.dst.toNat (maskedLanes cell w s
        (asLanes f (List.zipWith (fun a p => elemFma f a p.1 p.2) (srcA f cell w s)
          ((srcB f cell w s).zip (srcC f cell w s)))))) ∧
      Frame s t [.cells] (seqFields cell) [])

/-- The bitwise and shift opcodes on 32-bit lanes. -/
abbrev laneTable : List ((Nat → CellWord → Instr) × Nat × (Nat → Nat → Nat)) :=
  [(.vand, 0x20, fun a b => a &&& b), (.vor, 0x21, fun a b => a ||| b), (.vxor, 0x22, fun a b => a ^^^ b),
   (.vshl, 0x23, fun a b => (a <<< (b % 32)) % 2 ^ 32), (.vshr, 0x24, fun a b => a >>> (b % 32)),
   (.vsra, 0x25, fun a b => wrapInt 32 (sext 32 a >>> (b % 32)))]

/-- Lane by lane, a bitwise or shift opcode gives each lane that its write mask selects the operation's result, and each
other lane its old value, or zero under MMODE 1. -/
def Claim.BitwiseLanes : Prop :=
  ∀ p ∈ laneTable, ∀ (cell : Nat) (w : CellWord) (s : State), s.cellReady cell = true →
    Completes (p.1 cell w) s (fun t =>
      (∀ i, i < 64 → (t.lanes cell w.dst.toNat).getD i 0 =
        if (s.mReg cell w.msk.toNat).testBit i then
          p.2.2 ((s.lanes cell w.sa.toNat).getD i 0) ((laneB cell w s).getD i 0) % 2 ^ 32
        else if w.mmode then 0 else (s.lanes cell w.dst.toNat).getD i 0) ∧
      (∀ c r, c * 64 + r % 64 ≠ cell * 64 + w.dst.toNat % 64 → t.vReg c r = s.vReg c r) ∧
      Issued s t cell p.2.1 1 0 0 (s.cells.putV cell w.dst.toNat
        (maskedLanes cell w s (List.zipWith p.2.2 (s.lanes cell w.sa.toNat) (laneB cell w s)))) ∧
      Frame s t [.cells] (seqFields cell) [])

/-- VSEL, VLSH, VBCAST, VEXT and VINS. -/
def Claim.LaneMoves : Prop :=
  ∀ (cell : Nat) (w : CellWord) (s : State), s.cellReady cell = true →
    let done := fun (i : Instr) (opc : Nat) (c : Cells) =>
      Completes i s (fun t => Issued s t cell opc 1 0 0 c ∧ Frame s t [.cells] (seqFields cell) [])
    let a := s.lanes cell w.sa.toNat
    done (.vsel cell w) 0x16 (s.cells.putV cell w.dst.toNat (maskedLanes cell w s
      ((a.zip (laneB cell w s)).zipIdx.map (fun p => if (s.mReg cell w.sc.toNat).testBit p.2 then p.1.1 else p.1.2)))) ∧
    done (.vlsh cell w) 0x26 (s.cells.putV cell w.dst.toNat (maskedLanes cell w s
      (if w.imm.toNat.testBit 6 then a.drop (w.im 0 6) ++ List.replicate (min (w.im 0 6) 64) (s.sReg cell w.sb.toNat % 2 ^ 32)
       else (List.replicate (w.im 0 6) (s.sReg cell w.sb.toNat % 2 ^ 32) ++ a).take 64))) ∧
    done (.vbcast cell w) 0x27 (s.cells.putV cell w.dst.toNat (maskedLanes cell w s
      (List.replicate 64 (s.sReg cell w.sa.toNat % 2 ^ 32)))) ∧
    done (.vext cell w) 0x28 (s.cells.putS cell w.dst.toNat (bits (s.vReg cell w.sa.toNat) (32 * w.im 0 6) 32)) ∧
    done (.vins cell w) 0x29 (s.cells.putV cell w.dst.toNat
      (if (s.mReg cell w.msk.toNat).testBit (w.im 0 6) then
         putBits (s.vReg cell w.dst.toNat) (32 * w.im 0 6) 32 (s.sReg cell w.sa.toNat)
       else if w.mmode then putBits (s.vReg cell w.dst.toNat) (32 * w.im 0 6) 32 0 else s.vReg cell w.dst.toNat))

/-- VCMP writes mask bits under the write mask, VRED a scalar of the lanes that the write mask selects, and VCVT one part of
a register, counting the elements that had no integer value. -/
def Claim.CompareReduceConvert : Prop :=
  ∀ (cell : Nat) (w : CellWord) (s : State), s.cellReady cell = true →
    let m := s.mReg cell w.msk.toNat
    (let f := (legalFmt w [0, 9]).1
     let c := (legalCode (w.im 6 4) 10 0).1
     let new := pack 1 ((List.zipWith (elemCmp f c) (srcA f cell w s) (srcB f cell w s)).map b2n)
     let old := if w.mmode then 0 else s.mReg cell w.dst.toNat
     Completes (.vcmp cell w) s (fun t =>
       Issued s t cell 0x15 1 0 ((legalFmt w [0, 9]).2 + (legalCode (w.im 6 4) 10 0).2)
         (s.cells.putM cell w.dst.toNat ((new &&& m) ||| (old &&& (2 ^ 64 - 1 - m)))) ∧
       Frame s t [.cells] (seqFields cell) [])) ∧
    Completes (.vred cell w) s (fun t =>
      Issued s t cell 0x18 1 0 (legalCode (w.im 0 3) 5 0).2 (s.cells.putS cell w.dst.toNat
        (reduce (legalCode (w.im 0 3) 5 0).1 m (s.lanes cell w.sa.toNat))) ∧
      Frame s t [.cells] (seqFields cell) []) ∧
    (let sf := (legalFmt w [0, 2, 3, 4, 5, 6, 7, 8, 9, 10, 11, 15]).1
     let df := if [0, 2, 3, 4, 5, 9, 10, 11].contains (w.im 0 4) then w.im 0 4 else 0
     let sp := (legalPart (w.im 4 3) (fmtWidth sf)).1
     let rs := (List.range 64).map (fun i => encodeElem df
       (decodeElem sf (bits (s.vReg cell w.sa.toNat) (fmtWidth sf * (64 * sp + i)) (fmtWidth sf))))
     let bad := (rs.zipIdx.filter (fun p => p.1.2 && m.testBit p.2)).length
     Completes (.vcvt cell w) s (fun t =>
       t.vReg cell w.dst.toNat = (writePart (s.vReg cell w.dst.toNat) (fmtWidth df)
         (legalPart (w.im 7 3) (fmtWidth df)).1 m w.mmode (rs.map Prod.fst)) % 2 ^ 2048 ∧
       t.get .CELL_SEQ_FLAGS_CVT_INVALID cell = (if bad = 0 then s.get .CELL_SEQ_FLAGS_CVT_INVALID cell else 1) ∧
       t.get .CELL_SEQ_STATUS_PC cell = (settle (s.get .CELL_SEQ_STATUS_PC cell + 1) (s.loopsOf cell)).1 ∧
       Frame s t [.cells] (seqFields cell ++ [(.CELL_SEQ_FLAGS_CVT_INVALID, cell), (.CELL_SEQ_FLAGS_CVT_COUNT, cell)]) []))

/-- The macro-operations: each counts as one macro and as its expansion's native instructions (for MXENC a number that the
spec does not give), and ignores the write mask. -/
def Obligations.MacroOperations : Prop :=
  ∀ (cell : Nat) (w : CellWord) (s : State), s.cellReady cell = true →
    let done := fun (i : Instr) (opc n k : Nat) (c : Cells) =>
      Completes i s (fun t => Issued s t cell opc n 1 k c ∧ Frame s t [.cells] (seqFields cell) [])
    let a := s.lanes cell w.sa.toNat
    let carry := if w.sc.toNat % 32 = 0 then none else some (s.sReg cell w.sc.toNat % 2 ^ 32)
    let lanes := fun (f : Nat → Nat) => s.cells.putV cell w.dst.toNat (pack 32 (a.map f))
    (let v := scanLanes (w.im 0 2) none carry a
     done (.scan cell w) 0x80 (if w.sc.toNat % 32 = 0 then 12 else 15) 0
       ((s.cells.putV cell w.dst.toNat (pack 32 v)).putS cell w.sc.toNat (v.getD 63 0))) ∧
    (let v := scanLanes (w.im 0 2) (some (s.mReg cell w.sb.toNat)) carry a
     done (.segscan cell w) 0x81 (if w.sc.toNat % 32 = 0 then 28 else 32) 0
       ((s.cells.putV cell w.dst.toNat (pack 32 v)).putS cell w.sc.toNat (v.getD 63 0))) ∧
    done (.exp2 cell w) 0x82 23 0 (lanes exp2Lane) ∧ done (.log2 cell w) 0x83 38 0 (lanes log2Lane) ∧
    done (.rcp cell w) 0x84 22 0 (lanes rcpLane) ∧ done (.rsqrt cell w) 0x85 27 0 (lanes rsqrtLane) ∧
    (let even := fun (r : BitVec 6) => r.toNat / 2 * 2
     let pair := fun (r : Nat) => (s.lanes cell r).zip (s.lanes cell (r + 1))
     let rs := List.zipWith fp32cAdd (pair (even w.sa)) (pair (even w.sb))
     done (.cadd cell w) 0x86 18 (w.dst.toNat % 2 + w.sa.toNat % 2 + w.sb.toNat % 2)
       ((s.cells.putV cell (even w.dst) (pack 32 (rs.map Prod.fst))).putV cell (even w.dst + 1) (pack 32 (rs.map Prod.snd)))) ∧
    (let legal := [4, 5, 6, 7, 8].contains w.fmt.toNat
     let f := if legal then w.fmt.toNat else 4
     let xs := a.map fdec
     let lo := mxEncode f (xs.take 32)
     let hi := mxEncode f (xs.drop 32)
     let part := legalPart (w.im 0 3) (fmtWidth f)
     done (.mxenc cell w) 0x87 Config.mxencCount ((if legal then 0 else 1) + part.2)
       ((s.cells.putV cell w.dst.toNat
         (writePart (s.vReg cell w.dst.toNat) (fmtWidth f) part.1 (2 ^ 64 - 1) false (lo.2 ++ hi.2))).putS cell w.sc.toNat
           (lo.1 + 256 * hi.1)))

/-- Scalar, address and mask opcodes write their result, and only it and the sequencer's fields change. -/
def Obligations.ScalarAndMaskResults : Prop := Claim.ScalarArithmetic ∧ Claim.ScalarMovesAndAddresses ∧ Claim.MaskResults

/-- Vector arithmetic, compare, reduce and convert write their results under the write mask. -/
def Obligations.VectorResults : Prop := Claim.VectorArithmetic ∧ Claim.CompareReduceConvert

/-- Bitwise, shift and lane-moving opcodes give each selected lane its result and keep or zero the others. -/
def Obligations.LaneResults : Prop := Claim.BitwiseLanes ∧ Claim.LaneMoves
/-! Cell instructions that reach the Tarn, the queues, the array, the stash and the weight streams. -/

/-- The runs of 4 B that active lanes name, and whether all lie in the cell's Tarn. -/
def laneRuns (cell : Nat) (w : CellWord) (s : State) (offs : List Nat) : List (Nat × Nat) :=
  (activeLanes (s.mReg cell w.msk.toNat) offs).map (fun p => (p.2, 4))
def lanesInside (cell : Nat) (w : CellWord) (s : State) (offs : List Nat) : Bool :=
  (laneRuns cell w s offs).all (fun r => decide (r.1 + r.2 ≤ 0x180000))

/-- VLD, VGATH and SLD read the cell's Tarn while no weight-stream slot they read is still filling: each active lane takes its
4 B and the scalar its 8 B, and canonical NaN stands for a line without data. Memory stays as it is; where no error stands in
memory, nothing else changes. Choices of the model in it: assumptions 10, 88. -/
def Claim.LoadsReadTheTarn : Prop :=
  ∀ (cell : Nat) (w : CellWord) (s : State), s.cellReady cell = true →
    let loads := fun (i : Instr) (opc : Nat) (c : Cells) => Completes i s (fun t =>
      Issued s t cell opc 1 0 0 c ∧ t.mem = s.mem ∧ (s.unitErr = [] → Frame s t [.cells] (seqFields cell) []))
    let lanes := fun (i : Instr) (opc : Nat) (offs : List Nat) => lanesInside cell w s offs = true →
      s.streamsHeld cell (laneRuns cell w s offs) = 0 →
      loads i opc (s.cells.putV cell w.dst.toNat (maskedLanes cell w s (offs.map (s.laneAt cell))))
    let o := effAddr cell w 8 s
    lanes (.vld cell w) 0x50 (vecOffs w cell s) ∧ lanes (.vgath cell w) 0x54 (gatherAddrs cell w s) ∧
    (o + 8 ≤ 0x180000 → s.streamsHeld cell [(o, 8)] = 0 → loads (.sld cell w) 0x52 (s.cells.putS cell w.dst.toNat
      (if s.lineBad (cellTarn cell o) then 0x7FC000007FC00000 else s.leAt (cellTarn cell o) 8)))

/-- Lanes that a store writes, each with its offset: those of a dropped micro-batch that fall into the stash are not
written. -/
def storedLanes (cell : Nat) (w : CellWord) (s : State) (offs : List Nat) : List (Nat × Nat) :=
  (activeLanes (s.mReg cell w.msk.toNat) offs).filter (fun p => !s.stashWrite cell p.2)

/-- Memory after lanes are stored one after the other in ascending order: the highest one stands. -/
def memStored (cell : Nat) (w : CellWord) (s : State) (offs : List Nat) : List Host.Cell :=
  (storedLanes cell w s offs).foldl
    (fun m p => putBytes m (cellTarn cell p.2) (leBytes 4 ((s.lanes cell w.sc.toNat).getD p.1 0))) s.mem

/-- VST, VSCAT and SST write the cell's Tarn at the addresses their rule computes, and no other byte; a dropped micro-batch
writes nothing into the stash. Choices of the model in it: assumptions 13, 88. -/
def Claim.StoresWriteTheTarn : Prop :=
  ∀ (cell : Nat) (w : CellWord) (s : State), s.cellReady cell = true →
    let stores := fun (i : Instr) (opc : Nat) (post : State → Prop) => Completes i s (fun t =>
      post t ∧ Issued s t cell opc 1 0 0 s.cells ∧
      (s.unitErr = [] → Frame s t [.cells, .mem] (seqFields cell) []))
    let lanes := fun (i : Instr) (opc : Nat) (offs : List Nat) => lanesInside cell w s offs = true → stores i opc (fun t =>
      t.mem = memStored cell w s offs ∧
      (∀ b, (∀ p ∈ storedLanes cell w s offs, ∀ k, k < 4 → canonDpa b ≠ cellTarn cell (p.2 + k)) →
        t.byteAt b = s.byteAt b))
    let o := effAddr cell w 8 s
    lanes (.vst cell w) 0x51 (vecOffs w cell s) ∧ lanes (.vscat cell w) 0x55 (gatherAddrs cell w s) ∧
    (o + 8 ≤ 0x180000 → s.stashWrite cell o = false →
      stores (.sst cell w) 0x53 (fun t => Wrote s t (cellTarn cell o) (leBytes 8 (s.sReg cell w.sc.toNat)))) ∧
    (o + 8 ≤ 0x180000 → s.stashWrite cell o = true → stores (.sst cell w) 0x53 (fun t => t.mem = s.mem))

/-- A sequencer stops with a trap while the beat timer runs: the trap registers hold the cause, the PC and the instruction,
the controller's fault is pending, and the instruction has had no effect. -/
structure Trapped (s t : State) (cell cause code detail pc insn : Nat) : Prop where
  state  : t.get .CELL_SEQ_STATUS_STATE cell = 3
  cause  : t.get .CELL_TRAP_CAUSE cell = cause
  code   : t.get .CELL_TRAP_CODE cell = code
  pc     : t.get .CELL_TRAP_PC cell = pc % 2 ^ 15
  insn   : t.get .CELL_TRAP_INSN_INSN cell = insn % 2 ^ 64
  detail : t.get .CELL_TRAP_ADDR_DETAIL cell = detail % 2 ^ 48
  fault  : t.var .faultPending = 1
  cells  : t.cells = { s.cells with held := Sparse.set none s.cells.held cell none }
  others : Frame s t [.cells, .logs]
    ([(.CELL_SEQ_STATUS_STATE, cell), (.CELL_SEQ_STATUS_HOLD_REASON, cell), (.CELL_TRAP_CAUSE, cell),
      (.CELL_TRAP_CODE, cell), (.CELL_TRAP_PC, cell), (.CELL_TRAP_BEAT, cell), (.CELL_TRAP_INSN_INSN, cell),
      (.CELL_TRAP_ADDR_DETAIL, cell)]) [(.faultPending, 0), (.faultKinds, 0)]

/-- A load or store with an active byte at or beyond the Tarn's end traps ADDRESS with the first such offset and has no
effect. Choices of the model in it: assumptions 88, 89. -/
def Claim.AccessBeyondTarnTraps : Prop :=
  ∀ (cell : Nat) (w : CellWord) (s : State) (bad : Nat), s.cellReady cell = true → s.running = true →
    let pc := s.get .CELL_SEQ_STATUS_PC cell
    let lanes := fun (i : Instr) (opc : Nat) (offs : List Nat) =>
      (activeLanes (s.mReg cell w.msk.toNat) offs).findSome? (fun p => firstBeyond p.2 4) = some bad →
      Completes i s (fun t => Trapped s t cell 2 0 bad pc (w.word opc))
    let scalar := fun (i : Instr) (opc : Nat) => firstBeyond (effAddr cell w 8 s) 8 = some bad →
      Completes i s (fun t => Trapped s t cell 2 0 bad pc (w.word opc))
    lanes (.vld cell w) 0x50 (vecOffs w cell s) ∧ lanes (.vst cell w) 0x51 (vecOffs w cell s) ∧
    lanes (.vgath cell w) 0x54 (gatherAddrs cell w s) ∧ lanes (.vscat cell w) 0x55 (gatherAddrs cell w s) ∧
    scalar (.sld cell w) 0x52 ∧ scalar (.sst cell w) 0x53

/-- An instruction holds for a reason of CELL_SEQ_STATUS: it waits in the sequencer, and the clk it holds count from the
next one on. `streams` has a bit for each stream it waits for. -/
structure Held (s t : State) (cell opc reason streams : Nat) (w : CellWord) (counted : List (Fld × Nat)) : Prop where
  state  : t.get .CELL_SEQ_STATUS_STATE cell = 2
  reason : t.get .CELL_SEQ_STATUS_HOLD_REASON cell = reason
  cells  : t.cells = { s.cells with held := Sparse.set none s.cells.held cell (some (opc, w)) }
  since  : t.var .heldAt cell = s.var .clk + 1
  seen   : t.var .heldSeen cell = 0
  waits  : streams ≠ 0 → t.var .heldFor cell = streams
  others : Frame s t [.cells]
    ([(.CELL_SEQ_STATUS_STATE, cell), (.CELL_SEQ_STATUS_HOLD_REASON, cell)] ++ counted)
    ([(.heldAt, cell), (.heldSeen, cell)] ++ if streams = 0 then [] else [(.heldFor, cell)])

/-- The lanes of the oldest token of a queue: read from the consumer's Tarn where it is kept there. -/
def oldestLanes (s : State) (q : Nat) (tok : Token) : List Nat :=
  match s.oldestAddr q with | some a => s.tokenLanes a | none => unpack 32 64 tok.toNat

/-- QSEND sends V[SA] as a token on a credit, QRECV takes the oldest token into V[DST] and returns its credit, QPROBE reads
a queue's credits and occupancy; without a credit or a token, the non-blocking forms write 0 and the others hold. On a
queue marked SUPPRESS_ON_DROP a dropped slice's send sends nothing and its receive gives zeros. An index without a route
traps QUEUE_INDEX. Choices of the model in it: assumption 87. -/
def Obligations.QueueInstructions : Prop :=
  ∀ (cell : Nat) (w : CellWord) (s : State), s.cellReady cell = true →
    let nb := w.imm.toNat.testBit 5
    let done := fun (i : Instr) (opc : Nat) (c : Cells) (post : State → Prop) =>
      Completes i s (fun t => Issued s t cell opc 1 0 0 c ∧ post t)
    let quiet := fun (t : State) => Frame s t [.cells] (seqFields cell) []
    let holds := fun (i : Instr) (opc reason : Nat) => Completes i s (fun t => Held s t cell opc reason 0 w [])
    let traps := fun (i : Instr) (opc idx : Nat) => s.running = true → Completes i s (fun t =>
      Trapped s t cell 5 0 idx (s.get .CELL_SEQ_STATUS_PC cell) (w.word opc))
    let moves := fun (t : State) (q : Nat) (o : QOp) =>
      ∀ n, t.queue n = if n = q then (s.queue n).apply o else s.queue n
    (∀ r, s.route cell 0 (w.im 0 5) = some r →
      let q := (routeQueue r).1
      let supp := (routeQueue r).2 && s.dropped cell
      (supp = true → done (.qsend cell w) 0x60 (s.cells.putS cell w.sc.toNat 1) quiet) ∧
      (supp = false → s.maySend q = true → s.consKind q ≠ 5 →
        done (.qsend cell w) 0x60 (s.cells.putS cell w.sc.toNat 1) (fun t =>
          moves t q (.send (BitVec.ofNat 2048 (s.vReg cell w.sa.toNat))) ∧
          (s.kvAsker q = none → t.slices = s.slices) ∧ Frame s t [.cells, .queues, .slices] (seqFields cell) [])) ∧
      (supp = false → s.maySend q = true → s.consKind q = 5 →
        done (.qsend cell w) 0x60 (s.cells.putS cell w.sc.toNat 1) (fun t => moves t q .sendOut)) ∧
      (supp = false → s.maySend q = false → nb = true →
        done (.qsend cell w) 0x60 (s.cells.putS cell w.sc.toNat 0) quiet) ∧
      (supp = false → s.maySend q = false → nb = false → holds (.qsend cell w) 0x60 1)) ∧
    (∀ r, s.route cell 1 (w.im 0 5) = some r →
      let q := (routeQueue r).1
      let supp := (routeQueue r).2 && s.dropped cell
      (supp = true → done (.qrecv cell w) 0x61 ((s.cells.putV cell w.dst.toNat
        (maskedLanes cell w s (List.replicate 64 0))).putS cell w.sc.toNat 1) quiet) ∧
      (∀ tok rest, (s.queue q).buf = tok :: rest → supp = false →
        done (.qrecv cell w) 0x61 ((s.cells.putV cell w.dst.toNat
          (maskedLanes cell w s (oldestLanes s q tok))).putS cell w.sc.toNat 1) (fun t =>
          moves t q (if s.prodKind q = 5 then .deqOut else .deq) ∧
          t.var .qReport q = s.var .qReport q + (if s.prodKind q = 5 then 1 else 0) ∧
          (s.unitErr = [] → Frame s t [.cells, .queues] (seqFields cell) [(.qReport, q)]))) ∧
      (supp = false → (s.queue q).buf = [] → nb = true →
        done (.qrecv cell w) 0x61 (s.cells.putS cell w.sc.toNat 0) quiet) ∧
      (supp = false → (s.queue q).buf = [] → nb = false → holds (.qrecv cell w) 0x61 2)) ∧
    (∀ r, s.route cell (b2n nb) (w.im 0 5) = some r →
      done (.qprobe cell w) 0x62 (s.cells.putS cell w.dst.toNat ((s.queue (routeQueue r).1).credits % 512 +
        (s.queue (routeQueue r).1).buf.length % 512 * 512)) quiet) ∧
    (s.route cell 0 (w.im 0 5) = none → traps (.qsend cell w) 0x60 (w.im 0 5)) ∧
    (s.route cell 1 (w.im 0 5) = none → traps (.qrecv cell w) 0x61 (w.im 0 5 + 32)) ∧
    (s.route cell (b2n nb) (w.im 0 5) = none → traps (.qprobe cell w) 0x62 (w.im 0 5 + 32 * b2n nb))

/-- An instruction that cannot go on yet holds with the reason CELL_SEQ_STATUS gives, and nothing else changes: a load of a
stream slot that is not READY and an operation that reads one, AWAIT with operations outstanding, WFILL into a slot that is
not EMPTY or from a fetch buffer in use, XGET of a spilled block, XSTA that must spill one, FENCE behind a fill, and BWAIT
before its clk. Choices of the model in it: assumptions 14, 88, 91. -/
def Obligations.HoldingInstructions : Prop :=
  ∀ (cell : Nat) (w : CellWord) (s : State), s.cellReady cell = true →
    let holds := fun (i : Instr) (opc reason streams : Nat) =>
      Completes i s (fun t => Held s t cell opc reason streams w [])
    let lanes := fun (i : Instr) (opc : Nat) (offs : List Nat) =>
      let m := s.streamsHeld cell (laneRuns cell w s offs)
      lanesInside cell w s offs = true → m ≠ 0 → holds i opc 4 m
    let k := w.im 0 4
    let j := w.im 4 3
    lanes (.vld cell w) 0x50 (vecOffs w cell s) ∧ lanes (.vgath cell w) 0x54 (gatherAddrs cell w s) ∧
    (let m := s.streamsHeld cell [(effAddr cell w 8 s, 8)]
     effAddr cell w 8 s + 8 ≤ 0x180000 → m ≠ 0 → holds (.sld cell w) 0x52 4 m) ∧
    (let off := wrapInt 48 ((s.aReg cell w.sa.toNat : Int) + w.simm 23) / 64 * 64
     let d := s.clampDesc cell (rawDesc (s.leAt (cellTarn cell off) 64))
     let m := s.streamsHeld cell d.reads
     beyondTarn (off, 64) = false → s.lineBad (cellTarn cell off) = false →
      (d.reads ++ d.writes).any beyondTarn = false → m ≠ 0 → holds (.aop cell w) 0x68 4 m) ∧
    (s.aopsOf cell ≠ [] → holds (.await cell w) 0x69 6 0) ∧
    (∀ r, s.streamRec k = some r → j < recGet r 1 1 →
      s.slotState k j = 2 ∨ (s.slotState k j = 1 ∧ s.sReg cell w.sa.toNat = 0) → holds (.wfill cell w) 0x6A 4 (2 ^ k)) ∧
    (∀ r, s.streamRec k = some r → j < recGet r 1 1 → s.slotState k j = 0 →
      s.fillBlocked r ((s.img.layersOf r).getD (layerOfFill (recGet r 4 2) (s.var .streamPos k)) 0)
        (s.sReg cell w.sa.toNat) (s.sReg cell w.sb.toNat) = true → holds (.wfill cell w) 0x6A 4 (2 ^ k)) ∧
    (∀ b, s.stashBlk cell (s.curSlot cell) (w.im 0 16) = some b → b.spilled = true → holds (.xget cell w) 0x59 5 0) ∧
    (∀ h, s.freeH (cellDie cell) = some h → ∀ b, s.oldestBlk cell = some b →
      s.stashBlk cell (s.curSlot cell) (w.im 0 16) = none → s.var .mbRecompute (cell * 16 + s.curSlot cell) = 0 →
      s.freeT cell = none →
      Completes (.xsta cell w) s (fun t => Held s t cell 0x58 5 0 w [(.TIER_CLASS_EVENTS_FULL, cell)] ∧
        t.get .TIER_CLASS_EVENTS_FULL cell =
          satAdd Fld.TIER_CLASS_EVENTS_FULL.width (s.get .TIER_CLASS_EVENTS_FULL cell) 1)) ∧
    (∀ f ∈ s.cells.fills, f.cell = cell → holds (.fence cell w) 0x76 6 0) ∧
    (s.get .BEAT_STATUS_PHASE < w.im 0 13 → holds (.bwait cell w) 0x77 7 0)

/-- The cell's running slice has one operation more to see complete. -/
def oneMoreOp (cell : Nat) (l : List Slice) : List Slice :=
  mapFirst (fun y => y.kind == 0 && y.index == cell && y.st == 1) (fun y => { y with ops := y.ops + 1 }) l

/-- AOP of a descriptor whose bytes all lie in the Tarn joins the cell's operations, and one whose line gives no data joins
them without a size; bytes beyond the Tarn end the operation with status 3 and trap ARRAY_ADDRESS. AWAIT with none
outstanding writes the tag and status of the last one retired. Choices of the model in it: assumption 93. -/
def Claim.ArrayInstructions : Prop :=
  ∀ (cell : Nat) (w : CellWord) (s : State), s.cellReady cell = true →
    let off := wrapInt 48 ((s.aReg cell w.sa.toNat : Int) + w.simm 23) / 64 * 64
    let raw := s.leAt (cellTarn cell off) 64
    let d := s.clampDesc cell (rawDesc raw)
    let lost := s.lineBad (cellTarn cell off)
    let joins := fun (o : ArrOp) => Completes (.aop cell w) s (fun t =>
      Issued s t cell 0x68 1 0 0 { s.cells with aops := Sparse.set [] s.cells.aops cell (s.aopsOf cell ++ [o]) } ∧
      t.slices = oneMoreOp cell s.slices ∧ t.mem = s.mem ∧
      (s.lineOutcome (cellTarn cell off) = 0 → Frame s t [.cells, .slices]
        (seqFields cell ++ [(.CELL_ARRAY_STATUS_BUSY, cell), (.CELL_ARRAY_STATUS_WAITING, cell)]) []))
    let traps := Completes (.aop cell w) s (fun t =>
      t.get .CELL_SEQ_STATUS_STATE cell = 3 ∧ t.get .CELL_TRAP_CAUSE cell = 8 ∧
      t.get .CELL_TRAP_PC cell = s.get .CELL_SEQ_STATUS_PC cell % 2 ^ 15 ∧ t.get .CELL_TRAP_ADDR_DETAIL cell = off % 2 ^ 48 ∧
      t.get .CELL_SEQ_STATUS_PC cell = (settle (s.get .CELL_SEQ_STATUS_PC cell + 1) (s.loopsOf cell)).1 ∧
      t.get .CELL_ARRAY_STATUS_LAST_STATUS cell = 3 ∧ t.get .CELL_ARRAY_STATUS_LAST_MODE cell = 0 ∧
      t.get .CELL_ARRAY_STATUS_LAST_PATH cell = 3 ∧
      t.get .CELL_ARRAY_STATUS_LAST_DESC cell = off % 2 ^ Fld.CELL_ARRAY_STATUS_LAST_DESC.width ∧
      t.get .CELL_ARRAY_OPS_RETIRED cell =
        satAdd Fld.CELL_ARRAY_OPS_RETIRED.width (s.get .CELL_ARRAY_OPS_RETIRED cell) 1 ∧ t.mem = s.mem)
    (beyondTarn (off, 64) = false → lost = false → (d.reads ++ d.writes).any beyondTarn = false →
      s.streamsHeld cell d.reads = 0 →
      joins ⟨off, raw, (recGet raw 0 2 != 0 && recGet raw 2 2 != 0) && (s.aopsOf cell).all ArrOp.empty,
        s.dropped cell, false⟩) ∧
    (beyondTarn (off, 64) = false → lost = true → joins ⟨off, 0, false, s.dropped cell, true⟩) ∧
    (beyondTarn (off, 64) = true ∨ (lost = false ∧ (d.reads ++ d.writes).any beyondTarn = true) → traps) ∧
    (s.aopsOf cell = [] → Completes (.await cell w) s (fun t =>
      Issued s t cell 0x69 1 0 0 (s.cells.putS cell w.dst.toNat (s.var .lastAopTag cell)) ∧
      Frame s t [.cells] (seqFields cell) []))

/-- WFILL into an EMPTY slot begins a fill of the stream's next layer and makes the slot FILLING, and a later part goes on
in the slot it fills; WREL marks its slot for release. A stream or slot that the image does not have is passed over.
Choices of the model in it: assumptions 14, 101. -/
def Claim.StreamInstructions : Prop :=
  ∀ (cell : Nat) (w : CellWord) (s : State), s.cellReady cell = true →
    let k := w.im 0 4
    let j := w.im 4 3
    let lo := s.sReg cell w.sa.toNat
    let len := s.sReg cell w.sb.toNat
    let passes := fun (i : Instr) (opc : Nat) => Completes i s (fun t =>
      Issued s t cell opc 1 0 0 s.cells ∧ Frame s t [.cells] (seqFields cell) [])
    let fills := fun (r layer : Nat) (post : State → Prop) (fs : List (Fld × Nat)) (vs : List (Var × Nat)) =>
      let f : Fill := ⟨cell, k, j, lo, len, s.fillSrc r layer, s.fillBad r layer⟩
      s.fillBlocked r layer lo len = false → Completes (.wfill cell w) s (fun t =>
        Issued s t cell 0x6A 1 0 0 { s.cells with fills := s.cells.fills ++ [f] } ∧
        t.slices = oneMoreOp cell s.slices ∧ post t ∧ Frame s t [.cells, .slices] (seqFields cell ++ fs) vs)
    (∀ r, s.streamRec k = some r → j < recGet r 1 1 →
      let n := layerOfFill (recGet r 4 2) (s.var .streamPos k)
      (s.slotState k j = 0 → fills r ((s.img.layersOf r).getD n 0) (fun t =>
        t.slotState k j = 1 ∧ t.var .slotLayer (k * 8 + j) = n ∧ t.var .slotFilled (k * 8 + j) = 0 ∧
        t.var .streamPos k = s.var .streamPos k + 1) [(.TIER_STREAM_READY, k), (.TIER_STREAM_FILLING, k)]
        [(.slotLayer, k * 8 + j), (.slotFilled, k * 8 + j), (.streamPos, k)]) ∧
      (s.slotState k j = 1 → 0 < lo →
        fills r ((s.img.layersOf r).getD (s.var .slotLayer (k * 8 + j)) 0) (fun _ => True) [] [])) ∧
    (∀ r, s.streamRec k = some r → recGet r 1 1 ≤ j → passes (.wfill cell w) 0x6A) ∧
    (s.streamRec k = none → passes (.wfill cell w) 0x6A ∧ passes (.wrel cell w) 0x6B) ∧
    ((s.streamRec k).isSome = true → Completes (.wrel cell w) s (fun t =>
      t.var .slotRelease (k * 8 + j) = 1 ∧ Issued s t cell 0x6B 1 0 0 s.cells ∧
      Frame s t [.cells] (seqFields cell) [(.slotRelease, k * 8 + j)]))

/-- XGET of a resident block gives its offset, XSTA of a new one the offset of a free frame, and XFREE drops a block. With no
frame in the Tarn or in HBM, XSTA gives 0xFFFFFFFF, counts FULL of both and marks the micro-batch to be dropped; so does,
without a mark, recompute mode outside a recompute point. Choices of the model in it: assumptions 13, 91. -/
def Claim.StashInstructions : Prop :=
  ∀ (cell : Nat) (w : CellWord) (s : State), s.cellReady cell = true →
    let tag := w.im 0 16
    let slot := s.curSlot cell
    let die := 256 + cellDie cell
    let writes := fun (i : Instr) (opc v : Nat) => Completes i s (fun t =>
      Issued s t cell opc 1 0 0 (s.cells.putS cell w.dst.toNat v) ∧ Frame s t [.cells] (seqFields cell) [])
    (s.stashBlk cell slot tag = none → writes (.xget cell w) 0x59 0xFFFFFFFF) ∧
    (∀ b, s.stashBlk cell slot tag = some b → b.spilled = false →
      writes (.xget cell w) 0x59 (s.stashOff cell b.frame) ∧ writes (.xsta cell w) 0x58 (s.stashOff cell b.frame)) ∧
    (∀ f, s.freeT cell = some f → s.stashBlk cell slot tag = none → s.var .mbRecompute (cell * 16 + slot) = 0 →
      Completes (.xsta cell w) s (fun t =>
        (∃ b ∈ t.cells.stash, b.cell = cell ∧ b.slot = slot ∧ b.tag = tag ∧ b.frame = f ∧ b.spilled = false) ∧
        (w.dst.toNat % 32 ≠ 0 → t.sReg cell w.dst.toNat = s.stashOff cell f % 2 ^ 64) ∧
        Frame s t [.cells] (seqFields cell) [])) ∧
    (s.stashBlk cell slot tag = none → s.var .mbRecompute (cell * 16 + slot) = 1 → tag.testBit 15 = false →
      writes (.xsta cell w) 0x58 0xFFFFFFFF) ∧
    (s.stashBlk cell slot tag = none → s.freeT cell = none → s.freeH (cellDie cell) = none → tag.testBit 15 = true →
      slot < 8 → Completes (.xsta cell w) s (fun t =>
        Issued s t cell 0x58 1 0 0 (s.cells.putS cell w.dst.toNat 0xFFFFFFFF) ∧
        t.var .mbDropNext slot = 1 + cellDie cell ∧
        (∀ i, i = cell ∨ i = die → t.get .TIER_CLASS_EVENTS_FULL i =
          satAdd Fld.TIER_CLASS_EVENTS_FULL.width (s.get .TIER_CLASS_EVENTS_FULL i) 1) ∧ t.mem = s.mem)) ∧
    Completes (.xfree cell w) s (fun t =>
      (∀ b, b ∈ t.cells.stash ↔ b ∈ s.cells.stash ∧ ¬(b.cell = cell ∧ b.slot = slot ∧ b.tag = tag)) ∧
      Frame s t [.cells] (seqFields cell) [])

/-- Loads read the cell's Tarn, and stores write the bytes their rule computes and no other. -/
def Obligations.TarnLoadsAndStores : Prop := Claim.LoadsReadTheTarn ∧ Claim.StoresWriteTheTarn

/-- AOP, AWAIT, WFILL, WREL and the stash instructions have their effect on operations, slots and blocks. -/
def Obligations.ArrayStreamsAndStash : Prop := Claim.ArrayInstructions ∧ Claim.StreamInstructions ∧ Claim.StashInstructions
/-! The sequencer's control flow, its traps and its slices. -/

/-- NOP, and FENCE and BWAIT once what they wait for has come, only move on. A branch whose condition holds takes its target
within the program, ending the loops that do not hold it; one whose condition fails falls through. LOOP opens a loop. -/
def Obligations.ControlFlow : Prop :=
  ∀ (cell : Nat) (w : CellWord) (s : State), s.cellReady cell = true →
    let pc := s.get .CELL_SEQ_STATUS_PC cell
    let falls := fun (i : Instr) (opc k : Nat) => Completes i s (fun t =>
      Issued s t cell opc 1 0 k s.cells ∧ Frame s t [.cells] (seqFields cell) [])
    let jumps := fun (i : Instr) (target : Int) => 0 ≤ target → target < (s.get .CELL_SEQ_PROG_LENGTH cell : Int) →
      target < 32768 → Completes i s (fun t =>
        t.get .CELL_SEQ_STATUS_PC cell = target.toNat ∧
        t.cells = s.cells.putLoops cell (keepLoops target.toNat (s.loopsOf cell)) ∧
        Frame s t [.cells] (seqFields cell) [])
    let v := s.sReg cell w.sa.toNat
    let m := s.mReg cell w.sa.toNat
    let cond := (legalCode (w.im 19 4) 4 0).1
    let taken := (cond = 0 ∧ v = 0) ∨ (cond = 1 ∧ v ≠ 0) ∨ (cond = 2 ∧ sext 64 v < 0) ∨ (cond = 3 ∧ 0 ≤ sext 64 v)
    let mtaken := (w.im 21 2 = 0 ∧ m ≠ 0) ∨ (w.im 21 2 = 1 ∧ m = 0) ∨ (w.im 21 2 = 2 ∧ m = 2 ^ 64 - 1) ∨
      (w.im 21 2 = 3 ∧ m ≠ 2 ^ 64 - 1)
    falls (.nop cell w) 0x70 0 ∧
    (s.cells.fills = [] → falls (.fence cell w) 0x76 0) ∧
    (w.im 0 13 ≤ s.get .BEAT_STATUS_PHASE → falls (.bwait cell w) 0x77 0) ∧
    jumps (.br cell w) ((pc : Int) + w.simm 23) ∧
    (taken → jumps (.brc cell w) ((pc : Int) + w.simm 19)) ∧
    (¬taken → falls (.brc cell w) 0x72 (legalCode (w.im 19 4) 4 0).2) ∧
    (mtaken → jumps (.brm cell w) ((pc : Int) + w.simm 21)) ∧
    (¬mtaken → falls (.brm cell w) 0x73 0) ∧
    (let body := if w.im 0 12 = 0 then 1 else w.im 0 12
     let n := if w.sa.toNat % 32 = 0 then w.im 12 11 else v
     n ≠ 0 → (s.loopsOf cell).length < 4 → pc + 1 < 32768 → Completes (.loop cell w) s (fun t =>
       t.get .CELL_SEQ_STATUS_PC cell = pc + 1 ∧
       t.cells = s.cells.putLoops cell (⟨body, n, pc + 1, 0⟩ :: s.loopsOf cell) ∧
       Frame s t [.cells] (seqFields cell) []))

/-- An opcode that no table defines traps ILLEGAL; TRAP traps SOFTWARE with its code; a fifth LOOP traps LOOP_DEPTH; a branch
out of the program traps PC_RANGE with its target. Choices of the model in it: assumption 90. -/
def Claim.TrappingInstructions : Prop :=
  ∀ (cell : Nat) (w : CellWord) (s : State), s.cellReady cell = true → s.running = true →
    let pc := s.get .CELL_SEQ_STATUS_PC cell
    (∀ opc, opc < 256 → definedOpc opc = false →
      Completes (.undefinedOpcode cell opc w) s (fun t => Trapped s t cell 1 0 0 pc (w.word opc))) ∧
    Completes (.trap cell w) s (fun t => Trapped s t cell 7 (w.im 0 8) 0 pc (w.word 0x78)) ∧
    (4 ≤ (s.loopsOf cell).length →
      Completes (.loop cell w) s (fun t => Trapped s t cell 6 0 0 pc (w.word 0x74))) ∧
    (let target := (pc : Int) + w.simm 23
     target < 0 ∨ (s.get .CELL_SEQ_PROG_LENGTH cell : Int) ≤ target →
       Completes (.br cell w) s (fun t => Trapped s t cell 4 0 (wrapInt 48 target) pc (w.word 0x71)))

/-- A sequencer that has run past the last instruction of its program traps PC_RANGE instead of issuing, whatever native
vector, scalar or control instruction stands there. Choices of the model in it: assumption 90. -/
def Claim.PastProgramTraps : Prop :=
  ∀ (cell : Nat) (w : CellWord) (s : State), cell < 144 → s.get .CELL_SEQ_STATUS_STATE cell = 1 →
    s.get .CELL_SEQ_PROG_LENGTH cell ≤ s.get .CELL_SEQ_STATUS_PC cell → s.running = true →
    let pc := s.get .CELL_SEQ_STATUS_PC cell
    ∀ p ∈ [((.vadd cell w : Instr), 0x10), (.vand cell w, 0x20), (.mand cell w, 0x30), (.sadd cell w, 0x40),
        (.vld cell w, 0x50), (.qsend cell w, 0x60), (.nop cell w, 0x70), (.slend cell w, 0x75)],
      Completes p.1 s (fun t => Trapped s t cell 4 0 pc pc (w.word p.2))

/-- SLEND ends the cell's slice, whose work then only has to complete, and no loop survives it. The next listed slice begins
at its target; with none, or while no slice may issue, the sequencer idles. -/
def Claim.SliceEnds : Prop :=
  ∀ (cell : Nat) (w : CellWord) (s : State), s.cellReady cell = true →
    let ended := mapFirst (fun y => y.kind == 0 && y.index == cell && y.st == 1) (fun y => { y with st := 2 }) s.slices
    let fields := seqFields cell ++ [(.CELL_SEQ_STATUS_STATE, cell), (.CELL_SEQ_STATUS_SLOT, cell),
      (.CELL_SEQ_STATUS_DROPPED, cell), (.CELL_SEQ_STATUS_HOLD_REASON, cell)]
    (s.nextSlice 0 cell = none → Completes (.slend cell w) s (fun t =>
      t.slices = ended ∧ t.cells = s.cells.putLoops cell [] ∧
      t.get .CELL_SEQ_STATUS_STATE cell = 0 ∧ t.get .CELL_SEQ_STATUS_SLOT cell = 15 ∧
      t.get .CELL_SEQ_ISSUED_COUNT cell = satAdd 48 (s.get .CELL_SEQ_ISSUED_COUNT cell) 1 ∧
      Frame s t [.cells, .slices] fields [])) ∧
    (∀ x, s.nextSlice 0 cell = some x → x.target < s.get .CELL_SEQ_PROG_LENGTH cell → x.target < 32768 → x.slot < 16 →
      Sparse.get 0 s.clay.planeBad cell = 0 → Completes (.slend cell w) s (fun t =>
        t.slices = mapFirst (fun y => y.kind == 0 && y.index == cell && y.st == 0) (fun y => { y with st := 1 }) ended ∧
        t.cells = s.cells.putLoops cell [] ∧ t.get .CELL_SEQ_STATUS_STATE cell = 1 ∧
        t.get .CELL_SEQ_STATUS_PC cell = x.target ∧ t.get .CELL_SEQ_STATUS_SLOT cell = x.slot ∧
        t.get .CELL_SEQ_STATUS_HOLD_REASON cell = 0 ∧
        t.get .CELL_SEQ_STATUS_DROPPED cell = (if x.slot < 8 then s.var .mbDropped x.slot else 0) % 2 ∧
        Frame s t [.cells, .slices] fields [(.mbIssued, x.slot)]))

/-- A cell's cells once its held instruction no longer waits. -/
def unheld (s : State) (cell : Nat) : Cells := { s.cells with held := Sparse.set none s.cells.held cell none }

/-- A slice that has ended and whose operations are complete retires, and the last one of a dropped micro-batch frees its
stash; one whose operations are not complete stays. A held BWAIT whose clk has come completes, its held clk counting where no
latch has counted them; before that it stays held; of a running sequencer the command counts clk held for sources or a
fetch. Choices of the model in it: assumption 92. -/
def Claim.SlicesRetireAndHoldsEnd : Prop :=
  ∀ (s : State),
    (∀ kind index, let done := fun (y : Slice) => y.kind == kind && y.index == index && y.st == 2
      ∀ x, s.slices.find? done = some x →
      (x.ops ≠ 0 → Completes (.sliceRetire kind index) s (fun t => t = s)) ∧
      (x.ops = 0 → (kind = 2 → (Sparse.get [] s.spring.link index).any LinkItem.isRecord = false) →
        Completes (.sliceRetire kind index) s (fun t =>
          t.slices = mapFirst done (fun y => { y with st := 3 }) s.slices ∧
          (x.slot < 8 → t.var .mbRetired x.slot = s.var .mbRetired x.slot + 1) ∧
          (x.slot < 8 → s.var .mbDropped x.slot = 1 → s.img.slotSlices x.slot ≤ s.var .mbRetired x.slot + 1 →
            t.cells.stash = s.cells.stash.filter (fun b => b.slot != x.slot)) ∧
          Frame s t [.slices, .cells] [] (if x.slot < 8 then [(.mbRetired, x.slot)] else []))) ) ∧
    (∀ cell, cell < 144 → ∀ w, Sparse.get none s.cells.held cell = some (0x77, w) → ∀ clk,
      s.get .CELL_SEQ_STATUS_STATE cell = 2 → s.get .CELL_SEQ_STATUS_HOLD_REASON cell = 7 →
      (s.get .BEAT_STATUS_PHASE < w.im 0 13 → Completes (.seqHoldRelease cell clk) s (fun t => t = s)) ∧
      (w.im 0 13 ≤ s.get .BEAT_STATUS_PHASE →
        (settle (s.get .CELL_SEQ_STATUS_PC cell + 1) (s.loopsOf cell)).1 < 32768 →
        Completes (.seqHoldRelease cell clk) s (fun t =>
          t.get .CELL_SEQ_STATUS_STATE cell = 1 ∧ t.get .CELL_SEQ_STATUS_HOLD_REASON cell = 0 ∧
          Issued s t cell 0x77 1 0 0 (unheld s cell) ∧
          t.get .CELL_SEQ_STALL_TOTAL cell =
            satAdd Fld.CELL_SEQ_STALL_TOTAL.width (s.get .CELL_SEQ_STALL_TOTAL cell) (clk - s.var .heldSeen cell) ∧
          t.var .cellStall cell = s.var .cellStall cell + (clk - s.var .heldSeen cell) ∧
          Frame s t [.cells] (seqFields cell ++ [(.CELL_SEQ_STATUS_STATE, cell), (.CELL_SEQ_STATUS_HOLD_REASON, cell),
            (.CELL_SEQ_STALL_TOTAL, cell)]) [(.cellStall, cell)]))) ∧
    (∀ cell, cell < 144 → ∀ clk, Sparse.get none s.cells.held cell = none → s.get .CELL_SEQ_STATUS_STATE cell = 1 →
      Completes (.seqHoldRelease cell clk) s (fun t =>
        t.get .CELL_SEQ_STALL_TOTAL cell =
          satAdd Fld.CELL_SEQ_STALL_TOTAL.width (s.get .CELL_SEQ_STALL_TOTAL cell) clk ∧
        t.var .cellStall cell = s.var .cellStall cell + clk ∧
        Frame s t [] [(.CELL_SEQ_STALL_TOTAL, cell)] [(.cellStall, cell)]))

/-- At clk QRECV_CLK a held COLLECTIVE receive completes with zeros, its queue owes a discard and its micro-batch is dropped
from the next boundary. A trapped sequencer of a held module takes RESTART_PC, cut to the program's last instruction, and
resumes with the timer; of any other sequencer only the register is written. A fetch of a line in error traps. -/
def Claim.SequencerEvents : Prop :=
  ∀ (cell : Nat) (s : State), cell < 144 →
    (∀ w, Sparse.get none s.cells.held cell = some (0x61, w) → ∀ r, s.route cell 1 (w.im 0 5) = some r → ∀ clk,
      s.get .CELL_SEQ_STATUS_STATE cell = 2 → s.get .CELL_SEQ_STATUS_HOLD_REASON cell ≠ 4 → s.prodKind (routeQueue r).1 = 5 →
      recGet ((s.img.queueRec (routeQueue r).1).getD 0) 12 1 = 1 →
      (settle (s.get .CELL_SEQ_STATUS_PC cell + 1) (s.loopsOf cell)).1 < 32768 →
      let slot := s.get .CELL_SEQ_STATUS_SLOT cell
      Completes (.qrecvDeadline cell clk) s (fun t =>
        Issued s t cell 0x61 1 0 0 (((unheld s cell).putV cell w.dst.toNat
          (maskedLanes cell w s (List.replicate 64 0))).putS cell w.sc.toNat 0) ∧
        t.get .CELL_SEQ_STATUS_STATE cell = 1 ∧ t.get .CELL_SEQ_STATUS_HOLD_REASON cell = 0 ∧
        t.get .BEAT_STATUS_PHASE = max (s.get .BEAT_STATUS_PHASE) (s.get .COLL_CFG_QRECV_CLK) %
          2 ^ Fld.BEAT_STATUS_PHASE.width ∧
        t.var .qOwed (routeQueue r).1 = s.var .qOwed (routeQueue r).1 + 1 ∧
        (slot < 8 → t.var .mbDropNext slot = 4) ∧
        Frame s t [.cells] (seqFields cell ++ [(.CELL_SEQ_STATUS_STATE, cell), (.CELL_SEQ_STATUS_HOLD_REASON, cell),
          (.CELL_SEQ_STALL_TOTAL, cell), (.BEAT_STATUS_PHASE, 0)])
          [(.cellStall, cell), (.clk, 0), (.qOwed, (routeQueue r).1), (.mbDropNext, slot)])) ∧
    (∀ pc, let len := s.get .CELL_SEQ_PROG_LENGTH cell
      let target := if len ≤ pc % 2 ^ 15 then len - 1 else pc % 2 ^ 15
      (s.get .CELL_SEQ_STATUS_STATE cell = 3 → s.inHold = true → Completes (.cellSeqRestart cell pc) s (fun t =>
        t.get .CELL_SEQ_CTRL_RESTART_PC cell = target % 2 ^ 15 ∧ t.get .CELL_SEQ_STATUS_STATE cell = 0 ∧
        t.get .CELL_SEQ_STATUS_PC cell = target % 2 ^ 15 ∧ t.var .seqRestart cell = 1 ∧
        t.get .CELL_TRAP_CAUSE cell = 0 ∧ t.get .CELL_TRAP_INSN_INSN cell = 0 ∧ t.get .CELL_TRAP_ADDR_DETAIL cell = 0 ∧
        t.cells = s.cells.putLoops cell (keepLoops target (s.loopsOf cell)) ∧
        Frame s t [.cells] [(.CELL_SEQ_CTRL_RESTART_PC, cell), (.CELL_SEQ_STATUS_STATE, cell), (.CELL_SEQ_STATUS_PC, cell),
          (.CELL_SEQ_STATUS_LOOP_DEPTH, cell), (.CELL_TRAP_CAUSE, cell), (.CELL_TRAP_CODE, cell), (.CELL_TRAP_PC, cell),
          (.CELL_TRAP_BEAT, cell), (.CELL_TRAP_INSN_INSN, cell), (.CELL_TRAP_ADDR_DETAIL, cell)] [(.seqRestart, cell)])) ∧
      (s.get .CELL_SEQ_STATUS_STATE cell ≠ 3 ∨ s.inHold = false → Completes (.cellSeqRestart cell pc) s (fun t =>
        t.get .CELL_SEQ_CTRL_RESTART_PC cell = target % 2 ^ 15 ∧ Frame s t [] [(.CELL_SEQ_CTRL_RESTART_PC, cell)] []))) ∧
    (s.get .CELL_SEQ_STATUS_STATE cell = 1 → s.running = true →
      Completes (.fetchUe cell) s (fun t =>
        t.get .CELL_SEQ_STATUS_STATE cell = 3 ∧ t.get .CELL_TRAP_CAUSE cell = 3 ∧
        t.get .CELL_TRAP_PC cell = s.get .CELL_SEQ_STATUS_PC cell ∧
        t.get .CELL_TRAP_ADDR_DETAIL cell =
          (s.get .CELL_SEQ_PROG_BASE cell * 64 + s.get .CELL_SEQ_STATUS_PC cell * 8) / 64 * 64 % 2 ^ 48 ∧
        t.var .faultPending = 1 ∧ t.cells = unheld s cell ∧ t.mem = s.mem))

/-- The array of a cell: a waiting operation takes the tile token; an operation with nothing to compute, or whose descriptor
could not be read, retires; one that holds the token writes its outputs row by row, or keeps them in the tile, and retires. -/
def Claim.ArrayOperationsRetire : Prop :=
  ∀ (cell : Nat) (s : State) (o : ArrOp) (rest : List ArrOp), cell < 144 → s.aopsOf cell = o :: rest →
    let d := s.clampDesc cell (rawDesc o.desc)
    let gone := fun (t : State) (mode path status : Nat) =>
      t.aopsOf cell = rest ∧ t.get .CELL_ARRAY_STATUS_LAST_MODE cell = mode % 2 ^ Fld.CELL_ARRAY_STATUS_LAST_MODE.width ∧
      t.get .CELL_ARRAY_STATUS_LAST_PATH cell = path % 2 ^ Fld.CELL_ARRAY_STATUS_LAST_PATH.width ∧
      t.get .CELL_ARRAY_STATUS_LAST_STATUS cell = status ∧
      t.get .CELL_ARRAY_STATUS_LAST_DESC cell = o.off % 2 ^ Fld.CELL_ARRAY_STATUS_LAST_DESC.width ∧
      t.get .CELL_ARRAY_OPS_RETIRED cell = satAdd Fld.CELL_ARRAY_OPS_RETIRED.width (s.get .CELL_ARRAY_OPS_RETIRED cell) 1
    let status := if (runLines cell d.reads).any s.lineBad then 2 else if d.clamps = 0 then 0 else 1
    let busyCounts := fun (t : State) (busy : Nat) => t.get .CELL_ARRAY_BUSY_TOTAL cell =
      satAdd Fld.CELL_ARRAY_BUSY_TOTAL.width (s.get .CELL_ARRAY_BUSY_TOTAL cell) busy
    let accs := (s.compute cell d).accs
    (∀ wait, o.tile = false → o.empty = false → rest.any (·.tile) = false →
      Completes (.arrayTileGrant cell wait) s (fun t =>
        t.aopsOf cell = { o with tile := true } :: rest ∧ t.get .CELL_ARRAY_STATUS_BUSY cell = 1 ∧
        t.get .CELL_TILE_WAIT_TOTAL cell =
          satAdd Fld.CELL_TILE_WAIT_TOTAL.width (s.get .CELL_TILE_WAIT_TOTAL cell) wait ∧
        Frame s t [.cells] [(.CELL_ARRAY_STATUS_BUSY, cell), (.CELL_ARRAY_STATUS_WAITING, cell),
          (.CELL_TILE_WAIT_TOTAL, cell)] [(.tileWait, cell)])) ∧
    (∀ busy, o.lost = true → Completes (.arrayOpRetire cell busy) s (fun t => gone t 0 3 2 ∧ t.mem = s.mem)) ∧
    (∀ busy, o.lost = false → d.m = 0 ∨ d.n = 0 → Completes (.arrayOpRetire cell busy) s (fun t =>
      gone t 0 3 (if d.clamps = 0 then 0 else 1) ∧
      t.get .CELL_ARRAY_OPS_NOOP cell = satAdd Fld.CELL_ARRAY_OPS_NOOP.width (s.get .CELL_ARRAY_OPS_NOOP cell) 1 ∧
      t.mem = s.mem)) ∧
    (∀ busy, o.lost = false → d.m ≠ 0 → d.n ≠ 0 → o.tile = true → o.drop = false → d.keep = false →
      Completes (.arrayOpRetire cell busy) s (fun t =>
        gone t (s.modeFor cell d) (pathOf (s.pathFmt cell d.fx d.rsX) (s.pathFmt cell d.fw d.rsW)) status ∧
        busyCounts t busy ∧ t.get .CELL_ARRAY_STATUS_KEPT cell = 0 ∧
        t.mem = accs.zipIdx.foldl (fun m p => putBytes m (cellTarn cell (d.aO + p.2 * d.ldO))
          (leBytes (rowBytes d.fo d.n) (pack (fmtWidth d.fo) (p.1.map (s.outElem cell d))))) s.mem)) ∧
    (∀ busy, o.lost = false → d.m ≠ 0 → d.n ≠ 0 → o.tile = true → d.keep = true →
      Completes (.arrayOpRetire cell busy) s (fun t =>
        gone t (s.modeFor cell d) (pathOf (s.pathFmt cell d.fx d.rsX) (s.pathFmt cell d.fw d.rsW)) status ∧
        busyCounts t busy ∧ t.get .CELL_ARRAY_STATUS_KEPT cell = 1 ∧ t.mem = s.mem))

/-- The Tarn and the weight streams: of those that ask for a bank the first from the rotation pointer on is granted, and the
pointer moves past it; the management window is granted alone and moves nothing. A completed fill makes its slot READY once
the layer is whole, a released slot is EMPTY, a commit waits for its boundary, and a micro-batch marked to be dropped is. -/
def Claim.TarnAndStreamEvents : Prop :=
  ∀ (s : State),
    (∀ tarn asks wait, tarnOk tarn = true → asks % 64 ≠ 0 →
      let who := grantee (s.var .bankPtr tarn) asks
      Completes (.tarnBankGrant tarn asks wait) s (fun t =>
        (asks % 32 ≠ 0 → asks.testBit who = true ∧ t.var .bankPtr tarn = (who + 1) % 5) ∧
        (asks % 32 = 0 → t.var .bankPtr tarn = s.var .bankPtr tarn) ∧
        t.get .TIER_BANK_STALL_TOTAL tarn = satAdd Fld.TIER_BANK_STALL_TOTAL.width (s.get .TIER_BANK_STALL_TOTAL tarn) wait ∧
        t.get .CELL_SEQ_STALL_TOTAL tarn = (if who = 0 ∧ tarn < 144 then
          satAdd Fld.CELL_SEQ_STALL_TOTAL.width (s.get .CELL_SEQ_STALL_TOTAL tarn) wait else s.get .CELL_SEQ_STALL_TOTAL tarn) ∧
        Frame s t [] [(.TIER_BANK_STALL_TOTAL, tarn), (.CELL_SEQ_STALL_TOTAL, tarn)]
          [(.bankPtr, tarn), (.tarnStall, tarn), (.cellStall, tarn)])) ∧
    (∀ k j, k < 16 → j < 8 → s.var .slotRelease (k * 8 + j) = 1 → Completes (.weightSlotRelease k j) s (fun t =>
      t.slotState k j = 0 ∧ t.var .slotRelease (k * 8 + j) = 0 ∧
      Frame s t [] [(.TIER_STREAM_READY, k), (.TIER_STREAM_FILLING, k)] [(.slotRelease, k * 8 + j)])) ∧
    (∀ f, s.cells.fills = [f] → ∀ k j, f.stream = k → f.slot = j → k < 16 → j < 8 →
      Completes (.weightFillDone k j) s (fun t => t.cells.fills = [] ∧
        t.slotState k j = (if s.layerBytes k j ≤ s.var .slotFilled (k * 8 + j) + f.len then 2 else s.slotState k j) ∧
        t.var .slotFilled (k * 8 + j) = s.var .slotFilled (k * 8 + j) + f.len ∧
        t.slices = mapFirst (fun y => y.kind == 0 && y.index == f.cell && y.ops > 0) (fun y => { y with ops := y.ops - 1 })
          s.slices)) ∧
    (∀ cell, cell < 144 →
      Completes (.cellCommit cell) s (fun t => t.var .cellCommit cell = 1 ∧ Frame s t [] [] [(.cellCommit, cell)])) ∧
    (∀ k cause, k < 8 → s.var .mbDropNext k = cause → cause ≠ 0 →
      let counted := if cause ≤ 2 then [256 + (cause - 1)] else if cause = 3 then [6 * 256] else []
      Completes (.microbatchDrop k) s (fun t =>
        t.var .mbDropped k = 1 ∧ t.var .mbDropNext k = 0 ∧
        (∀ i ∈ counted, t.get .TIER_CLASS_EVENTS_OUTCOME i =
          satAdd Fld.TIER_CLASS_EVENTS_OUTCOME.width (s.get .TIER_CLASS_EVENTS_OUTCOME i) 1) ∧
        (Sparse.get {} t.spring.cuts (s.get .BEAT_STEP_STEP)).mbDrop =
          (Sparse.get {} s.spring.cuts (s.get .BEAT_STEP_STEP)).mbDrop + 1 ∧
        Frame s t [.spring] (counted.map (fun i => (.TIER_CLASS_EVENTS_OUTCOME, i))) [(.mbDropNext, k), (.mbDropped, k)]))

/-- What traps records its cause, PC and instruction, pends the controller's fault and has no other effect. -/
def Obligations.SequencerTraps : Prop := Claim.AccessBeyondTarnTraps ∧ Claim.TrappingInstructions ∧ Claim.PastProgramTraps

/-- SLEND ends a slice; held, restarted and fetch-failed sequencers go on as their rules say. -/
def Obligations.SlicesAndSequencerEvents : Prop := Claim.SliceEnds ∧ Claim.SlicesRetireAndHoldsEnd ∧ Claim.SequencerEvents

/-- Tile grants, array retirement, bank grants, fills, slot releases and drops change what their rules say. -/
def Obligations.CellUnitEvents : Prop := Claim.ArrayOperationsRetire ∧ Claim.TarnAndStreamEvents
/-! The beat timer, HOLD and the Clay image. -/

/-- The retire check of clk 4,095: with every slice retired the boundary is due; with one unretired and a stretch limit the
beat stretches; with none it overruns, and the module enters HOLD with cause OVERRUN.
Choices of the model in it: assumption 11. -/
def Claim.RetireCheck : Prop :=
  ∀ s : State, s.running = true → s.var .boundaryDue = 0 → s.var .stretchNow = 0 → s.var .holdDue = 0 →
    (s.allRetired = true → Completes .beatRetireCheck s (fun t =>
      t.get .BEAT_STATUS_PHASE = 4095 ∧ t.var .boundaryDue = 1 ∧
      Frame s t [] [(.BEAT_STATUS_PHASE, 0)] [(.clk, 0), (.boundaryDue, 0)])) ∧
    (s.allRetired = false → s.get .BEAT_STRETCH_LIMIT ≠ 0 → Completes .beatRetireCheck s (fun t =>
      t.get .BEAT_STATUS_PHASE = 4095 ∧ t.var .boundaryDue = 0 ∧ t.var .stretchNow = 1 ∧
      Frame s t [] [(.BEAT_STATUS_PHASE, 0)] [(.clk, 0), (.stretchNow, 0)])) ∧
    (s.allRetired = false → s.get .BEAT_STRETCH_LIMIT = 0 → Completes .beatRetireCheck s (fun t =>
      t.get .BEAT_STATUS_STATE = 2 ∧ t.get .BEAT_STATUS_HOLD_CAUSE = 2 ∧
      t.get .BEAT_OVERRUN_BEAT = s.get .BEAT_COUNT_COUNT % 2 ^ 48 ∧ t.slices = s.slices ∧ t.mem = s.mem))

/-- Each further sample is one clk later: of n the last that finds every slice retired makes the boundary due; at the limit,
with a slice unretired, the beat overruns; before it, the next sample is the one after the n-th.
Choices of the model in it: assumption 11. -/
def Claim.StretchSamples : Prop :=
  ∀ (s : State) (x n : Nat), s.running = true → s.var .boundaryDue = 0 → s.var .stretchNow = x + 1 → n ≠ 0 →
    x + n ≤ s.get .BEAT_STRETCH_LIMIT → x + n ≤ 4096 →
    (s.allRetired = true → Completes (.stretchSample n) s (fun t =>
      t.get .BEAT_STATUS_PHASE = 4095 + (x + n) ∧ t.var .stretchNow = x + n + 1 ∧ t.var .boundaryDue = 1 ∧
      Frame s t [] [(.BEAT_STATUS_PHASE, 0)] [(.clk, 0), (.stretchNow, 0), (.boundaryDue, 0)])) ∧
    (s.allRetired = false → x + n < s.get .BEAT_STRETCH_LIMIT → Completes (.stretchSample n) s (fun t =>
      t.get .BEAT_STATUS_PHASE = 4095 + (x + n) ∧ t.var .stretchNow = x + n + 1 ∧
      Frame s t [] [(.BEAT_STATUS_PHASE, 0)] [(.clk, 0), (.stretchNow, 0)])) ∧
    (s.allRetired = false → x + n = s.get .BEAT_STRETCH_LIMIT → Completes (.stretchSample n) s (fun t =>
      t.get .BEAT_STATUS_STATE = 2 ∧ t.get .BEAT_STATUS_HOLD_CAUSE = 2 ∧ t.slices = s.slices ∧ t.mem = s.mem))

/-- The state in which an event of clk 1 of a boundary acts: where the boundary is due and none of it has run, its clk 0
runs first. -/
def clkOne (s : State) : State :=
  if s.running = true ∧ s.var .boundaryDue = 1 then (s.run (clk0 s)).apply (.var .boundaryDue 0 3) else s

/-- A boundary of whose clk none has run counts the beat; one whose clk 0 has run does not count it again; each leaves none
due. CLAY_FLIP runs the first two clk of the armed flip beat's boundary, activates the shadow image and leaves the rest.
COMMIT_APPLY at a boundary that is due ends the commit of its unit, and PWR_CFG takes the floor that was written. An event of
clk 1 finds clk 0 run: the beat is counted. Choices of the model in it: assumption 11. -/
def Obligations.BoundaryCountsAndCommits : Prop :=
  ∀ s : State, s.running = true →
    (s.var .boundaryDue ≠ 0 → s.fmp.lateFor = none → Completes .beatBoundary s (fun t =>
      t.get .BEAT_COUNT_COUNT = (s.get .BEAT_COUNT_COUNT + if s.var .boundaryDue = 1 then 1 else 0) % 2 ^ 64 ∧
      t.var .boundaryDue = 0)) ∧
    (s.var .boundaryDue = 0 → Completes .beatBoundary s (fun t => t = s)) ∧
    (∀ n, s.clay.shadow = some n → ∀ ahead, s.get .CLAY_STATUS_ARMED = 1 → s.flipBeat = s.beatAhead ahead →
      (s.var .boundaryDue = 1 ∧ ahead = 1) ∨ (s.var .boundaryDue = 3 ∧ ahead = 0) →
      Completes .clayFlip s (fun t =>
        t.get .BEAT_COUNT_COUNT = (s.get .BEAT_COUNT_COUNT + ahead) % 2 ^ 64 ∧ t.var .boundaryDue = 2 ∧
        t.clay.active = some n ∧ t.clay.shadow = none)) ∧
    (∀ block unit, s.var .boundaryDue = 1 → commitFlag block unit s = true →
      Completes (.commitApply block unit) s (fun t => commitFlag block unit t = false ∧ t.running = true)) ∧
    (∀ v, s.var .boundaryDue = 1 → s.get .PWR_STATUS_COMMIT_PENDING = 1 → s.shadowOf .PWR_CFG_PAD_FLOOR = v →
      v ≤ 4096 →
      Completes (.commitApply 11 0) s (fun t =>
        t.get .PWR_CFG_PAD_FLOOR = v ∧ t.get .PWR_STATUS_COMMIT_PENDING = 0 ∧ t.mem = s.mem)) ∧
    (∀ block unit, s.var .boundaryDue ≠ 1 → Completes (.commitApply block unit) s (fun t => t = s)) ∧
    (s.var .boundaryDue = 1 → (clkOne s).get .BEAT_COUNT_COUNT = (s.get .BEAT_COUNT_COUNT + 1) % 2 ^ 64 ∧
      (clkOne s).get .BEAT_STATUS_PHASE = 0 ∧ (clkOne s).var .boundaryDue = 3)

/-- START in STOPPED with an active image and no failed cell is taken, and without them has no effect. A START that was taken
opens beat 0, 64 clk and the clk 0 to 4 of its boundary later, with the step of BEAT_START_STEP; without one no beat 0 is
due. -/
def Claim.StartOpensBeatZero : Prop :=
  ∀ s : State,
    (s.stopped = true → s.clay.active.isSome = true → s.cellsOk = true → Completes .beatStart s (fun t =>
      t.var .startAt = 1 ∧ Frame s t [] [] [(.startAt, 0)])) ∧
    (s.stopped = false ∨ s.clay.active = none ∨ s.cellsOk = false → Completes .beatStart s (fun t => t = s)) ∧
    (s.stopped = true → s.var .startAt ≠ 0 → Completes .beatZeroBoundary s (fun t =>
      t.get .BEAT_STATUS_STATE = 1 ∧ t.get .BEAT_STATUS_HOLD_CAUSE = 0 ∧ t.get .BEAT_COUNT_COUNT = 0 ∧
      t.get .BEAT_STEP_STEP = s.get .BEAT_START_STEP_STEP ∧ t.get .BEAT_STEP_OFFSET = 0 ∧ t.get .BEAT_STATUS_PHASE = 4 ∧
      t.var .clk = s.var .clk + 68 ∧ t.var .startAt = 0 ∧ t.var .boundaryDue = 0)) ∧
    (s.stopped = false ∨ s.var .startAt = 0 → Completes .beatZeroBoundary s (fun t => t = s))

/-- What a running module does as it enters HOLD: the timer stands with the cause, what was asked or owed is answered, and the
events of the beat go to the log. -/
structure EntersHold (s t : State) (cause : Nat) : Prop where
  state  : t.get .BEAT_STATUS_STATE = 2
  why    : t.get .BEAT_STATUS_HOLD_CAUSE = cause
  asked  : t.var .holdPending = 0
  fault  : t.var .faultPending = 0
  frozen : t.var .frozenAt = s.var .clk
  alert  : t.var .alert = s.var .alert ||| (if cause ≥ 2 then 16 else 0)
  events : t.logs.pend = []
  others : Frame s t [.logs] [(.BEAT_STATUS_STATE, 0), (.BEAT_STATUS_HOLD_CAUSE, 0), (.ERR_EVLOG_HEAD_HEAD, 0),
    (.ERR_EVLOG_HEAD_SUPPRESSED, 0), (.ERR_STATUS_EVLOG_WRAPPED, 0)]
    [(.imageSinceHold, 0), (.frozenAt, 0), (.faultPending, 0), (.holdPending, 0), (.alert, 0)]

/-- HOLD_REQ writes HOLD_MODE and, in RUNNING, asks for a HOLD. The HOLD that has come due is entered, with cause FAULT where
a fault is pending and REQUEST otherwise. A pending fault holds a running module at once, or after the boundary under way.
Choices of the model in it: assumption 85. -/
def Claim.HoldIsEntered : Prop :=
  ∀ s : State,
    (∀ m, Completes (.holdReq m) s (fun t =>
      t.get .BEAT_CTRL_HOLD_MODE = min (m % 4) 1 ∧ t.var .holdPending = (if s.running then 1 else s.var .holdPending) ∧
      Frame s t [] [(.BEAT_CTRL_HOLD_MODE, 0)] [(.holdPending, 0)])) ∧
    (s.running = true → s.var .holdDue = 1 → Completes .holdEnter s (fun t =>
      EntersHold s t (if s.var .faultPending = 1 then 3 else 1))) ∧
    (s.running = false ∨ s.var .holdDue ≠ 1 → Completes .holdEnter s (fun t => t = s)) ∧
    (s.running = true → s.var .faultPending = 1 → s.var .boundaryDue = 0 → Completes .faultHold s (fun t =>
      EntersHold s t 3)) ∧
    (s.running = true → s.var .faultPending = 1 → s.var .boundaryDue ≠ 0 → Completes .faultHold s (fun t =>
      t.get .BEAT_STATUS_STATE = 2 ∧ t.get .BEAT_STATUS_HOLD_CAUSE = 3 ∧ t.var .faultPending = 0 ∧
      t.var .boundaryDue = 0)) ∧
    (s.running = false ∨ s.var .faultPending ≠ 1 → Completes .faultHold s (fun t => t = s))

/-- RESUME in HOLD runs the beat again from clk 4 where its cause allows it; where a boundary had come due, that boundary runs
first and counts its beat. Where the cause does not allow it RESUME is refused, and outside HOLD it has no effect. -/
def Claim.ResumeLeavesHold : Prop :=
  ∀ s : State,
    (s.inHold = true → s.mayResume = true → s.var .boundaryDue ≠ 1 → Completes .resume s (fun t =>
      t.get .BEAT_STATUS_STATE = 1 ∧ t.get .BEAT_STATUS_HOLD_CAUSE = 0 ∧ t.get .BEAT_STATUS_PHASE = 4 ∧
      t.get .BEAT_COUNT_COUNT = s.get .BEAT_COUNT_COUNT ∧ t.var .holdDue = 0 ∧ t.var .boundaryDue = 0 ∧
      t.var .graceLeft = s.policy 5 0 4096 ∧ t.mem = s.mem)) ∧
    (s.inHold = true → s.mayResume = true → s.var .boundaryDue = 1 → Completes .resume s (fun t =>
      t.get .BEAT_STATUS_STATE = 1 ∧ t.get .BEAT_STATUS_HOLD_CAUSE = 0 ∧
      t.get .BEAT_COUNT_COUNT = (s.get .BEAT_COUNT_COUNT + 1) % 2 ^ 64 ∧ t.var .boundaryDue = 0)) ∧
    (s.inHold = true → s.mayResume = false → Completes .resume s (fun t =>
      t.get .BEAT_STATUS_RESUME_REFUSED = 1 ∧ Frame s t [] [(.BEAT_STATUS_RESUME_REFUSED, 0)] [])) ∧
    (s.inHold = false → Completes .resume s (fun t => t = s))

/-- Only the queue `q` may have changed, by one operation. -/
def onlyQueue (s t : State) (q : Nat) (o : QOp) : Prop :=
  ∀ r, t.queue r = if r = q then (s.queue r).apply o else s.queue r

/-- Tokens and credits on their way inside the module arrive at their end of the queue: a token in its consumer's buffer,
which for a cell is the next place of its ring in the Tarn, and a credit at its producer. One of an old generation is
discarded and counted; with none on its way nothing happens. Where something waits for the credit, or a reduction for the
token, it goes on at once: this says what happens where nothing does. Choices of the model in it: assumptions 7, 87. -/
def Obligations.TokensAndCreditsArrive : Prop :=
  ∀ (q : Nat) (s : State),
    let discarded := satAdd Fld.CLAY_FLIP_DISCARD_COUNT.width (s.get .CLAY_FLIP_DISCARD_COUNT) 1
    ((∀ h ∈ s.coll.roots, h.issued = false ∨ h.own.isSome = true) →
      ((s.queue q).flight = [] → Completes (.tokenArrival q) s (fun t => t = s)) ∧
      (∀ tok g rest, (s.queue q).flight = (tok, g) :: rest → g ≠ (s.queue q).gen →
        Completes (.tokenArrival q) s (fun t => onlyQueue s t q .arrive ∧
          (t.queue q).buf = (s.queue q).buf ∧ t.get .CLAY_FLIP_DISCARD_COUNT = discarded ∧
          Frame s t [.queues] [(.CLAY_FLIP_DISCARD_COUNT, 0)] [])) ∧
      (∀ tok g rest, (s.queue q).flight = (tok, g) :: rest → g = (s.queue q).gen →
        s.tokenAddr q (s.var .qPlace q) = none → Completes (.tokenArrival q) s (fun t => onlyQueue s t q .arrive ∧
          (t.queue q).buf = (s.queue q).buf ++ [tok] ∧ Frame s t [.queues] [] [])) ∧
      (∀ tok g rest, (s.queue q).flight = (tok, g) :: rest → ∀ a, s.tokenAddr q (s.var .qPlace q) = some a →
        g = (s.queue q).gen → Completes (.tokenArrival q) s (fun t => onlyQueue s t q .arrive ∧
          (t.queue q).buf = (s.queue q).buf ++ [tok] ∧ Wrote s t a (leBytes 256 tok.toNat) ∧
          t.var .qPlace q = (s.var .qPlace q + 1) % max 1 (s.queue q).depth ∧
          (s.unitErr = [] → Frame s t [.queues, .mem] [] [(.qPlace, q)])))) ∧
    (Sparse.get [] s.xport.outbox q = [] → s.var .qHeldAt q = 0 → s.prodKind q ≠ 6 →
      (∀ p ∈ s.xport.conns, p.2.ready = []) →
      ((s.queue q).back = [] → Completes (.creditArrival q) s (fun t => t = s)) ∧
      (∀ g rest, (s.queue q).back = g :: rest → Completes (.creditArrival q) s (fun t => onlyQueue s t q .creditArrive ∧
        (t.queue q).credits = (s.queue q).credits + (if g = (s.queue q).gen then 1 else 0) ∧
        t.get .CLAY_FLIP_DISCARD_COUNT = (if g = (s.queue q).gen then s.get .CLAY_FLIP_DISCARD_COUNT else discarded) ∧
        Frame s t [.queues] [(.CLAY_FLIP_DISCARD_COUNT, 0)] [])))

/-- LOAD begins pass 1 with no shadow image, and is refused while a load is under way or a flip is armed. CANCEL ends a load,
or disarms a flip whose beat has not come. -/
def Claim.LoadAndCancel : Prop :=
  ∀ s : State,
    let busy := s.loading = true ∨ (s.running = true ∧ s.get .CLAY_STATUS_ARMED = 1)
    (¬busy → Completes .clayLoad s (fun t =>
      t.get .CLAY_STATUS_LOAD_STATE = 1 ∧ t.get .CLAY_GEN_SHADOW = 0 ∧
      t.clay = { s.clay with shadow := none, staged := [], began := s.var .clk } ∧
      t.get .CLAY_STATUS_ARMED = (if s.inHold then 0 else s.get .CLAY_STATUS_ARMED) ∧
      Frame s t [.clay] [(.CLAY_STATUS_ARMED, 0), (.CLAY_STATUS_LOAD_STATE, 0), (.CLAY_GEN_SHADOW, 0),
        (.CLAY_MEAS_SHADOW_DIGEST, 0), (.CLAY_MEAS_SHADOW_DIGEST, 1), (.CLAY_MEAS_SHADOW_DIGEST, 2),
        (.CLAY_MEAS_SHADOW_DIGEST, 3)] [])) ∧
    (busy → Completes .clayLoad s (fun t =>
      t.get .CLAY_STATUS_LOAD_BUSY = 1 ∧ Frame s t [] [(.CLAY_STATUS_LOAD_BUSY, 0)] [])) ∧
    (s.loading = true → Completes .clayCancel s (fun t =>
      t.get .CLAY_STATUS_LOAD_STATE = 0 ∧ t.clay = { s.clay with staged := [] } ∧
      Frame s t [.clay, .fmp] [(.CLAY_STATUS_LOAD_STATE, 0)] [])) ∧
    (s.loading = false → s.get .CLAY_STATUS_ARMED = 1 → s.flipBeat ≠ s.beatAhead 0 → Completes .clayCancel s (fun t =>
      t.get .CLAY_STATUS_ARMED = 0 ∧ Frame s t [] [(.CLAY_STATUS_ARMED, 0)] [])) ∧
    (s.loading = false → s.get .CLAY_STATUS_ARMED ≠ 1 ∨ s.flipBeat = s.beatAhead 0 →
      Completes .clayCancel s (fun t => t = s))

/-- A load ends FAILED with the error of the first check that fails: of pass 1 on the staged bytes, of the signature, of the
checks before pass 2, and of what pass 2 finds changed. Otherwise pass 1 goes on to the signature of a signed image or to
pass 2, a good signature to pass 2, and pass 2 leaves a new shadow image READY in RUNNING and activates it otherwise.
Choices of the model in it: assumptions 17, 97. -/
def Claim.LoadPasses : Prop :=
  ∀ s : State,
    let fails := fun (t : State) (e : Nat) => t.get .CLAY_STATUS_LOAD_STATE = 5 ∧
      t.get .CLAY_STATUS_ERROR = e % 2 ^ Fld.CLAY_STATUS_ERROR.width ∧ t.clay.staged = [] ∧
      t.clay.active = s.clay.active ∧ t.mem = s.mem
    let b := s.stagedBytes
    let s1 : State := { s with clay := { s.clay with staged := b, meas := shake256 32 (b.take (imgGet b 16 8)) } }
    let e1 := pass1Error b s.staging.2 s.boot.fuses.claySig
    let e2 := s1.lateError b s1.rawStaged
    let e3 := s.lateError s.clay.staged s.rawStaged
    (s.get .CLAY_STATUS_LOAD_STATE = 1 → Completes .clayPass1Done s (fun t =>
      (e1 ≠ 0 → fails t e1) ∧
      (e1 = 0 → imgSigned b = true → t.get .CLAY_STATUS_LOAD_STATE = 2 ∧ t.clay = s1.clay ∧
        Frame s t [.clay] [(.CLAY_STATUS_LOAD_STATE, 0)] []) ∧
      (e1 = 0 → imgSigned b = false → e2 = 0 → t.get .CLAY_STATUS_LOAD_STATE = 3 ∧ t.clay = s1.clay ∧
        Frame s t [.clay] [(.CLAY_STATUS_LOAD_STATE, 0)] []) ∧
      (e1 = 0 → imgSigned b = false → e2 ≠ 0 → fails t e2))) ∧
    (s.get .CLAY_STATUS_LOAD_STATE = 2 → Completes .claySignatureDone s (fun t =>
      (signatureOk s.clay.staged s.keyKnown = false → fails t 8) ∧
      (signatureOk s.clay.staged s.keyKnown = true → e3 = 0 →
        t.get .CLAY_STATUS_LOAD_STATE = 3 ∧ Frame s t [] [(.CLAY_STATUS_LOAD_STATE, 0)] []) ∧
      (signatureOk s.clay.staged s.keyKnown = true → e3 ≠ 0 → fails t e3))) ∧
    (s.get .CLAY_STATUS_LOAD_STATE = 3 → s.changedError ≠ 0 → Completes .clayPass2Done s (fun t =>
      fails t s.changedError)) ∧
    (s.get .CLAY_STATUS_LOAD_STATE = 3 → s.changedError = 0 → s.running = true → Completes .clayPass2Done s (fun t =>
      t.get .CLAY_STATUS_LOAD_STATE = 4 ∧ t.clay.shadow.isSome = true ∧ t.clay.staged = [] ∧
      t.clay.active = s.clay.active)) ∧
    (s.get .CLAY_STATUS_LOAD_STATE = 3 → s.changedError = 0 → s.running = false → Completes .clayPass2Done s (fun t =>
      t.get .CLAY_STATUS_LOAD_STATE = 0 ∧ t.clay.active.isSome = true ∧ t.clay.shadow = none ∧ t.clay.staged = []))

/-- ARM sets ARMED where the shadow image is READY, nothing blocks the flip, the module runs and the flip beat is far enough
ahead; it reports what stands against it otherwise. In a quiesce beat the listed slices are skipped and counted. -/
def Claim.ArmAndQuiesce : Prop :=
  ∀ s : State,
    let refused := s.ready = false ∨ s.flipBlocks ≠ 0 ∨ s.running = false
    Completes .clayArm s (fun t =>
      (refused → t.get .CLAY_STATUS_FLIP_REFUSED = 1) ∧ (s.armLate = true → t.get .CLAY_STATUS_FLIP_LATE = 1) ∧
      (¬refused → s.armLate = false → t.get .CLAY_STATUS_ARMED = 1 ∧ Frame s t [] [(.CLAY_STATUS_ARMED, 0)] []) ∧
      (refused ∨ s.armLate = true → t.get .CLAY_STATUS_ARMED = s.get .CLAY_STATUS_ARMED) ∧
      Frame s t [] [(.CLAY_STATUS_ARMED, 0), (.CLAY_STATUS_FLIP_REFUSED, 0), (.CLAY_STATUS_FLIP_LATE, 0)] []) ∧
    (s.running = true → s.var .quiesce = 1 → s.slices ≠ [] → Completes .quiesceBegin s (fun t =>
      t.slices = [] ∧ t.get .CLAY_FLIP_DISCARD_QUIESCE_SKIPPED =
        satAdd Fld.CLAY_FLIP_DISCARD_QUIESCE_SKIPPED.width (s.get .CLAY_FLIP_DISCARD_QUIESCE_SKIPPED) s.slices.length ∧
      Frame s t [.slices] [(.CLAY_FLIP_DISCARD_QUIESCE_SKIPPED, 0)] [])) ∧
    (s.running = false ∨ s.var .quiesce ≠ 1 ∨ s.slices = [] → Completes .quiesceBegin s (fun t => t = s))

/-- In a running module GROUP_COMMIT makes the commit of every unit of the mask's blocks pending, and TIER_CTRL.COMMIT that of
the class regions. HOT_FLUSH is busy until HOT_FLUSH_DONE: in RUNNING it covers the copies that are dirty now, otherwise
those dirty once no update is in flight. -/
def Claim.CommitsAndFlushes : Prop :=
  ∀ s : State,
    (s.running = true → Completes .groupCommit s (fun t =>
      t.get .CLAY_STATUS_GROUP_PENDING = 1 ∧ t.mem = s.mem ∧
      ∀ b u, b < 12 → u < commitUnits b → (s.get .CLAY_COMMIT_GROUP_MASK).testBit b = true → commitFlag b u t = true)) ∧
    Completes .tierCommit s (fun t =>
      t.get .TIER_STATUS_COMMIT_PENDING = 1 ∧ Frame s t [] [(.TIER_STATUS_COMMIT_PENDING, 0)] []) ∧
    (s.running = true → Completes .hotFlush s (fun t =>
      t.get .TIER_STATUS_HOT_FLUSH_BUSY = 1 ∧
      (∀ c, c ∈ t.rows.flush ↔ c ∈ s.rows.flush ∨ c ∈ s.dirtyCopies 0 ∨ c ∈ s.dirtyCopies 1) ∧
      Frame s t [.rows] [(.TIER_STATUS_HOT_FLUSH_BUSY, 0)] [])) ∧
    (s.running = false → Completes .hotFlush s (fun t =>
      t.get .TIER_STATUS_HOT_FLUSH_BUSY = 1 ∧ t.var .flushWait = 1 ∧
      Frame s t [] [(.TIER_STATUS_HOT_FLUSH_BUSY, 0)] [(.flushWait, 0)])) ∧
    (s.get .TIER_STATUS_HOT_FLUSH_BUSY = 1 → s.var .flushWait ≠ 1 ∨ s.rows.log = [] → Completes .hotFlushDone s (fun t =>
      t.get .TIER_STATUS_HOT_FLUSH_BUSY = 0 ∧ t.var .flushWait = 0 ∧ t.rows.flush = [])) ∧
    (s.get .TIER_STATUS_HOT_FLUSH_BUSY = 0 ∨ (s.var .flushWait = 1 ∧ s.rows.log ≠ []) →
      Completes .hotFlushDone s (fun t => t = s))

/-- The retire check makes the boundary due, stretches the beat, or overruns into HOLD. -/
def Obligations.RetireCheckAndStretch : Prop := Claim.RetireCheck ∧ Claim.StretchSamples

/-- START opens beat 0; HOLD is asked for, entered with its cause, and left where RESUME is allowed. -/
def Obligations.StartHoldResume : Prop := Claim.StartOpensBeatZero ∧ Claim.HoldIsEntered ∧ Claim.ResumeLeavesHold

/-- LOAD, its passes, CANCEL, ARM, quiesce, group commits and hot flushes change what their rules say. -/
def Obligations.ImageLoadingAndFlips : Prop := Claim.LoadAndCancel ∧ Claim.LoadPasses ∧ Claim.ArmAndQuiesce ∧ Claim.CommitsAndFlushes

/-! Embedding units, Silt and Drift. -/

/-- A unit issues `x` next: it is the first slice listed for the unit and not begun, slices issue, and the unit runs none. -/
abbrev unitNext (s : State) (kind index : Nat) (x : Slice) : Prop :=
  s.nextSlice kind index = some x ∧ s.curSlice kind index = none

/-- The slices once a unit's next slice has issued all its work and waits for `n` operations. -/
def ranSlice (s : State) (kind index n : Nat) : List Slice :=
  mapFirst (fun y => y.kind == kind && y.index == index && y.st == 1) (fun y => { y with st := 2, ops := y.ops + n })
    (mapFirst (fun y => y.kind == kind && y.index == index && y.st == 0) (fun y => { y with st := 1 }) s.slices)

/-- COALESCE leaves its sub-batch and ends; once the micro-batch's last record has come and the slice takes in what is left,
the pass is done and holds the sub-batch's keys with their counts. FETCH of a sub-batch whose pass is done leaves one open
request for each key of its group, and abandons the pass otherwise. An item without work ends at once.
Choices of the model in it: assumptions 30, 99, 100. -/
def Claim.CoalesceAndFetch : Prop :=
  ∀ (s : State) (die : Nat) (x : Slice), die < 2 → unitNext s 1 die x →
    let item := s.embWork die x
    let step := s.get .BEAT_STEP_STEP
    let sub := bits item 36 4
    let old := (s.subBatch die x.slot step sub).getD { die, slot := x.slot, step, sub }
    let m := s.embMb die x.slot step
    let all := occurrences m.recs
    let ended := fun (t : State) => t.slices = ranSlice s 1 die 0
    (bits item 0 4 = 0 → Completes (.embCoalesce die) s (fun t =>
      ended t ∧ (t.subBatch die x.slot step sub).isSome = true ∧ t.mem = s.mem ∧
      (m.last = true → old.done = false → old.dropped = false →
        all.length ≤ old.pos + 16 * (4046 - max 4 (s.get .BEAT_STATUS_PHASE)) →
        ∃ b, t.subBatch die x.slot step sub = some b ∧ b.done = true ∧ b.pos = all.length ∧
          b.keys = (subKeys (s.keyCounts die all) sub).map (fun p => (p.1, min p.2 (2 ^ 32 - 1)))))) ∧
    (bits item 0 4 = 1 → s.storesRoom = true → s.noSub die x item = false → s.hasSub die x item = true →
      ∀ b, s.subBatch die x.slot step sub = some b → Completes (.embFetch die) s (fun t =>
        ended t ∧ t.emb.fetched = s.emb.fetched ++
          ((b.keys.map Prod.fst).filter (fun k => s.inGroup k (bits item 4 4))).zipIdx.map (fun p =>
            ⟨die, x.slot, step, sub, p.1, (s.var .reqNext die + p.2) % 2 ^ 32, 255, []⟩))) ∧
    (bits item 0 4 = 1 → s.storesRoom = true → s.noSub die x item = false → s.hasSub die x item = false →
      Completes (.embFetch die) s (fun t => ended t ∧ t.emb.fetched = s.emb.fetched ∧
        ∃ b, t.subBatch die x.slot step sub = some b ∧ b.dropped = true)) ∧
    (5 ≤ bits item 0 4 ∨ (1 ≤ bits item 0 4 ∧ bits item 0 4 ≤ 3 ∧ s.noSub die x item = true) →
      Completes (.embEmptyItem die) s (fun t => ended t ∧
        Frame s t [.slices] [] [(.mbIssued, x.slot)]))

/-- A POOL below the last sub-batch only ends; the last one sends the vectors of its group's bags, which depart while their
queue inside the module has credits. GRAD of a dropped micro-batch only ends; once every bag's gradient is taken it adds the
sub-batch's occurrence counts to the Basins. PUSH takes the group's Basin entries of the step.
Choices of the model in it: assumptions 30, 99, 100. -/
def Claim.PoolGradAndPush : Prop :=
  ∀ (s : State) (die : Nat) (x : Slice), die < 2 → unitNext s 1 die x →
    let item := s.embWork die x
    let step := s.get .BEAT_STEP_STEP
    let sub := bits item 36 4
    let q := bits item 8 13
    let bags := s.bags die x.slot step (bits item 4 4)
    let tokens := (bags.map (fun b => match s.table b.table with
      | none => []
      | some t => vecTokens t (poolBag t (s.included die x.slot step t b)))).flatten
    let ended := fun (t : State) => t.slices = ranSlice s 1 die 0
    (bits item 0 4 = 2 → s.hasSub die x item = true → s.emb.fetched.any (s.unanswered die x item) = false →
      (sub < s.topSub die x.slot step → Completes (.embPool die) s (fun t =>
        ended t ∧ Frame s t [.slices] [] [(.mbIssued, x.slot)])) ∧
      (s.topSub die x.slot step ≤ sub → Sparse.get [] s.xport.outbox q = [] → s.consKind q ≠ 5 →
        tokens.length ≤ (s.queue q).credits → Completes (.embPool die) s (fun t =>
          (t.queue q).flight = (s.queue q).flight ++ tokens.map (fun v => (BitVec.ofNat 2048 v, (s.queue q).gen)) ∧
          (t.queue q).credits = (s.queue q).credits - tokens.length ∧ t.mem = s.mem))) ∧
    (bits item 0 4 = 3 → s.hasSub die x item = true →
      (x.slot < 8 → s.var .mbDropped x.slot = 1 → Completes (.embGrad die) s (fun t =>
        ended t ∧ t.emb.basin = s.emb.basin ∧ Sparse.get 0 t.emb.bag die = 0 ∧
        Frame s t [.slices, .emb] [] [(.mbIssued, x.slot)])) ∧
      (∀ b, s.subBatch die x.slot step sub = some b → (8 ≤ x.slot ∨ s.var .mbDropped x.slot ≠ 1) →
        bags.length ≤ Sparse.get 0 s.emb.bag die → (b.keys.map Prod.fst).Nodup → Completes (.embGrad die) s (fun t =>
          ended t ∧ Sparse.get 0 t.emb.bag die = 0 ∧ t.mem = s.mem ∧
          ∀ k ∈ b.keys, s.inGroup k.1 (bits item 4 4) = true →
            let is : BasinRow → Bool := fun r => r.die == die && r.step == step && r.key == k.1
            (t.emb.basin.find? is).map (·.count) =
              some (min (2 ^ 32 - 1) (((s.emb.basin.find? is).map (·.count)).getD 0 + k.2))))) ∧
    (bits item 0 4 = 4 → s.storesRoom = true → Completes (.embPush die) s (fun t =>
      ended t ∧ t.emb.basin = s.emb.basin.filter (fun b =>
        !(b.die == die && b.step == step && s.inGroup b.key (bits item 4 4))) ∧ t.mem = s.mem))

/-- An embedding commit and a sketch clear wait for their boundary; a decay halves the die's counters once at its boundary;
at WAIT_CLK a POOL slice's open requests are answered TIMEOUT. -/
def Claim.EmbeddingControls : Prop :=
  ∀ (s : State) (die : Nat), die < 2 →
    Completes (.embCommit die) s (fun t =>
      t.get .EMB_STATUS_COMMIT_PENDING die = 1 ∧ Frame s t [] [(.EMB_STATUS_COMMIT_PENDING, die)] []) ∧
    Completes (.sketchClear die) s (fun t => t.var .sketchClear die = 1 ∧ Frame s t [] [] [(.sketchClear, die)]) ∧
    (s.running = true → s.get .EMB_HOT_CFG_DECAY_BEATS die ≠ 0 →
      s.get .BEAT_COUNT_COUNT % s.get .EMB_HOT_CFG_DECAY_BEATS die = 0 →
      s.var .decayAt die ≠ s.get .BEAT_COUNT_COUNT + 1 → Sparse.wf 0 s.rows.sketch = true →
      Completes (.sketchDecay die) s (fun t =>
        t.var .decayAt die = s.get .BEAT_COUNT_COUNT + 1 ∧
        (∀ k, Sparse.get 0 t.rows.sketch k =
          if k / 2 ^ 21 = die then Sparse.get 0 s.rows.sketch k / 2 else Sparse.get 0 s.rows.sketch k) ∧
        (s.hotSize die = 0 → Frame s t [.rows] [] [(.decayAt, die)]))) ∧
    (s.running = false ∨ s.get .EMB_HOT_CFG_DECAY_BEATS die = 0 ∨ s.var .decayAt die = s.get .BEAT_COUNT_COUNT + 1 →
      Completes (.sketchDecay die) s (fun t => t = s)) ∧
    (∀ x item, s.embSlice die = some (x, item) → bits item 0 4 = 2 → Completes (.lookupTimeout die) s (fun t =>
      t.emb.fetched = s.emb.fetched.map (fun f => if s.unanswered die x item f then { f with st := 3 } else f) ∧
      t.mem = s.mem))

/-- CLOSE closes its step's merge and ends. APPLY of a step whose norm is known, or which is skipped, gives its lanes their
quota and ends with one operation open for each row; a LAST one is remembered and takes every row that is left. An item
without work ends at once. -/
def Claim.SiltSlices : Prop :=
  ∀ (s : State) (stack : Nat) (x : Slice), stack < 16 → unitNext s 2 stack x →
    let item := s.get .SILT_WORK_ITEM (stack * 64 + x.target % 64)
    let step := s.get .BEAT_STEP_STEP
    let last := item.testBit 4
    let left := (s.silt.combs.filter (fun c => c.stack == stack && c.step == step && c.st == 0)).length
    let n := if last then left else min left (bits item 16 16 * 1024)
    (bits item 0 4 = 0 → s.isClosed stack step = false → s.skipped step = false →
      (∀ h ∈ s.coll.roots, h.issued = false ∨ h.own.isSome = true) → Completes (.siltClose stack) s (fun t =>
        t.slices = ranSlice s 2 stack 0 ∧ t.isClosed stack step = true ∧ t.mergeStep stack = step + 1 ∧
        t.get .SILT_STATUS_PHASE stack = 3 ∧ t.mem = s.mem)) ∧
    (bits item 0 4 = 1 → (s.normOf step).isSome = true ∨ s.skipped step = true →
      (last = true → s.hasLast stack step = false ∧ s.rowsLeft stack step = true) →
      (last = false → Sparse.get 0 s.silt.lastAt stack ≤ Sparse.get 0 s.silt.ended stack) →
      Completes (.siltApply stack) s (fun t =>
        t.slices = ranSlice s 2 stack n ∧ Sparse.get 0 t.silt.quota stack = n ∧
        (last = true → t.hasLast stack step = true) ∧ t.get .SILT_STATUS_PHASE stack = 4 ∧
        Frame s t [.slices, .silt] [(.SILT_STATUS_PHASE, stack)] [(.mbIssued, x.slot)])) ∧
    (2 ≤ bits item 0 4 ∨ (bits item 0 4 = 0 ∧ s.isClosed stack step = true) ∨
        (bits item 0 4 = 1 ∧ last = true ∧ s.hasLast stack step = true) → Completes (.siltEmptyItem stack) s (fun t =>
      t.slices = ranSlice s 2 stack 0 ∧ Frame s t [.slices] [] [(.mbIssued, x.slot)]))

/-- A lane takes a row that is in place and readable, with a stamp before its step: the update stands in the lane's log, at
the row's place and for the row's step, and not yet in memory. A row whose stamp is not before the step is discarded and
counted. The update's end empties the log entry, counts the row and passes its record to Spring. A finished sweep is no
longer busy, and a commit is pending until its boundary. Choices of the model in it: assumptions 28, 31. -/
def Claim.SiltLanes : Prop :=
  ∀ (s : State) (stack : Nat), stack < 16 →
    (∀ lane key wait c t0 p, lane < 32 → s.issuing = true → s.applying stack = true →
      (s.rows.log.filter (fun l => l.stack == stack && l.lane == lane)).length < 16 →
      s.rows.log.any (fun l => l.stack == stack && l.key == key) = false → Sparse.get 0 s.spring.stuck stack ≠ 1 →
      s.silt.combs.find? (fun y => y.stack == stack && y.key == key && y.st == 0) = some c →
      (s.normOf c.step).isSome = true → s.table (keyTable key) = some t0 →
      (s.get .ERR_STATUS_STATE_LOST).testBit stack = false → s.tornRow stack key = false →
      Sparse.get 0 s.rows.listBad (2 * stack) ≠ 2 → s.resolve stack t0 key true = .at p →
      (∀ k ∈ s.hotFind (stackDie stack) key, s.hotBad (stackDie stack) k = false) →
      (linesOf (placeDpa stack t0 key p) (tblSlot t0)).any s.lineBad = false →
      s.sweepTears stack (placeDpa stack t0 key p) = false →
      let stale := hdrUpdated (slotHdr s (placeDpa stack t0 key p)) = true ∧
        c.step ≤ hdrStamp (slotHdr s (placeDpa stack t0 key p))
      (¬stale → Completes (.siltLaneDispatch stack lane key wait) s (fun t =>
        t.rows.log = s.rows.log ++ [⟨stack, lane, key, placeDpa stack t0 key p, c.step, p, false⟩] ∧
        Sparse.get [] t.silt.writing (stack * 2 ^ 64 + key) =
          (s.newSlot stack t0 key c.step c.count c.g (some p)).1 ∧
        Sparse.get 0 t.silt.quota stack = Sparse.get 0 s.silt.quota stack - 1 ∧
        t.get .SILT_LANES_LOG_WAIT stack =
          satAdd Fld.SILT_LANES_LOG_WAIT.width (s.get .SILT_LANES_LOG_WAIT stack) wait ∧ t.mem = s.mem)) ∧
      (stale → Completes (.siltLaneDispatch stack lane key wait) s (fun t =>
        t.rows.log = s.rows.log ∧ Sparse.get 0 t.silt.quota stack = Sparse.get 0 s.silt.quota stack - 1 ∧
        t.get .DRIFT_STATS_DUP_DISCARD stack =
          satAdd Fld.DRIFT_STATS_DUP_DISCARD.width (s.get .DRIFT_STATS_DUP_DISCARD stack) 1))) ∧
    (∀ key l, s.rows.log.find? (fun l => l.stack == stack && l.key == key) = some l →
      ∀ t0, s.table (keyTable key) = some t0 →
      let slot := Sparse.get [] s.silt.writing (stack * 2 ^ 64 + key)
      Completes (.siltUpdateDone stack key) s (fun t =>
        t.rows.log = s.rows.log.filter (fun y => !(y.stack == stack && y.key == key)) ∧
        t.get .SILT_ROWS_APPLIED stack = satAdd Fld.SILT_ROWS_APPLIED.width (s.get .SILT_ROWS_APPLIED stack) 1 ∧
        (slot.length ≤ tblSlot t0 →
          let r := rowRecord 1 s.rank stack l.step key slot
          LinkItem.record r.length (ofLe r) ∈ Sparse.get [] t.spring.link stack))) ∧
    (s.get .SILT_TORN_SWEEP_BUSY stack = 1 → Completes (.tornSweepDone stack) s (fun t =>
      t.get .SILT_TORN_SWEEP_BUSY stack = 0 ∧ t.rows.sweep = s.rows.sweep.filter (fun r => !(r.stack == stack)) ∧
      ((∀ r ∈ s.rows.sweep, r.stack = stack → hdrDirty (slotHdr s r.dpa) = false) →
        t.rows.torn = s.rows.torn ∧ Frame s t [.rows] [(.SILT_TORN_SWEEP_BUSY, stack)] []))) ∧
    (s.get .SILT_TORN_SWEEP_BUSY stack = 0 → Completes (.tornSweepDone stack) s (fun t => t = s)) ∧
    Completes (.siltCommit stack) s (fun t =>
      t.get .SILT_STATUS_COMMIT_PENDING stack = 1 ∧ Frame s t [] [(.SILT_STATUS_COMMIT_PENDING, stack)] [])

/-- A GO of a row that may move is accepted and begins its Drift, and one while a second hash configuration is active, of a
row of no table, or of a TORN row is refused with its code and counted. Choices of the model in it: assumption 98. -/
def Claim.DriftGoes : Prop :=
  ∀ (s : State) (stack rank dest : Nat), stack < 16 →
    let key := s.get .DRIFT_CMD_KEY_KEY stack
    let there := min rank (s.jobN - 1)
    let home := homeModule key s.jobN
    let fields : List (Fld × Nat) := [(.DRIFT_CMD_DEST_RANK, stack), (.DRIFT_CMD_DEST_STACK, stack),
      (.DRIFT_STATUS_LAST_RESULT, stack), (.DRIFT_STATS_REFUSED, stack)]
    let refused := fun (code : Nat) => Completes (.driftGo stack rank dest) s (fun t =>
      t.get .DRIFT_STATUS_LAST_RESULT stack = code ∧
      t.get .DRIFT_STATS_REFUSED stack = satAdd Fld.DRIFT_STATS_REFUSED.width (s.get .DRIFT_STATS_REFUSED stack) 1 ∧
      Frame s t [] fields [])
    let may := fun (t0 p : Nat) => s.prevN = none ∧ s.table (keyTable key) = some t0 ∧ s.resolve stack t0 key true = .at p ∧
      tblDrift t0 = true ∧ ¬(there = s.rank ∧ dest % 16 = stack) ∧ (s.rank = home ∨ there = home) ∧
      locLeaving (s.dmLoc stack key) = false ∧ s.rows.drifts.any (isDrift stack key) = false
    (∀ t0 p, may t0 p → s.tornRow stack key = false →
      (s.rows.drifts.filter (fun d => d.stack == stack && d.cause == 0)).length < 64 →
      16 ≤ p ∨ (s.dmWayFor stack key).isSome = true → Completes (.driftGo stack rank dest) s (fun t =>
        t.rows.drifts = s.rows.drifts ++
          [{ stack := stack, key := key, rank := there, dest := dest % 16, place := p, stage := 0 }] ∧
        t.get .DRIFT_STATUS_LAST_RESULT stack = 1 ∧ Frame s t [.rows] fields [])) ∧
    (s.prevN.isSome = true → refused 6) ∧ (s.prevN = none → s.table (keyTable key) = none → refused 2) ∧
    (∀ t0 p, may t0 p → s.tornRow stack key = true → refused 5)

/-- The stages of a Drift at the boundaries, in the state that clk 0 leaves: LEAVING sends the row's copy, or waits for an
update in flight; SWITCH hands the row over; the destination installs the row when it is switched; the old place is freed
and the move counted. A copy without an answer for 64 beats abandons its move. -/
def Claim.DriftMoves : Prop :=
  ∀ (s : State) (stack key : Nat), stack < 16 →
    let s1 := clkOne s
    let beat := s1.get .BEAT_COUNT_COUNT
    let at' := fun (l : List DriftSrc) (f : DriftSrc → DriftSrc) => l.map (fun d => if isDrift stack key d then f d else d)
    (∀ d, s1.rows.drifts.find? (isDrift stack key) = some d → ∀ t0, s1.table (keyTable key) = some t0 → d.stage = 0 →
      let dpa := placeDpa stack t0 key d.place
      let busy := s1.rows.log.any (fun l => l.stack == stack && l.key == key)
      (busy = true → d.met = false → Completes (.driftLeaving stack key) s (fun t =>
        t.rows = { s1.rows with drifts := at' s1.rows.drifts (fun x => { x with met := true }) } ∧
        t.get .SILT_LANES_CONFLICT_WAIT stack =
          satAdd Fld.SILT_LANES_CONFLICT_WAIT.width (s1.get .SILT_LANES_CONFLICT_WAIT stack) 1 ∧ t.mem = s1.mem)) ∧
      (busy = false → 16 ≤ d.place ∨ (s1.dmWayFor stack key).isSome = true → s1.hotFind (stackDie stack) key = none →
        s1.sweepTears stack dpa = false → (linesOf dpa (tblSlot t0)).any s1.lineBad = false →
        Completes (.driftLeaving stack key) s (fun t =>
          t.rows.drifts = at' s1.rows.drifts (fun x => { x with stage := 1, beat := beat }) ∧ t.mem = s1.mem))) ∧
    (∀ d, s1.rows.drifts.find? (isDrift stack key) = some d → d.stage = 2 → Completes (.driftSwitch stack key) s (fun t =>
      t.rows.drifts = at' s1.rows.drifts (fun x =>
        { x with stage := if d.rank = s1.rank then 4 else 3, free := beat + 1 }))) ∧
    (∀ a, s1.rows.arrivals.find? (fun a => isArrival stack key a && a.switch) = some a →
      ∀ t0, s1.table (keyTable key) = some t0 → Completes (.driftInstall stack key) s (fun t =>
        t.rows.arrivals = s1.rows.arrivals.filter (fun y => !isArrival stack key y))) ∧
    (∀ d, s1.rows.drifts.find? (isDrift stack key) = some d → ∀ t0, s1.table (keyTable key) = some t0 → d.stage = 4 →
      d.free ≤ beat → Completes (.driftFree stack key) s (fun t =>
        t.rows.drifts = s1.rows.drifts.filter (fun y => !isDrift stack key y) ∧
        (d.place < 16 → Wrote s1 t (bucketDpa stack t0 key + 8 * d.place) (leBytes 8 0)) ∧
        (d.cause = 0 → t.get .DRIFT_STATS_DONE stack =
          satAdd Fld.DRIFT_STATS_DONE.width (s1.get .DRIFT_STATS_DONE stack) 1) ∧
        (d.cause = 1 → t.get .COLL_PERM_MOVED = satAdd Fld.COLL_PERM_MOVED.width (s1.get .COLL_PERM_MOVED) 1) ∧
        (2 ≤ d.cause → t.get .ERR_RETIRE_STATS_MOVED =
          satAdd Fld.ERR_RETIRE_STATS_MOVED.width (s1.get .ERR_RETIRE_STATS_MOVED) 1))) ∧
    (∀ d, s.rows.drifts.find? (isDrift stack key) = some d → d.stage = 1 →
      (d.beat + 64 ≤ s.get .BEAT_COUNT_COUNT → Completes (.driftCopyTimeout stack key) s (fun t =>
        t.rows.drifts = at' s.rows.drifts (fun x => { x with stage := 9 }) ∧
        (d.cause = 0 → t.get .DRIFT_STATS_ABORTED stack =
          satAdd Fld.DRIFT_STATS_ABORTED.width (s.get .DRIFT_STATS_ABORTED stack) 1) ∧ t.mem = s.mem)) ∧
      (s.get .BEAT_COUNT_COUNT < d.beat + 64 → Completes (.driftCopyTimeout stack key) s (fun t => t = s)))

/-- Embedding slices and controls: work items take effect and controls do what their registers name. -/
def Obligations.EmbeddingWork : Prop := Claim.CoalesceAndFetch ∧ Claim.PoolGradAndPush ∧ Claim.EmbeddingControls

/-- Silt slices and lanes: merges, norms and row updates follow their work items and steps. -/
def Obligations.SiltWork : Prop := Claim.SiltSlices ∧ Claim.SiltLanes

/-- A Drift goes through its stages: GO, copy, switch, drain and finish, or is abandoned. -/
def Obligations.DriftStages : Prop := Claim.DriftGoes ∧ Claim.DriftMoves

/-! Spring, its sinks and the last gasp. -/

/-- Item of a Silt engine's link. A notice counts in its step's cut. A ROW record with room and no window is appended: the
next SEQ, its bytes at its place, counted in its cut; it stays in the ring while an enabled pair has not acknowledged it, or
none is enabled. In a window it replaces the record of its row held for that window, or is held where the buffer has room,
and takes no SEQ; with the buffer full it asks for the window's close and is appended. A Drift record whose row is not held is
appended under the current step. A record that finds no room stays and holds its emitter. An empty link passes nothing.
Choices of the model in it: assumption 45. -/
def Claim.SpringTakesLinkItems : Prop :=
  ∀ (s : State) (e wait : Nat), e < 16 → Sparse.get [] s.spring.link 16 = [] →
    let own := [(Fld.SPRING_STATUS_BACKPRESSURE, 0), (.TIER_CLASS_EVENTS_OUTCOME, 7 * 256)]
    let popped := fun (t : State) rest => Sparse.get [] t.spring.link e = rest
    let next := s.get .SPRING_SEQ_NEXT_SEQ
    (Sparse.get [] s.spring.link e = [] → Completes (.springRecord e wait) s (fun t =>
      t.spring = { s.spring with stuck := Sparse.set 0 s.spring.stuck e 0 } ∧ Frame s t [.spring] own [])) ∧
    (∀ step skip n rest, Sparse.get [] s.spring.link e = .notice step skip n :: rest →
      Completes (.springRecord e wait) s (fun t =>
        popped t rest ∧ (t.cut step).notes = (s.cut step).notes + 1 ∧
        (t.cut step).skips = (s.cut step).skips + b2n skip ∧ t.spring.ring = s.spring.ring ∧ Frame s t [.spring] own [])) ∧
    (∀ len val rest, Sparse.get [] s.spring.link e = .record len val :: rest → 48 ≤ len →
      let bs := leBytes len val
      let step := fieldOf bs 16 8 % 2 ^ 44
      let window := decide (1 < s.get .SPRING_COALESCE_W ∧ s.var .lgPhase < 2)
      let same := s.sameHeld (fieldOf bs 32 8) 0 step
      let appended := fun (t : State) a (x : List Nat) =>
        popped t rest ∧ t.get .SPRING_SEQ_NEXT_SEQ = (next + 1) % 2 ^ 64 ∧ t.spring.head = a + len ∧
        t.mem = (s.run (writeMem a (s.sealed x) s)).mem
      (∀ a, s.ringPlace len = some (0, a) → bs.getD 0 0 = 1 → window = false → Completes (.springRecord e wait) s (fun t =>
        appended t a bs ∧ (t.cut step).rows = (s.cut step).rows + 1 ∧
        (s.enabledPairs = [] ∨ (∃ p ∈ s.enabledPairs, s.pairAck p ≤ next) → ⟨next, a, len, 1, step⟩ ∈ t.spring.ring))) ∧
      (bs.getD 0 0 = 1 → window = true → s.spring.held.any same = true → Completes (.springRecord e wait) s (fun t =>
        popped t rest ∧ t.spring.ring = s.spring.ring ∧
        t.spring.held = s.spring.held.map (fun h => if same h then
          ⟨fieldOf bs 32 8, 0, true, len, ofLe (bs.take 1 ++ [1] ++ bs.drop 2)⟩ else h) ∧
        t.get .SPRING_COALESCE_MERGED = satAdd Fld.SPRING_COALESCE_MERGED.width (s.get .SPRING_COALESCE_MERGED) 1 ∧
        Frame s t [.spring] ((.SPRING_COALESCE_MERGED, 0) :: own) [])) ∧
      (bs.getD 0 0 = 1 → window = true → s.spring.held.any same = false → s.heldBytes + len ≤ s.coalSize →
        Completes (.springRecord e wait) s (fun t =>
          popped t rest ∧ t.spring.ring = s.spring.ring ∧
          t.spring.held = s.spring.held ++ [⟨fieldOf bs 32 8, 0, false, len, ofLe bs⟩] ∧ Frame s t [.spring] own [])) ∧
      (∀ a, s.ringPlace len = some (0, a) → bs.getD 0 0 = 1 → window = true → s.spring.held.any same = false →
        s.coalSize < s.heldBytes + len → Completes (.springRecord e wait) s (fun t =>
          appended t a bs ∧
          t.spring.closeAt = (if s.spring.closeAt = 0 then s.get .BEAT_STEP_STEP + 1 else s.spring.closeAt))) ∧
      (∀ a, s.ringPlace len = some (0, a) → 2 ≤ bs.getD 0 0 → bs.getD 0 0 ≤ 4 →
        s.spring.held.any (fun h => h.key == fieldOf bs 32 8 && h.first == 0) = false →
        Completes (.springRecord e wait) s (fun t =>
          appended t a (s.stampNow bs) ∧
          let now := s.get .BEAT_STEP_STEP % 2 ^ 44
          (t.cut now).drift = (s.cut now).drift + 1)) ∧
      (bs.getD 0 0 = 1 → window = false → s.ringPlace len = none → Completes (.springRecord e wait) s (fun t =>
        t.stuck e = true ∧ t.get .SPRING_STATUS_BACKPRESSURE = 1 ∧ t.spring.ring = s.spring.ring ∧
        t.spring.link = s.spring.link ∧
        (s.stuck e = false → t.get .TIER_CLASS_EVENTS_FULL (7 * 256) =
          satAdd Fld.TIER_CLASS_EVENTS_FULL.width (s.get .TIER_CLASS_EVENTS_FULL (7 * 256)) 1) ∧
        Frame s t [.spring] ((.TIER_CLASS_EVENTS_FULL, 7 * 256) :: own) []))) ∧
    (∀ q : Nat, ∀ (tok : Token) (ts : List Token), (s.queue q).buf = tok :: ts → s.consKind q = 3 →
      Sparse.get {} s.spring.dense q = {} → (leBytes 256 tok.toNat).getD 0 0 = 0x0E →
      fieldOf (leBytes 256 tok.toNat) 4 4 = 32 → Completes (.springRecord (17 + q) wait) s (fun t =>
        let step := fieldOf (leBytes 256 tok.toNat) 16 8 % 2 ^ 44
        (t.queue q).buf = ts ∧ (t.cut step).ends = (s.cut step).ends + 1 ∧ t.spring.ring = s.spring.ring ∧ t.mem = s.mem))

/-- Spring closes its next step only once that is complete. Inside a window it counts it; at the window's end, with nothing
held for the window, it appends a MARK or SKIP with the next SEQ, which the marked registers then show, and the next window
begins; without room it waits. A step that some Silt engines skip and others do not raises MIXED_SKIP when it is closed. -/
def Claim.SpringMarksSteps : Prop :=
  ∀ s : State, let step := s.spring.markNext
    let n := s.get .SPRING_COALESCE_POSITION + 1
    let w := s.get .SPRING_COALESCE_W
    let asked := s.spring.closeAt ≠ 0 ∧ s.spring.closeAt ≤ step + 1
    let skips := (s.cut step).skips
    let mixed := 0 < skips ∧ skips < 16
    (s.cutDone step = false → Completes .springMark s (fun t => t = s)) ∧
    (s.cutDone step = true → n < 64 → n < w → ¬asked → Completes .springMark s (fun t =>
      t.get .SPRING_COALESCE_POSITION = n ∧ t.spring = { s.spring with markNext := step + 1 } ∧
      (mixed → t.get .SPRING_STATUS_MIXED_SKIP = 1) ∧ (¬mixed → Frame s t [.spring] [(.SPRING_COALESCE_POSITION, 0)] []))) ∧
    (s.cutDone step = true → w ≤ n ∨ asked → s.heldOrder step = [] →
      (∀ a, s.ringPlace 96 = some (0, a) → Completes .springMark s (fun t =>
        t.get .SPRING_SEQ_NEXT_SEQ = (s.get .SPRING_SEQ_NEXT_SEQ + 1) % 2 ^ 64 ∧
        t.mem = (s.run (writeMem a (s.sealed (markRecord s (decide (16 ≤ skips)) step n
          (if w ≤ n then 0 else s.spring.closeWhy))) s)).mem ∧
        t.get .SPRING_MARKED_STEP = step % 2 ^ 44 ∧ t.get .SPRING_MARKED_VALID = 1 ∧
        t.get .SPRING_MARKED_SKIPPED = (if 16 ≤ skips then 1 else 0) ∧
        t.get .SPRING_COALESCE_POSITION = 0 ∧ t.get .SPRING_COALESCE_W = s.windowPolicy ∧
        (n < w → t.get .SPRING_COALESCE_EARLY = satAdd Fld.SPRING_COALESCE_EARLY.width (s.get .SPRING_COALESCE_EARLY) 1) ∧
        t.spring.markNext = step + 1 ∧ t.spring.head = a + 96 ∧ (mixed → t.get .SPRING_STATUS_MIXED_SKIP = 1))) ∧
      (s.ringPlace 96 = none → Completes .springMark s (fun t =>
        t.stuck 16 = true ∧ t.get .SPRING_STATUS_BACKPRESSURE = 1 ∧ t.spring.markNext = step ∧
        Frame s t [.spring] [(.SPRING_STATUS_BACKPRESSURE, 0)] [])))

/-- Spring sends an active member whose connection takes it its next record and goes on to the one after it; the ring, the
acknowledgements and memory stay. On a GT sink with credit and nothing waiting, a record of one frame goes out under the
connection's next sequence number with the record's bytes. A record with a line that cannot be read halts the emit channel at
that line. A sink without a next record, or that may take none, gets nothing. -/
def Claim.SpringStreamsRecords : Prop :=
  ∀ (s : State) (k : Nat),
    (∀ r, s.nextRecord k = some r → s.canStream k r = true →
      ((linesOf r.addr r.len).find? s.lineBad = none → Completes (.springStream k) s (fun t =>
        (t.sink k).next = r.seq + 1 ∧ (t.sink k).sent = max (s.sink k).sent (r.seq + 1) ∧
        t.spring.ring = s.spring.ring ∧ t.mem = s.mem ∧
        (∀ j, t.get .SPRING_SINK_ACKED_SEQ j = s.get .SPRING_SINK_ACKED_SEQ j) ∧
        (s.sinkRoce k = false → s.var .lgPhase < 3 → 0 < r.len → r.len ≤ 8960 →
          (s.conn (s.sinkEp k) 0).wait = [] → serialBefore (s.conn (s.sinkEp k) 0).next (s.conn (s.sinkEp k) 0).credit = true →
          ∃ x, (t.conn (s.sinkEp k) 0).unacked = (s.conn (s.sinkEp k) 0).unacked ++ [x] ∧
            x = { seq := (s.conn (s.sinkEp k) 0).next, body := x.body } ∧ x.body.op = 0x40 ∧ x.body.arg0 = r.seq ∧
            x.body.arg1 = 0 ∧ x.body.payload = s.bytesAt r.addr r.len))) ∧
      (∀ l, (linesOf r.addr r.len).find? s.lineBad = some l → Completes (.springStream k) s (fun t =>
        t.get .ERR_DMA_STATE_HALTED 0 = 1 ∧ t.spring = { s.spring with emitHalt := r.seq + 1 } ∧ t.mem = s.mem ∧
        t.xport = s.xport))) ∧
    ((s.nextRecord k).all (fun r => !s.canStream k r) = true →
      Completes (.springStream k) s (fun t => t = s))

/-- A sink acknowledges in SINK_ACK, or for a RoCEv2 sink the controller in SPRING_SINK_ACK. One of a record never sent is a
violation and acknowledges nothing. Any other that goes beyond what the sink has acknowledged in its incarnation stands, raises
ACKED_SEQ if it is higher, and releases what every enabled pair has acknowledged; a frame's incarnation is taken over, and
counted if it follows another. Choices of the model in it: assumptions 46, 49. -/
def Claim.SinkAcknowledgements : Prop :=
  ∀ (s : State) (k q : Nat),
    let stands := fun (t : State) =>
      (t.sink k).incAck = q + 1 ∧
      t.get .SPRING_SINK_ACKED_SEQ k = (if s.ackOf k < q + 1 then q else s.get .SPRING_SINK_ACKED_SEQ k) ∧
      t.spring.ring = s.spring.ring.filter (fun r => !(r.seq < (if t.enabledPairs.isEmpty then 0 else
        (t.enabledPairs.map t.pairAck).foldl min (t.get .SPRING_SEQ_NEXT_SEQ)))) ∧ t.mem = s.mem
    let violates := fun (t : State) =>
      t.get .SPRING_SINK_ACKED_SEQ k = s.get .SPRING_SINK_ACKED_SEQ k ∧ t.spring.ring = s.spring.ring ∧
      t.get .XPORT_VIOL_COUNT = satAdd Fld.XPORT_VIOL_COUNT.width (s.get .XPORT_VIOL_COUNT) 1 ∧ t.mem = s.mem
    (∀ f, inOrderFrame s f → f.body.op = 0x41 → s.epSink f.ep = some k → fieldOf f.body.payload 0 8 = q → q < u64max →
      let inc := fieldOf f.body.payload 8 8
      ((s.sink k).sent ≤ q → Completes (.sinkAck f) s violates) ∧
      (q < (s.sink k).sent → (s.sink k).inc ≠ inc + 1 ∨ (s.sink k).incAck ≤ q + 1 → Completes (.sinkAck f) s (fun t =>
        stands t ∧ (t.sink k).inc = inc + 1 ∧
        ((s.sink k).inc ≠ inc + 1 → t.get .SPRING_SINK_STATE_INCARNATION k = inc % 2 ^ 48) ∧
        ((s.sink k).inc ≠ 0 → (s.sink k).inc ≠ inc + 1 → t.get .SPRING_SINK_STATS_INCARNATIONS k =
          satAdd Fld.SPRING_SINK_STATS_INCARNATIONS.width (s.get .SPRING_SINK_STATS_INCARNATIONS k) 1))) ∧
      (q < (s.sink k).sent → (s.sink k).inc = inc + 1 → q + 1 < (s.sink k).incAck → Completes (.sinkAck f) s (fun t =>
        t.spring = s.spring ∧ t.mem = s.mem ∧ t.get .SPRING_SINK_ACKED_SEQ k = s.get .SPRING_SINK_ACKED_SEQ k))) ∧
    (s.get .SPRING_SINK_SEL_SINK = k → q < u64max →
      (s.sinkRoce k = false ∨ s.sinkSt k = 0 → Completes (.springSinkAckWrite q) s (fun t => t = s)) ∧
      (s.sinkRoce k = true → s.sinkSt k ≠ 0 → (s.sink k).sent ≤ q → Completes (.springSinkAckWrite q) s violates) ∧
      (s.sinkRoce k = true → s.sinkSt k ≠ 0 → q < (s.sink k).sent → (s.sink k).incAck ≤ q + 1 →
        Completes (.springSinkAckWrite q) s stands))

/-- An active sink with records outstanding and no progress for ACK_TIMEOUT beats is due to fail; any other is not. At its
boundary a sink that is due is FAILED and the pair's standby member with its connection up takes over from what the pair has
acknowledged, which counts for both; without one the pair has no active member. A sink that is not due stays.
Choices of the model in it: assumption 82. -/
def Claim.SinkFailure : Prop :=
  ∀ (s : State) (k : Nat),
    let p := s.pairId k
    let late := k < 8 ∧ s.sinkSt k = 2 ∧ s.get .SPRING_CFG_ACK_TIMEOUT ≠ 0 ∧ s.pairAck p < (s.sink k).next ∧
      (s.sink k).beat + s.get .SPRING_CFG_ACK_TIMEOUT ≤ s.get .BEAT_COUNT_COUNT
    let down := fun (t : State) => t.get .SPRING_STATUS_PAIR_DOWN = b2n (t.enabledPairs.any (fun p => (t.activeOf p).isNone))
    (late → Completes (.sinkAckTimeout k) s (fun t => (t.sink k).due = 1 ∧ Frame s t [.spring] [] [])) ∧
    (¬late → Completes (.sinkAckTimeout k) s (fun t => t = s)) ∧
    ((s.sink k).due = 1 → s.sinkSt k = 1 ∨ s.sinkSt k = 2 →
      let other := (s.members p).find? (fun j => s.sinkSt j == 3 && s.sinkUp j)
      (∀ j, other = some j → Completes (.sinkFailover k) s (fun t =>
        t.sinkSt k = 4 ∧ t.sinkSt j = 2 ∧ (t.sink k).due = 0 ∧ down t ∧
        (t.sink j).next = (if (s.sink j).whole then s.get .SPRING_SEQ_RETAINED_SEQ
          else max (s.pairAck p) (s.get .SPRING_SEQ_RETAINED_SEQ)) ∧
        (∀ m ∈ s.members p, t.get .SPRING_SINK_STATS_FAILOVERS m =
          satAdd Fld.SPRING_SINK_STATS_FAILOVERS.width (s.get .SPRING_SINK_STATS_FAILOVERS m) 1) ∧ t.mem = s.mem)) ∧
      (other = none → Completes (.sinkFailover k) s (fun t =>
        t.sinkSt k = 4 ∧ (t.sink k).due = 0 ∧ down t ∧ (∀ j, j ≠ k → t.sinkSt j = s.sinkSt j) ∧ t.mem = s.mem))) ∧
    ((s.sink k).due ≠ 1 → Completes (.sinkFailover k) s (fun t => t = s))

/-- Spring's controls. COMMIT pends. CLOSE_WINDOW asks for the window's end at the step's end, unless that is asked for. SWAP
of a STANDBY or FAILED sink that is up, and a turn of a declared pair, wait for the boundary; the last enabled pair is not
disabled. Reconnection, refused while a sink is up or connecting, brings a lone RoCEv2 sink back as active. EPOCH in STOPPED
empties the journal; elsewhere it is ignored. -/
def Claim.SpringControls : Prop :=
  ∀ s : State, let k := s.get .SPRING_SINK_SEL_SINK
    let p := s.pairId k
    Completes .springCommit s (fun t =>
      t.get .SPRING_STATUS_COMMIT_PENDING = 1 ∧ Frame s t [] [(.SPRING_STATUS_COMMIT_PENDING, 0)] []) ∧
    (s.spring.closeAt = 0 → Completes .closeWindow s (fun t =>
      t.spring = { s.spring with closeAt := s.get .BEAT_STEP_STEP + 1, closeWhy := 3 } ∧ Frame s t [.spring] [] [])) ∧
    (s.spring.closeAt ≠ 0 → Completes .closeWindow s (fun t => t = s)) ∧
    (s.sinkSt k = 3 ∨ s.sinkSt k = 4 → s.sinkUp k = true → Completes .sinkSwap s (fun t =>
      (t.sink k).due = 2 ∧ Frame s t [.spring] [] [])) ∧
    ((s.sinkSt k ≠ 3 ∧ s.sinkSt k ≠ 4) ∨ s.sinkUp k = false → Completes .sinkSwap s (fun t => t = s)) ∧
    (s.sinkSt p ≠ 0 → Completes .pairEnable s (fun t =>
      t.spring = { s.spring with turn := Sparse.set 0 s.spring.turn p 1 } ∧ Frame s t [.spring] [] [])) ∧
    (s.sinkSt p = 0 → Completes .pairEnable s (fun t => t = s)) ∧
    (s.sinkSt p ≠ 0 → s.enabledPairs ≠ [p] → Completes .pairDisable s (fun t =>
      t.spring = { s.spring with turn := Sparse.set 0 s.spring.turn p 2 } ∧ Frame s t [.spring] [] [])) ∧
    (s.sinkSt p = 0 ∨ s.enabledPairs = [p] → Completes .pairDisable s (fun t => t = s)) ∧
    ((List.range 8).any (fun j => s.sinkSt j != 0 && (s.sinkUp j || s.sinkSt j == 1)) = true →
      Completes .sinksReconnect s (fun t => t = s)) ∧
    (∀ j, (List.range 8).filter (fun i => s.sinkSt i != 0) = [j] → s.sinkRoce j = true → s.get .XPORT_ROCE_QP_STATE j = 0 →
      s.get .SPRING_SINK_STATE_PAIR j = 255 → s.pairOn j = true → s.sinkSt j ≠ 1 → Completes .sinksReconnect s (fun t =>
        t.sinkSt j = 2 ∧ t.get .XPORT_ROCE_QP_STATE j = 1 ∧
        t.get .XPORT_ROCE_QP_NEXT_PSN j = s.get .XPORT_ROCE_QP_START_PSN j % 2 ^ 24 ∧ t.var .sinksHeld = 0)) ∧
    (∀ v, v < 2 ^ 32 → s.stopped = true → Completes (.springEpochWrite v) s (fun t =>
      t.get .SPRING_EPOCH_EPOCH = v ∧ t.get .SPRING_SEQ_NEXT_SEQ = 0 ∧ t.get .SPRING_SEQ_RETAINED_SEQ = 0 ∧
      t.spring.ring = [] ∧ t.spring.held = [] ∧ t.spring.cuts = [] ∧ t.spring.past = [] ∧
      t.get .SPRING_MARKED_VALID = 0 ∧ t.get .SPRING_DURABLE_VALID = 0 ∧ t.get .SPRING_STATUS_RING_HIGH = 0 ∧
      (∀ j, j < 8 → t.get .SPRING_SINK_ACKED_SEQ j = u64max) ∧ (∀ j, (t.sink j).next = 0 ∧ (t.sink j).sent = 0) ∧
      t.mem = s.mem ∧ t.out = s.out)) ∧
    (∀ v, s.stopped = false → Completes (.springEpochWrite v) s (fun t => t = s))

/-- A loss of input while the module is powered and no loss is under way shows its voltage; with firmware serving and the
module not stopped the last gasp begins, and otherwise the rails fall at once. Its stop abandons the coalescing buffer, its
flush begins with the flush pair, and it ends by budget, exhaustion or clk 1,440,000: LAST_GASP joins the ring if it has room,
and the rails fall. Each acts in its phase alone. Choices of the model in it: assumption 71. -/
def Claim.LastGasp : Prop :=
  ∀ s : State,
    (∀ mv, mv < 2 ^ 16 → s.var .unpowered ≠ 1 → s.var .lgPhase = 0 → s.var .railsOff ≠ 1 → Completes (.inputLoss mv) s (fun t =>
      t.get .PWR_STATUS_INPUT_OK = 0 ∧ t.get .PWR_INPUT_MV = mv ∧ t.mem = s.mem ∧
      (s.flushes = true → t.var .lgPhase = 1 ∧ t.get .PWR_STATUS_STATE = 2) ∧
      (s.flushes = false → t.var .railsOff = 1 ∧ t.var .pwrOk = 0))) ∧
    (∀ mv, s.var .unpowered = 1 ∨ s.var .lgPhase ≠ 0 ∨ s.var .railsOff = 1 →
      Completes (.inputLoss mv) s (fun t => t = s)) ∧
    (s.var .lgPhase = 1 → Completes .lastGaspStop s (fun t =>
      t.var .lgPhase = 2 ∧ t.spring = { s.spring with held := [] } ∧ Frame s t [.spring] [] [(.lgPhase, 0)])) ∧
    (s.var .lgPhase ≠ 1 → Completes .lastGaspStop s (fun t => t = s)) ∧
    (s.var .lgPhase = 2 → Completes .lastGaspFlush s (fun t =>
      t.var .lgPhase = 3 ∧ t.var .lgSent = 0 ∧
      t.var .lgPair = (match s.flushPair with | some p => p + 1 | none => 0) ∧
      Frame s t [] [] [(.lgPhase, 0), (.lgSent, 0), (.lgPair, 0)])) ∧
    (s.var .lgPhase ≠ 2 → Completes .lastGaspFlush s (fun t => t = s)) ∧
    (∀ clk, s.var .lgPhase = 3 → (s.gaspDone = true ∨ 1440000 ≤ clk) → Completes (.lastGaspEnd clk) s (fun t =>
      t.var .lgPhase = 4 ∧ t.var .railsOff = 1 ∧ t.var .pwrOk = 0 ∧
      (∀ a, s.ringPlace 48 = some (0, a) → t.get .SPRING_SEQ_NEXT_SEQ = (s.get .SPRING_SEQ_NEXT_SEQ + 1) % 2 ^ 64 ∧
        t.mem = (s.run (writeMem a (s.sealed (gaspRecord s)) s)).mem))) ∧
    (∀ clk, s.var .lgPhase ≠ 3 ∨ (s.gaspDone = false ∧ clk < 1440000) → Completes (.lastGaspEnd clk) s (fun t => t = s))

/-- Queue pair of a sink. An ACK frees what it covers; an RNR NAK counts and makes the pair wait, and a sequence error NAK
counts a retry and goes back, each until seven have passed without progress; then, and at a fatal NAK, the pair fails. A
request or CNP is discarded and counted; a response of no outstanding packet changes nothing. A timeout counts a retry and
goes back, or fails. QP_READY with its new PSN and ROCE_REARM with START_PSN start a pair that waits to be rearmed.
Choices of the model in it: assumption 48. -/
def Obligations.RoceQueuePairs : Prop :=
  ∀ (s : State) (k : Nat), k < 8 →
    let counts := fun (t : State) (f : Fld) => t.get f k = satAdd f.width (s.get f k) 1
    let fails := fun (t : State) psn => t.get .XPORT_ROCE_QP_STATE k = 3 ∧ (t.qp k).out = [] ∧
      t.get .XPORT_ROCE_QP_START_PSN k = (psn + 2 ^ 23) % 2 ^ 24 ∧ counts t .XPORT_ROCE_STATS_ERRORS ∧ t.mem = s.mem
    let rest := fun psn => (s.qp k).out.dropWhile (fun p => p.psn != psn)
    (∀ kind psn, 4 ≤ kind → Completes (.roceResponse k kind psn) s (fun t =>
      counts t .XPORT_ROCE_STATS_DISCARDED ∧ Frame s t [] [(.XPORT_ROCE_STATS_DISCARDED, k)] [])) ∧
    (∀ kind psn, kind ≤ 3 → s.get .XPORT_ROCE_QP_STATE k ≠ 1 ∨ (s.qp k).out.any (fun p => p.psn == psn) = false →
      Completes (.roceResponse k kind psn) s (fun t => t = s)) ∧
    (∀ psn, s.get .XPORT_ROCE_QP_STATE k = 1 → (s.qp k).out.any (fun p => p.psn == psn) = true →
      Completes (.roceResponse k 0 psn) s (fun t =>
        t.qp k = { (s.qp k) with out := (rest psn).drop 1, tries := 0, rnr := 0, wait := false } ∧ Frame s t [.xport] [] []) ∧
      ((s.qp k).rnr < 7 → Completes (.roceResponse k 1 psn) s (fun t =>
        t.qp k = { (s.qp k) with out := rest psn, rnr := (s.qp k).rnr + 1, wait := true } ∧
        counts t .XPORT_ROCE_STATS_RNR ∧ Frame s t [.xport] [(.XPORT_ROCE_STATS_RNR, k)] [])) ∧
      (7 ≤ (s.qp k).rnr → Completes (.roceResponse k 1 psn) s (fun t => fails t psn)) ∧
      ((s.qp k).tries < 7 → Completes (.roceResponse k 2 psn) s (fun t =>
        t.qp k = { (s.qp k) with out := rest psn, tries := (s.qp k).tries + 1 } ∧
        counts t .XPORT_ROCE_STATS_RETRIES ∧ t.mem = s.mem)) ∧
      (7 ≤ (s.qp k).tries → Completes (.roceResponse k 2 psn) s (fun t => fails t psn)) ∧
      Completes (.roceResponse k 3 psn) s (fun t => fails t psn)) ∧
    (∀ p ps, (s.qp k).out = p :: ps → s.get .XPORT_ROCE_QP_STATE k = 1 →
      ((s.qp k).wait = true → Completes (.roceRetryTimeout k) s (fun t =>
        t.qp k = { (s.qp k) with wait := false } ∧ counts t .XPORT_ROCE_STATS_RETRIES ∧ t.mem = s.mem)) ∧
      ((s.qp k).wait = false → (s.qp k).tries < 7 → Completes (.roceRetryTimeout k) s (fun t =>
        t.qp k = { (s.qp k) with tries := (s.qp k).tries + 1 } ∧ counts t .XPORT_ROCE_STATS_RETRIES ∧ t.mem = s.mem)) ∧
      ((s.qp k).wait = false → 7 ≤ (s.qp k).tries → Completes (.roceRetryTimeout k) s (fun t => fails t p.psn))) ∧
    (s.get .XPORT_ROCE_QP_STATE k ≠ 1 ∨ (s.qp k).out = [] → Completes (.roceRetryTimeout k) s (fun t => t = s)) ∧
    (∀ f, inOrderFrame s f → f.body.op = 0x43 → s.epSink f.ep = some k →
      let psn := fieldOf f.body.payload 0 4 % 2 ^ 24
      (s.get .XPORT_ROCE_QP_STATE k = 3 → Completes (.qpReady f) s (fun t =>
        t.get .XPORT_ROCE_QP_STATE k = 1 ∧ t.get .XPORT_ROCE_QP_START_PSN k = psn ∧
        t.get .XPORT_ROCE_QP_NEXT_PSN k = psn ∧ (t.qp k).out = [] ∧ t.mem = s.mem)) ∧
      (s.get .XPORT_ROCE_QP_STATE k ≠ 3 → Completes (.qpReady f) s (fun t =>
        t.get .XPORT_ROCE_QP_STATE k = s.get .XPORT_ROCE_QP_STATE k ∧ t.spring = s.spring ∧ t.mem = s.mem))) ∧
    (s.get .XPORT_ROCE_SEL_SINK = k →
      (s.get .XPORT_ROCE_QP_STATE k = 3 → Completes .roceRearm s (fun t =>
        t.get .XPORT_ROCE_QP_STATE k = 1 ∧ t.get .XPORT_ROCE_QP_NEXT_PSN k = s.get .XPORT_ROCE_QP_START_PSN k % 2 ^ 24 ∧
        (t.qp k).out = [] ∧ t.mem = s.mem)) ∧
      (s.get .XPORT_ROCE_QP_STATE k ≠ 3 → Completes .roceRearm s (fun t => t = s)))

/-- A refill record that comes whole in one frame, with none under way on its connection. With a bad HCRC it is malformed and a
violation. A PLACE record of a row at home here is accepted: KIND 0 frees the row's MOVED entry, KIND 1 sets it where its set
has a way. One of a row at home elsewhere is refused. None writes memory. -/
def Claim.RefillRecords : Prop :=
  ∀ (s : State) (f : GtFrame), inOrderFrame s f → f.body.op = 0x42 →
    let bs := f.body.payload
    let i := connIdx f.ep f.ch
    let r := Sparse.get {} s.spring.refill i
    let routed := fun (t : State) (c : Fld) => (Sparse.get {} t.spring.refill i).number = r.number + 1 ∧
      (Sparse.get {} t.spring.refill i).bytes = [] ∧ t.get c = satAdd c.width (s.get c) 1 ∧ t.mem = s.mem
    bs.length = 48 → fieldOf bs 4 4 = 48 → f.body.arg1 = 0 → r.bytes = [] → r.number = f.body.arg0 →
    (crc32c (bs.take 28) ≠ fieldOf bs 28 4 → Completes (.refill f) s (fun t =>
      routed t .SPRING_REFILL_MALFORMED ∧ t.rows = s.rows ∧
      t.get .XPORT_VIOL_COUNT = satAdd Fld.XPORT_VIOL_COUNT.width (s.get .XPORT_VIOL_COUNT) 1)) ∧
    (crc32c (bs.take 28) = fieldOf bs 28 4 → bs.getD 0 0 = 4 →
      let key := fieldOf bs 32 8
      let stack := bits (fieldOf bs 16 8) 44 4
      let home := homeStack key = stack ∧ homeModule key s.jobN = s.rank
      (¬home → fieldOf bs 43 1 ≤ 1 → Completes (.refill f) s (fun t =>
        routed t .SPRING_REFILL_REFUSED ∧ t.rows = s.rows)) ∧
      (home → fieldOf bs 43 1 = 0 → Completes (.refill f) s (fun t =>
        routed t .SPRING_REFILL_ACCEPTED ∧ (locKind (s.dmLoc stack key) ≠ kMoved → t.rows = s.rows) ∧
        (∀ w, s.dmWay stack key = some w → locKind (s.dmLoc stack key) = kMoved →
          t.dmAt stack (dmSet key) w = (0, 0)))) ∧
      (home → fieldOf bs 43 1 = 1 → Completes (.refill f) s (fun t =>
        routed t .SPRING_REFILL_ACCEPTED ∧
        (∀ w, s.dmWayFor stack key = some w → t.dmAt stack (dmSet key) w =
          (key, mkLoc kMoved (fieldOf bs 40 2) (fieldOf bs 42 1) 0)) ∧
        (s.dmWayFor stack key = none → t.rows = s.rows ∧
          t.get .DRIFT_FWD_SET_FULL stack = satAdd Fld.DRIFT_FWD_SET_FULL.width (s.get .DRIFT_FWD_SET_FULL stack) 1))))

/-- Spring takes link items in order and marks a step once its parts are whole. -/
def Obligations.SpringRingTakesRecords : Prop := Claim.SpringTakesLinkItems ∧ Claim.SpringMarksSteps

/-- Spring sends a sink its next record; refill records are accepted, refused or counted as malformed. -/
def Obligations.SpringStreamsAndRefills : Prop := Claim.SpringStreamsRecords ∧ Claim.RefillRecords

/-- Acknowledgements move the acknowledged SEQ, and a failing sink fails over or leaves its pair down. -/
def Obligations.SinkAcksAndFailures : Prop := Claim.SinkAcknowledgements ∧ Claim.SinkFailure

/-- Spring's controls and the last-gasp flush act as their registers and clk say. -/
def Obligations.SpringControlsAndLastGasp : Prop := Claim.SpringControls ∧ Claim.LastGasp

/-! The history units. -/

/-- A well-formed request of one operation stands at the front of a queue. -/
abbrev kvFront (s : State) (q die t op : Nat) (rest : List Token) : Prop :=
  s.nextReq q = some (die, t) ∧ (s.queue q).buf = BitVec.ofNat 2048 t :: rest ∧ reqOp t = op ∧ s.reqBad die t = false

/-- No well-formed request of an operation stands at the front of a queue. -/
abbrev kvNone (s : State) (q op : Nat) : Prop :=
  (s.nextReq q).all (fun r => reqOp r.2 != op || s.reqBad r.1 r.2) = true

/-- A queue inside the module takes tokens at once: none waits, and it has credits for them. -/
abbrev takesAll (s : State) (r : Nat) (toks : List Nat) : Prop :=
  s.consKind r ≠ 5 ∧ Sparse.get [] s.xport.outbox r = [] ∧ toks.length ≤ (s.queue r).credits

/-- Tokens have departed on a queue. -/
abbrev departed (s t : State) (r : Nat) (toks : List Nat) : Prop :=
  (t.queue r).flight = (s.queue r).flight ++ toks.map (fun x => (BitVec.ofNat 2048 x, (s.queue r).gen))

/-- READ takes its request and changes no history. With no line in error and a reply queue that takes them at once, the
elements asked for depart, zero past the history's end, and then a status token; of a store that is not enabled +0 in every
element and the status DISABLED. Where no READ stands at the front nothing happens.
Choices of the model in it: assumption 51. -/
def Claim.HistoryReads : Prop :=
  ∀ (s : State) (q : Nat),
    (∀ die t rest, kvFront s q die t 2 rest →
      let r := reqReply t
      let layer := s.reqLayer die t
      let n := min (reqFirst t + reqCount t) 8192 - reqFirst t
      let c := s.reqChans die t
      let xs := ((List.range n).map (fun i => (List.range c.2).map (fun k =>
        s.readElem die (reqHist t) layer (reqFlags t % 2) (reqFirst t + i) (c.1 + k)))).flatten
      let toks := elemTokens (fmtWidth (s.outFmt die (reqFlags t % 2))) xs ++ [s.statusToken die t 0]
      let zeros := s.zeroRead die t ++ [s.statusToken die t 4]
      Completes (.kvRead q) s (fun u => (u.queue q).buf = rest ∧ u.kv = s.kv) ∧
      (s.kvEnabled die = true → s.unitErr = [] → takesAll s r toks →
        Completes (.kvRead q) s (fun u => (u.queue q).buf = rest ∧ u.kv = s.kv ∧ departed s u r toks)) ∧
      (s.kvEnabled die = false → takesAll s r zeros → Completes (.kvRead q) s (fun u =>
        (u.queue q).buf = rest ∧ u.kv = s.kv ∧ u.mem = s.mem ∧ departed s u r zeros ∧
        u.get .SEQ_FAULTS_DISABLED die = satAdd Fld.SEQ_FAULTS_DISABLED.width (s.get .SEQ_FAULTS_DISABLED die) 1))) ∧
    (kvNone s q 2 → Completes (.kvRead q) s (fun t => t = s))

/-- APPEND: a header is taken and waits for its data. One event whose data have all come extends its history by one where a
new page is to be had; a full history counts LIMIT, and without a page NO_PAGE, and it stays as it is.
Choices of the model in it: assumptions 50, 51. -/
def Claim.HistoryAppends : Prop :=
  ∀ (s : State) (q die slot : Nat),
    (∀ t, kvFront s q die t 1 [] → 0 < reqCount t → 0 < s.eventBytes die → Completes (.kvAppend q slot) s (fun u =>
      (u.queue q).buf = [] ∧ u.mem = s.mem ∧
      Sparse.get {} u.kv.apps q = ⟨t, (reqCount t * s.eventBytes die + 255) / 256, reqCount t, [],
        if s.kvEnabled die then 0 else 4, false⟩)) ∧
    (∀ a, s.kvDie q = some die → (q, a) ∈ s.kv.apps → Sparse.get {} s.kv.apps q = a → a.events = 1 → a.status = 0 → a.ue = false →
      (s.queue q).buf.length = a.left → s.unitErr = [] →
      let h := reqHist a.hdr
      let layer := s.reqLayer die a.hdr
      let gone := fun (u : State) => (u.queue q).buf = [] ∧ Sparse.get {} u.kv.apps q = {}
      (s.kvLen h layer < 8192 → s.kvLen h layer % 64 = 0 → (s.newPage die).isSome = true →
        Completes (.kvAppend q slot) s (fun u =>
          gone u ∧ u.kvLen h layer = s.kvLen h layer + 1 ∧
          u.get .SEQ_EVENTS_APPENDED die = satAdd Fld.SEQ_EVENTS_APPENDED.width (s.get .SEQ_EVENTS_APPENDED die) 1)) ∧
      (8192 ≤ s.kvLen h layer → Completes (.kvAppend q slot) s (fun u =>
        gone u ∧ u.kv.lens = s.kv.lens ∧ u.mem = s.mem ∧
        u.get .SEQ_EVENTS_LIMIT die = satAdd Fld.SEQ_EVENTS_LIMIT.width (s.get .SEQ_EVENTS_LIMIT die) 1)) ∧
      (s.kvLen h layer < 8192 → s.kvLen h layer % 64 = 0 → s.newPage die = none → Completes (.kvAppend q slot) s (fun u =>
        gone u ∧ u.kv.lens = s.kv.lens ∧ u.mem = s.mem ∧
        u.get .SEQ_FAULTS_NO_PAGE die = satAdd Fld.SEQ_FAULTS_NO_PAGE.width (s.get .SEQ_FAULTS_NO_PAGE die) 1))) ∧
    (s.kvDie q = none ∨ (s.kv.apps.any (fun a => a.1 == q) = false ∧ kvNone s q 1) →
      Completes (.kvAppend q slot) s (fun u => u = s))

/-- SHARE gives an empty history the first events of another, layer by layer, and is bad for one that is not empty; FREE empties
one; PREFETCH of one page of KV_H begins its move to a free frame of KV_T, and counts it as cancelled without one. A store that
is not enabled answers each DISABLED; where no such request stands at the front nothing happens. A bad request is counted,
DISABLED in a store that is not enabled, and changes no history; a bad APPEND waits for its data.
Choices of the model in it: assumption 51. -/
def Claim.HistoryRequests : Prop :=
  ∀ (s : State) (q die t : Nat) (rest : List Token),
    let counts := fun (u : State) (f : Fld) => u.get f die = satAdd f.width (s.get f die) 1
    (kvFront s q die t 3 rest → s.kvEnabled die = true → s.unitErr = [] →
      ((∀ l, l < 8 → s.kvLen (reqHist t) l = 0) → Completes (.kvShare q) s (fun u =>
        (u.queue q).buf = rest ∧ (∀ l, l < 8 → u.kvLen (reqHist t) l = min (reqCount t) (s.kvLen (reqSrc t) l)) ∧
        u.kv.used = s.kv.used)) ∧
      (¬(∀ l, l < 8 → s.kvLen (reqHist t) l = 0) → Completes (.kvShare q) s (fun u =>
        (u.queue q).buf = rest ∧ counts u .SEQ_FAULTS_BAD_REQUEST ∧ u.kv = s.kv ∧ u.mem = s.mem))) ∧
    (kvFront s q die t 4 rest → s.kvEnabled die = true → s.unitErr = [] → Completes (.kvFree q) s (fun u =>
      (u.queue q).buf = rest ∧ (∀ l, l < 8 → u.kvLen (reqHist t) l = 0 ∧ u.kvPend (reqHist t) l = none))) ∧
    (kvFront s q die t 5 rest → s.kvEnabled die = true → s.unitErr = [] → reqCount t = 1 →
      reqFirst t < kvPages (s.kvLen (reqHist t) (s.reqLayer die t)) →
      let p := s.kvOwn (reqHist t) (s.reqLayer die t) (reqFirst t)
      s.kvTier die p = 1 → s.kv.moves = [] →
        (∀ f, s.freeFrame die 0 = some f → Completes (.kvPrefetch q) s (fun u =>
          (u.queue q).buf = rest ∧ u.kv.moves = [⟨die, p, 0, f⟩] ∧ u.kv.lens = s.kv.lens ∧ u.mem = s.mem)) ∧
        (s.freeFrame die 0 = none → Completes (.kvPrefetch q) s (fun u =>
          (u.queue q).buf = rest ∧ counts u .SEQ_MOVES_CANCELLED ∧ u.kv = s.kv ∧ u.mem = s.mem))) ∧
    (∀ oc ∈ [(3, Instr.kvShare q), (4, .kvFree q), (5, .kvPrefetch q)],
      (kvFront s q die t oc.1 rest → s.kvEnabled die = false → Completes oc.2 s (fun u =>
        (u.queue q).buf = rest ∧ counts u .SEQ_FAULTS_DISABLED ∧ u.kv = s.kv ∧ u.mem = s.mem)) ∧
      (kvNone s q oc.1 → Completes oc.2 s (fun u => u = s))) ∧
    (s.nextReq q = some (die, t) → (s.queue q).buf = BitVec.ofNat 2048 t :: rest →
      (s.reqBad die t = true → reqOp t ≠ 1 → Completes (.kvBadRequest q) s (fun u =>
        (u.queue q).buf = rest ∧ u.kv = s.kv ∧ u.mem = s.mem ∧
        counts u (if s.kvEnabled die then .SEQ_FAULTS_BAD_REQUEST else .SEQ_FAULTS_DISABLED))) ∧
      (s.reqBad die t = true → reqOp t = 1 → rest = [] → 0 < reqCount t → 0 < s.eventBytes die →
        Completes (.kvBadRequest q) s (fun u =>
          (u.queue q).buf = [] ∧ u.kv.lens = s.kv.lens ∧ u.mem = s.mem ∧
          Sparse.get {} u.kv.apps q = ⟨t, (reqCount t * s.eventBytes die + 255) / 256, reqCount t, [],
            if s.kvEnabled die then 3 else 4, false⟩)) ∧
      (s.reqBad die t = false → Completes (.kvBadRequest q) s (fun u => u = s))) ∧
    (s.nextReq q = none → Completes (.kvBadRequest q) s (fun u => u = s))

/-- At clk 1 of a boundary, its clk 0 having run, a pending entry enters the page table, a page without references is
quarantined and two beats later returned, and a move of a page ends; each before its time, or with nothing to act on, does
nothing. -/
def Claim.HistoryBoundaries : Prop :=
  ∀ (s : State) (die p : Nat),
    let s1 := clkOne s
    let beat := s1.get .BEAT_COUNT_COUNT
    let isMove := fun (m : KvMove) => m.die == die && m.page == p
    (∀ h layer c, s1.kvPend h layer = some c → c.beat < beat → Completes (.kvCowInstall h layer) s (fun t =>
      t.kvPend h layer = none ∧
      t.mem = (s1.run (plans [setEntry h layer c.idx c.page, dropRef (h / 128) (s1.kvEntry h layer c.idx)] s1)).mem)) ∧
    (∀ h layer, (∀ c ∈ s1.kvPend h layer, beat ≤ c.beat) → Completes (.kvCowInstall h layer) s (fun t => t = s1)) ∧
    (∀ z, s1.kvZero die p = some z → beat ≠ z.beat → s1.kvState die p = 1 → Completes (.kvPageQuarantine die p) s (fun t =>
      t.mem = (s1.run (plans [writeMem (s1.kvDescAt die p + 2) [2],
        writeMem (s1.kvDescAt die p + 12) (leBytes 4 (z.beat + 2))] s1)).mem ∧
      (s1.unitErr = [] → Frame s1 t [.mem] [] []))) ∧
    ((∀ z ∈ s1.kvZero die p, beat = z.beat ∨ s1.kvState die p ≠ 1) →
      Completes (.kvPageQuarantine die p) s (fun t => t = s1)) ∧
    (∀ z, s1.kvZero die p = some z → z.beat + 2 ≤ beat → s1.kvState die p = 2 → Completes (.kvPageReturn die p) s (fun t =>
      t.kvZero die p = none ∧ t.kv.used = s1.kv.used.filter (fun u => !(u.1 == die && u.2.1 == p)) ∧
      t.mem = (s1.run (writeMem (s1.kvDescAt die p + 2) [0] s1)).mem ∧
      (s1.unitErr = [] → Frame s1 t [.mem, .kv] [(.SEQ_MOVES_CANCELLED, die)] []))) ∧
    ((∀ z ∈ s1.kvZero die p, beat < z.beat + 2 ∨ s1.kvState die p ≠ 2) →
      Completes (.kvPageReturn die p) s (fun t => t = s1)) ∧
    (∀ m, s1.kv.moves.find? isMove = some m → Completes (.kvMoveDone die p) s (fun t =>
      t.kv.moves = s1.kv.moves.filter (fun x => !isMove x) ∧ t.kv.lens = s1.kv.lens ∧
      let f := if m.tier = 1 then Fld.SEQ_MOVES_SPILLS else .SEQ_MOVES_PREFETCHES
      t.get f die = satAdd f.width (s1.get f die) 1)) ∧
    (s1.kv.moves.find? isMove = none → Completes (.kvMoveDone die p) s (fun t => t = s1))

/-- With fewer than 16 free KV_T frames and no spill under way, the live page of KV_T used longest ago, and not in this beat,
starts to move to a free frame of KV_H; otherwise nothing does. A commit of a die pends.
Choices of the model in it: assumption 50. -/
def Claim.HistorySpills : Prop :=
  ∀ (s : State) (die : Nat),
    let now := s.get .BEAT_COUNT_COUNT % 2 ^ 32
    let age := fun p => (now + 2 ^ 32 - s.kvUse die p) % 2 ^ 32
    let may := fun (u : Nat × Nat × Nat) =>
      u.1 = die ∧ s.kvState die u.2.1 = 1 ∧ s.kvTier die u.2.1 = 0 ∧ s.kvUse die u.2.1 ≠ now
    let few := die < 2 ∧ s.kvEnabled die = true ∧
      s.kvFrames die 0 < (s.takenFrames.filter (fun t => t.1 == die && t.2.1 == 0)).length + 16
    (∀ f, s.freeFrame die 1 = some f → few → s.kv.moves = [] → (∃ u ∈ s.kv.used, may u) → Completes (.kvSpill die) s (fun t =>
      ∃ u ∈ s.kv.used, may u ∧ (∀ v ∈ s.kv.used, may v → age v.2.1 ≤ age u.2.1) ∧
        t.kv.moves = [⟨die, u.2.1, 1, f⟩] ∧ Frame s t [.kv] [] [])) ∧
    (¬few ∨ s.kv.moves.any (fun m => m.die == die && m.tier == 1) = true ∨ s.freeFrame die 1 = none ∨
      (∀ u ∈ s.kv.used, ¬may u) → Completes (.kvSpill die) s (fun t => t = s)) ∧
    (die < 2 → Completes (.seqCommit die) s (fun t =>
      t.get .SEQ_STATUS_COMMIT_PENDING die = 1 ∧ Frame s t [] [(.SEQ_STATUS_COMMIT_PENDING, die)] [])) ∧
    (2 ≤ die → Completes (.seqCommit die) s (fun t => t = s))

/-- Reads and requests of histories reach the pages they name and count what they cannot serve. -/
def Obligations.HistoryReadsAndRequests : Prop := Claim.HistoryReads ∧ Claim.HistoryAppends ∧ Claim.HistoryRequests

/-- At boundaries the history unit installs copies, quarantines and returns pages and ends moves; pages spill when frames run low. -/
def Obligations.HistoryUnitPages : Prop := Claim.HistoryBoundaries ∧ Claim.HistorySpills

/-! The collective engines and the view. -/

/-- A die's collective engine issues the slice `x` next, whose work item is `w`. -/
abbrev collNext (s : State) (die : Nat) (x : Slice) (w : Nat) : Prop :=
  die < 2 ∧ unitNext s 4 die x ∧ s.get .COLL_WORK_ITEM (128 * die + x.target % 128) = w

/-- Chains. CHAIN over one entry in which this module and the owner are members ends. It opens a hop of each segment, which
waits where a member in front of this one is present. The first member present completes its hop of an entry of one segment at
once: the owner keeps its Basin, any other leaves its Basin clear. An item without work ends at once. Without a slice to issue,
or with another operation's item, nothing happens. Choices of the model in it: assumption 77. -/
def Claim.ChainSlices : Prop :=
  ∀ (s : State) (die : Nat),
    (∀ x w, collNext s die x w →
      let ended := fun (t : State) => t.slices = ranSlice s 4 die 0
      let step := s.get .BEAT_STEP_STEP
      let due := s.get .BEAT_COUNT_COUNT + s.policy 1 (itemClass w) 16
      (∀ d, s.dirAt (itemFirst w) = some d → itemOp w = 0 → itemCount w = 1 → dirDie d = die → s.hasBasin d = true →
        chainMember d s.rank = true → chainMember d (dirOwner d) = true →
        (∀ h ∈ s.coll.chains, ¬(h.key = dirKey d ∧ h.step = step)) → (∀ e ∈ s.coll.early, ¬(e.key = dirKey d ∧ e.step = step)) →
        let hop : Nat → ChainHop := fun first => ⟨itemFirst w, dirKey d, first, step, itemClass w, due, false, false⟩
        let prev := s.chainPrev d (chainPos d s.rank)
        (prev.isSome = true → Completes (.collChain die) s (fun t =>
          ended t ∧ t.coll.chains = s.coll.chains ++ (segFirsts d).map hop ∧
          Frame s t [.slices, .coll] [] [(.mbIssued, x.slot)])) ∧
        (prev = none → 1 ≤ dirElems d → dirElems d ≤ 1024 → s.coll.late = [] → Completes (.collChain die) s (fun t =>
          ended t ∧ t.coll.chains = s.coll.chains ++ [{ hop 0 with done := true, kept := decide (dirOwner d = s.rank) }] ∧
          t.mem = (s.run (writeMem (dirBasin d) (if dirOwner d = s.rank then
            ((List.range (dirElems d)).map (fun i => pairBytes (s.pairAt (dirBasin d + 8 * i)))).flatten
            else List.replicate (8 * dirElems d) 0) s)).mem))) ∧
      (3 ≤ itemOp w ∨ (itemOp w = 1 ∧ itemFunc w = 0 ∧ die = 1) → Completes (.collEmptyItem die) s (fun t =>
        ended t ∧ Frame s t [.slices] [] [(.mbIssued, x.slot)])) ∧
      (∀ oc ∈ [(0, Instr.collChain die), (1, .collRoot die), (2, .collGather die)], itemOp w ≠ oc.1 →
        Completes oc.2 s (fun t => t = s)) ∧
      (itemOp w < 3 → ¬(itemOp w = 1 ∧ itemFunc w = 0 ∧ die = 1) → Completes (.collEmptyItem die) s (fun t => t = s))) ∧
    (s.nextSlice 4 die = none →
      ∀ c ∈ [Instr.collChain die, .collRoot die, .collGather die, .collEmptyItem die], Completes c s (fun t => t = s))

/-- ROOT and GATHER end. ROOT opens its step's reduction, once, and gives it this module's word from QIN if there is one; a NORM
on die 0 that holds no lease waits for the stacks to close, or with no shard of its own gives the module's partial. GATHER of
an entry with a buffer opens a fetch from a live owner; from an absent one it drops the micro-batch.
Choices of the model in it: assumptions 52, 53, 77. -/
def Claim.RootAndGatherSlices : Prop :=
  ∀ (s : State) (die : Nat) (x : Slice) (w : Nat), collNext s die x w →
    let ended := fun (t : State) => t.slices = ranSlice s 4 die 0
    let step := s.get .BEAT_STEP_STEP
    let item := 128 * die + x.target % 128
    let due := s.get .BEAT_COUNT_COUNT + s.policy 1 (itemClass w) 16
    let h : RootHop := ⟨item, step, itemFunc w, itemWords w, true, due, [], none, [], false, false⟩
    let opened := fun (t : State) own => ended t ∧ t.coll.roots = s.coll.roots ++ [{ h with own := own }] ∧ t.mem = s.mem
    let new := s.coll.roots.any (isRoot item step) = false
    (itemOp w = 1 → ¬(itemFunc w = 0 ∧ die = 1) → (s.rootHop item step).issued = true → Completes (.collRoot die) s (fun t =>
      ended t ∧ Frame s t [.slices] [] [(.mbIssued, x.slot)])) ∧
    (itemOp w = 1 → 1 ≤ itemFunc w → new →
      (itemQin w = 0x1FFF ∨ (s.queue (itemQin w)).buf = [] → Completes (.collRoot die) s (fun t => opened t none)) ∧
      (∀ tok more, (s.queue (itemQin w)).buf = tok :: more → itemQin w ≠ 0x1FFF → Completes (.collRoot die) s (fun t =>
        opened t (some (rootWords h.func h.words (leBytes 256 tok.toNat))) ∧ (t.queue (itemQin w)).buf = more))) ∧
    (itemOp w = 1 → itemFunc w = 0 → die = 0 → new → itemQin w = 0x1FFF → s.coll.borrowed = [] →
      ((List.range 16).all (fun st => s.isClosed st step) = false → Completes (.collRoot die) s (fun t => opened t none)) ∧
      ((List.range 16).all (fun st => s.isClosed st step) = true → s.ownedShards = [] → Completes (.collRoot die) s (fun t =>
        opened t (some [(s.modulePartial []).1, (s.modulePartial []).2])))) ∧
    (∀ d, s.dirAt (itemFirst w) = some d → itemOp w = 2 → itemCount w = 1 → dirDie d = die → dirFlag d 1 = true →
      dirOwner d ≠ s.rank →
      let len := dirElems d * (fmtWidth (dirFmt d) / 8)
      s.inRegion 3 0 (dirFetch d) len = true →
        (s.live (dirOwner d) = true → Completes (.collGather die) s (fun t =>
          ended t ∧ t.coll.fetches = s.coll.fetches ++ [⟨itemFirst w, dirKey d, dirOwner d, x.slot, itemClass w,
            w.testBit 14, dirFetch d, len, 0⟩] ∧ t.mem = s.mem)) ∧
        (s.live (dirOwner d) = false → x.slot < 8 → s.var .mbDropNext x.slot = 0 → Completes (.collGather die) s (fun t =>
          ended t ∧ t.var .mbDropNext x.slot = 6 ∧ Sparse.get 0 t.coll.versions (verIdx x.slot (itemFirst w)) = 0 ∧
          t.mem = s.mem)))

/-- Accumulation tokens. One of an entry without a Basin, of no element or more than 31, or beyond the Basin is discarded and
counted, as is one of a micro-batch whose shard is stale; one whose segment's hop is under way is held. Any other is added,
pair by pair, into the Basin. Where none waits nothing happens. -/
def Claim.AccumulationTokens : Prop :=
  ∀ (s : State) (q : Nat),
    (∀ (tok : Token) (rest : List Token), (s.queue q).buf = tok :: rest → s.consKind q = 4 →
      let x := tok.toNat
      let n := accCount x
      let drops := fun (t : State) (f : Fld) => (t.queue q).buf = rest ∧ t.mem = s.mem ∧ t.get f = satAdd f.width (s.get f) 1
      (s.dirAt (accEntry x) = none → Completes (.accumToken q) s (fun t => drops t .COLL_BASIN_BAD)) ∧
      (∀ d, s.dirAt (accEntry x) = some d →
        let bad := s.hasBasin d = false ∨ n = 0 ∨ 31 < n ∨ dirElems d < accFirst x + n
        (bad → Completes (.accumToken q) s (fun t => drops t .COLL_BASIN_BAD)) ∧
        (¬bad → s.coll.stale.contains (accSlot x, accEntry x) = true → Completes (.accumToken q) s (fun t =>
          drops t .COLL_STALE_DROPPED)) ∧
        (¬bad → s.coll.stale.contains (accSlot x, accEntry x) = false →
          (s.accHeld (accEntry x) d (accFirst x) n = true → Completes (.accumToken q) s (fun t => t = s)) ∧
          (s.accHeld (accEntry x) d (accFirst x) n = false → s.unitErr = [] → Completes (.accumToken q) s (fun t =>
            (t.queue q).buf = rest ∧
            t.get .COLL_BASIN_ACCUM = satAdd Fld.COLL_BASIN_ACCUM.width (s.get .COLL_BASIN_ACCUM) 1 ∧
            t.mem = (s.run (planEach (List.range n) (fun i s' =>
              let a := dirBasin d + 8 * accFirst x + 8 * i
              writeMem a (pairBytes (fp32cAdd (s'.pairAt a) (recGet x (8 + 8 * i) 4, recGet x (12 + 8 * i) 4))) s') s)).mem))))) ∧
    (s.consKind q ≠ 4 ∨ (s.queue q).buf = [] → Completes (.accumToken q) s (fun t => t = s))

/-- Carried segments. One that comes before its hop waits for it. The hop that waits for it completes: at the owner its Basin
takes the segment plus its own, at any other it is clear. One after its hop, where its class drops it or there is no late
Basin, is discarded and counted. One of no entry, or of a step not yet open, changes nothing.
Choices of the model in it: assumption 77. -/
def Claim.ChainArrivals : Prop :=
  ∀ (s : State) (rank : Nat) (b : GtBody) (m : Via), comes s 0x30 rank b m →
    (s.dirOf b.arg0 = none ∨ s.get .BEAT_STEP_STEP + 1 < b.step → Completes (.chainSeg m) s (fun t =>
      t.coll = s.coll ∧ t.mem = s.mem)) ∧
    (∀ i d, s.dirOf b.arg0 = some (i, d) → s.hasBasin d = true → b.arg1 < dirElems d → b.arg1 % 1024 = 0 →
      b.step ≤ s.get .BEAT_STEP_STEP + 1 →
      let hop := s.coll.chains.find? (fun h => h.key == b.arg0 && h.first == b.arg1 && h.step == b.step)
      (hop = none → s.get .BEAT_STEP_STEP ≤ b.step → Completes (.chainSeg m) s (fun t =>
        t.coll = { s.coll with early := s.coll.early ++ [⟨b.arg0, b.arg1, b.step, payloadPairs b.payload⟩] } ∧
        t.mem = s.mem)) ∧
      (∀ h, hop = some h → ∀ e, s.dirAt h.entry = some e → h.done = false →
        s.coll.late.contains (h.entry, h.first, h.step) = false → Completes (.chainSeg m) s (fun t =>
          let basin := dirBasin e + 8 * h.first
          t.coll.chains = s.coll.chains.map (fun x => if isHop h x then
            { x with done := true, kept := decide (dirOwner e = s.rank) } else x) ∧
          t.mem = (s.run (writeMem basin (if dirOwner e = s.rank then
            ((List.range (segLen e h.first)).map (fun k => pairBytes (fp32cAdd ((payloadPairs b.payload).getD k (0, 0))
              (s.pairAt (basin + 8 * k))))).flatten else List.replicate (8 * segLen e h.first) 0) s)).mem)) ∧
      (hop.any (·.done) = true ∨ (hop = none ∧ b.step < s.get .BEAT_STEP_STEP) →
        s.policy 2 (s.chainClass i) 1 ≠ 0 ∨ s.hasLate d = false → Completes (.chainSeg m) s (fun t =>
          t.coll = s.coll ∧ t.mem = s.mem ∧
          t.get .COLL_LATE_DROPPED = satAdd Fld.COLL_LATE_DROPPED.width (s.get .COLL_LATE_DROPPED) 1)))

/-- A contribution to a reduction under way that comes at the root in time is kept under its rank, and a second one of a rank
is not; after the close it is discarded and counted. At a module that is not the root it changes no reduction. A first result
is used, and a second changes nothing; the norm's reaches every stack, and one that is not finite skips the step.
Choices of the model in it: assumption 52. -/
def Claim.RootArrivals : Prop :=
  ∀ (s : State) (rank : Nat) (b : GtBody) (m : Via), b.arg0 < 256 →
    let h := s.rootHop b.arg0 b.step
    let now := fun (t : State) => t.rootHop b.arg0 b.step
    (comes s 0x31 rank b m → b.arg1.testBit 15 = false →
      (s.root = s.rank → h.closed = false → h.issued = true →
        (h.got.any (fun g => g.1 == rank) = false → Completes (.rootContrib m) s (fun t =>
          (now t).got = h.got ++ [(rank, rootWords h.func h.words b.payload)] ∧ t.mem = s.mem)) ∧
        (h.got.any (fun g => g.1 == rank) = true → Completes (.rootContrib m) s (fun t =>
          t.coll = s.coll ∧ t.mem = s.mem))) ∧
      (s.root = s.rank → h.closed = true → Completes (.rootContrib m) s (fun t =>
        t.coll = s.coll ∧ t.mem = s.mem ∧
        t.get .COLL_LATE_DROPPED = satAdd Fld.COLL_LATE_DROPPED.width (s.get .COLL_LATE_DROPPED) 1)) ∧
      (s.root ≠ s.rank → Completes (.rootContrib m) s (fun t => t.coll.roots = s.coll.roots ∧ t.mem = s.mem))) ∧
    (comes s 0x32 rank b m →
      (h.used = true → Completes (.rootResult m) s (fun t => t.coll = s.coll ∧ t.silt = s.silt ∧ t.mem = s.mem)) ∧
      (h.used = false → 1 ≤ bits b.arg1 0 4 → Completes (.rootResult m) s (fun t => (now t).used = true ∧ t.mem = s.mem)) ∧
      (h.used = false → bits b.arg1 0 4 = 0 → (∀ f ∈ s.rows.fwds, f.step ≠ b.step) → Completes (.rootResult m) s (fun t =>
        (now t).used = true ∧ t.get .COLL_ROOT_VALID = 1 ∧ t.get .COLL_ROOT_STEP = b.step % 65536 ∧
        (fFinite (fieldOf b.payload 0 4) = true → t.normOf b.step = some (fsqrt (fieldOf b.payload 0 4))) ∧
        (fFinite (fieldOf b.payload 0 4) = false → t.skipped b.step = true) ∧
        ∀ st, st < 16 → t.get .SILT_NORM_STEP_VALID st = 1 ∧ t.get .SILT_NORM_STEP_STEP st = b.step % 2 ^ 44)))

/-- At a deadline every chain hop that is due proceeds without its segment; and the root closes a reduction that is due and
counts who is missing. With nothing due nothing happens. -/
def Claim.HopDeadlines : Prop :=
  ∀ s : State, let beat := s.get .BEAT_COUNT_COUNT
    let waits := fun (h : ChainHop) => h.done = false ∧ h.due ≤ beat
    let open' := fun (h : RootHop) => h.issued = true ∧ h.closed = false ∧ (h.used = false ∨ h.got ≠ []) ∧ h.due ≤ beat ∧
      s.root = s.rank
    Completes .hopDeadline s (fun t => ∀ x ∈ t.coll.chains, x.due ≤ beat → x.done = true) ∧
    (∀ h, s.coll.roots = [h] → (∀ x ∈ s.coll.chains, ¬waits x) → open' h → Completes .hopDeadline s (fun t =>
      t.coll.roots = [{ h with closed := true }] ∧ t.mem = s.mem ∧
      t.get .COLL_MISSING_ROOT =
        satAdd Fld.COLL_MISSING_ROOT.width (s.get .COLL_MISSING_ROOT) (s.jobN - h.got.length))) ∧
    ((∀ x ∈ s.coll.chains, ¬waits x) → (∀ h ∈ s.coll.roots, ¬open' h) → Completes .hopDeadline s (fun t => t = s))

/-- Requests for a shard at its owner, while no lease waits for its fetch to end. A shard or version that it cannot serve is
answered STALE, which counts; any other is lent once to its rank, while fewer than 16,384 are. A release ends the leases that
it names, but for those whose fetch is still being served; a version's leases end LEASE_BEATS after it was succeeded.
Choices of the model in it: assumption 53. -/
def Claim.LeasesAtTheOwner : Prop :=
  ∀ (s : State),
    (∀ rank b m, comes s 0x33 rank b m → s.coll.ended = [] →
      let named := if b.arg1.testBit 0 then some b.step else none
      ((s.shardHeader b.arg0).bind (fun h => s.serveBank b.arg0 h named) = none →
        Completes (.fetchReq m) s (fun t =>
          t.get .COLL_STALE_SERVED = satAdd Fld.COLL_STALE_SERVED.width (s.get .COLL_STALE_SERVED) 1 ∧ t.coll = s.coll ∧
          t.mem = s.mem)) ∧
      (∀ h, s.shardHeader b.arg0 = some h → ∀ bank, s.serveBank b.arg0 h named = some bank →
        let lease : Lease := ⟨rank, b.arg0, s.bankVersion h bank⟩
        (s.coll.lent.contains lease = true → Completes (.fetchReq m) s (fun t => t.coll = s.coll ∧ t.mem = s.mem)) ∧
        (s.coll.lent.contains lease = false → s.coll.lent.length < 16384 → Completes (.fetchReq m) s (fun t =>
          t.coll = { s.coll with lent := s.coll.lent ++ [lease] } ∧ t.mem = s.mem)) ∧
        (s.coll.lent.contains lease = false → 16384 ≤ s.coll.lent.length → Completes (.fetchReq m) s (fun t =>
          t.get .COLL_LEASE_NO_ROOM = satAdd Fld.COLL_LEASE_NO_ROOM.width (s.get .COLL_LEASE_NO_ROOM) 1 ∧
          t.coll = s.coll ∧ t.mem = s.mem)))) ∧
    (∀ rank b m, comes s 0x36 rank b m →
      let mine := fun (l : Lease) => l.rank == rank &&
        ((chunks 16 b.payload).map (fun e => (fieldOf e 0 8, fieldOf e 8 8))).contains (l.key, l.version)
      Completes (.leaseRelease m) s (fun t =>
        t.coll.lent = s.coll.lent.filter (fun l => !mine l || s.serving l) ∧ t.mem = s.mem)) ∧
    (∀ key v,
      let o := s.coll.old.find? (fun o => o.1 == key && o.2.1 == v)
      let spent := o.any (fun x => x.2.2 + s.get .COLL_CFG_LEASE_BEATS ≤ s.get .BEAT_COUNT_COUNT) = true
      (spent → Completes (.leaseExpiry key v) s (fun t =>
        t.coll.lent = s.coll.lent.filter (fun l => !(l.key == key && l.version == v)) ∧
        t.coll.old = s.coll.old.filter (fun x => !(x.1 == key && x.2.1 == v)) ∧
        Frame s t [.coll] [(.COLL_LEASE_EXPIRED, 0)] [])) ∧
      (¬spent → Completes (.leaseExpiry key v) s (fun t => t = s)))

/-- Replies at the requester, to a fetch under way: data go into its buffer and record their version and lease. STALE is
counted and fetches anew, and says by STALE_MODE whether the gradient is dropped. A reply to no fetch changes nothing. -/
def Claim.FetchReplies : Prop :=
  ∀ (s : State) (rank : Nat) (b : GtBody) (m : Via),
    let fetch := s.coll.fetches.find? (fun f => f.key == b.arg0 && f.owner == rank)
    (∀ f, fetch = some f → ∀ d, s.dirAt f.entry = some d → comes s 0x34 rank b m → Completes (.fetchData m) s (fun t =>
      let off := b.arg1 * (fmtWidth (dirFmt d) / 8)
      Sparse.get 0 t.coll.versions (verIdx f.slot f.entry) = b.step + 1 ∧
      (⟨rank, f.key, b.step⟩ : Lease) ∈ t.coll.borrowed ∧
      t.mem = (s.run (writeMem (f.dpa + off) (b.payload.take (f.len - off)) s)).mem)) ∧
    (∀ f, fetch = some f → comes s 0x35 rank b m → Completes (.fetchStale m) s (fun t =>
      t.get .COLL_STALE_REPLIES = satAdd Fld.COLL_STALE_REPLIES.width (s.get .COLL_STALE_REPLIES) 1 ∧
      t.coll.fetches = s.coll.fetches ∧ t.mem = s.mem ∧
      (s.policy 3 f.cls 0 ≠ 1 → (f.slot, f.entry) ∈ t.coll.stale) ∧
      (s.policy 3 f.cls 0 = 1 → t.coll.stale = s.coll.stale ∧ t.get .COLL_STALE_USED_CURRENT =
        satAdd Fld.COLL_STALE_USED_CURRENT.width (s.get .COLL_STALE_USED_CURRENT) 1))) ∧
    (fetch = none →
      (comes s 0x34 rank b m → Completes (.fetchData m) s (fun t => t.coll = s.coll ∧ t.mem = s.mem)) ∧
      (comes s 0x35 rank b m → Completes (.fetchStale m) s (fun t => t.coll = s.coll ∧ t.mem = s.mem)))

/-- A watched module silent for 6 beats becomes LOST in the view, an active sink becomes due to fail, and their connections
close; an endpoint that is not due does nothing. A REJOINING rank becomes LIVE with its step, and not before. A commit of the
engines pends. -/
def Claim.TheView : Prop :=
  ∀ (s : State) (ep : Nat),
    (s.lostDue ep = true → Completes (.peerLost ep) s (fun t =>
      (s.get .XPORT_EP_CFG_KIND ep = 1 → t.get .COLL_PEER_STATE ep = 1) ∧
      (∀ k, s.epSink ep = some k → s.get .XPORT_EP_CFG_KIND ep ≠ 1 → s.sinkSt k = 1 ∨ s.sinkSt k = 2 → (t.sink k).due = 1) ∧
      ∀ ch, ch < s.channels ep → t.connState ep ch = 0)) ∧
    (s.lostDue ep = false → Completes (.peerLost ep) s (fun t => t = s)) ∧
    (s.get .COLL_PEER_STATE ep = 2 → s.get .COLL_PEER_JOIN_STEP ep ≤ s.get .BEAT_STEP_STEP →
      Completes (.rejoinLive ep) s (fun t =>
        t.get .COLL_PEER_STATE ep = 0 ∧ Frame s t [] [(.COLL_PEER_STATE, ep)] [])) ∧
    (s.get .COLL_PEER_STATE ep ≠ 2 ∨ s.get .BEAT_STEP_STEP < s.get .COLL_PEER_JOIN_STEP ep →
      Completes (.rejoinLive ep) s (fun t => t = s)) ∧
    Completes .collCommit s (fun t =>
      t.get .COLL_STATUS_COMMIT_PENDING = 1 ∧ Frame s t [] [(.COLL_STATUS_COMMIT_PENDING, 0)] [])

/-- The permutation starts on every stack under a resharding image where none runs, and stops at an abort, which leaves the
moves under way. A walk with room in its window begins to move the next row that belongs elsewhere, puts off one that may not
move now, and after its last row goes on to those, counting one still TORN as skipped. -/
def Claim.Permutation : Prop :=
  ∀ s : State,
    let st := s.get .COLL_STATUS_PERM_STATE
    let starts := s.prevN.isSome = true ∧ st ≠ 1 ∧ st ≠ 2
    (starts → Completes .permStart s (fun t =>
      t.get .COLL_STATUS_PERM_STATE = 1 ∧ t.get .COLL_PERM_MOVED = 0 ∧ t.get .COLL_PERM_SKIPPED = 0 ∧
      t.coll = { s.coll with walks := List.replicate 16 {}, aborted := false } ∧
      Frame s t [.coll] [(.COLL_STATUS_PERM_STATE, 0), (.COLL_PERM_MOVED, 0), (.COLL_PERM_SKIPPED, 0)] [])) ∧
    (¬starts → Completes .permStart s (fun t => t = s)) ∧
    (st = 1 → Completes .permAbort s (fun t =>
      t.coll.aborted = true ∧ (∀ w ∈ t.coll.walks, w.phase = 2) ∧ t.rows = s.rows ∧
      t.get .COLL_STATUS_PERM_STATE = (if s.rows.drifts.any (fun d => d.cause == 1) then 2 else 0) ∧
      Frame s t [.coll] [(.COLL_STATUS_PERM_STATE, 0)] [])) ∧
    (st ≠ 1 → Completes .permAbort s (fun t => t = s)) ∧
    (∀ stack, let w := s.walk stack
      let goes := stack < 16 ∧ st = 1 ∧ w.phase ≠ 2 ∧ s.permMoves stack < s.get .COLL_CFG_PERM_WINDOW
      (¬goes → Completes (.permMove stack) s (fun t => t = s)) ∧
      (∀ key table pos, s.permNext stack w = some (key, table, pos) → goes → w.phase = 0 →
        (s.permBlocked stack key = true → Completes (.permMove stack) s (fun t =>
          t.coll = { s.coll with walks := s.coll.walks.set stack { w with table, pos, again := w.again ++ [key] } } ∧
          Frame s t [.coll] [] [])) ∧
        (∀ t0, s.table (keyTable key) = some t0 → ∀ p, s.resolve stack t0 key true = .at p → s.permBlocked stack key = false →
          Completes (.permMove stack) s (fun t =>
            t.rows = { s.rows with drifts := s.rows.drifts ++
              [⟨stack, key, homeModule key s.jobN, homeStack key, p, 0, 0, 0, 1, false⟩] } ∧
            t.coll = { s.coll with walks := s.coll.walks.set stack { w with table, pos } } ∧
            Frame s t [.rows, .coll] [] []))) ∧
      (goes → w.phase = 0 → s.permNext stack w = none → Completes (.permMove stack) s (fun t =>
        t.walk stack = { w with phase := if w.again.isEmpty then 2 else 1 } ∧ t.rows = s.rows)) ∧
      (∀ key rest, w.again = key :: rest → goes → w.phase = 1 → s.tornRow stack key = true →
        Completes (.permMove stack) s (fun t =>
          t.walk stack = { w with again := rest, phase := if rest.isEmpty then 2 else 1 } ∧ t.rows = s.rows ∧
          t.get .COLL_PERM_SKIPPED = satAdd Fld.COLL_PERM_SKIPPED.width (s.get .COLL_PERM_SKIPPED) 1)))

/-- Collective slices begin their work items, and accumulation tokens add into their segment. -/
def Obligations.CollectiveWork : Prop := Claim.ChainSlices ∧ Claim.RootAndGatherSlices ∧ Claim.AccumulationTokens

/-- Collective messages arrive in their hop or late, and a hop ends at its deadline. -/
def Obligations.CollectiveMessages : Prop := Claim.ChainArrivals ∧ Claim.RootArrivals ∧ Claim.HopDeadlines

/-- Shard fetches are answered, data land where asked, and leases are lent, returned and expire. -/
def Obligations.FetchesAndLeasesOfShards : Prop := Claim.LeasesAtTheOwner ∧ Claim.FetchReplies

/-- The view of ranks follows losses and joins, and a permutation moves, acknowledges and ends its rows. -/
def Obligations.ViewAndPermutation : Prop := Claim.TheView ∧ Claim.Permutation

/-! Messages about rows: lookups, pushes, end markers and moves. -/

/-- A lookup of one row, at a stack that can read its torn list and with nothing gathered to forward. Of a table that the image
lacks it is answered UNKNOWN, of a row that is absent ABSENT; a readable row is answered FETCHED with its body, from a readable
hot copy or from its place, and one with a line that cannot be read UE. It is held while the row's copy is not installed or an
update of the row comes first, deferred where the row is torn or the stack has lost its state, and counted as forwarded where
the row is elsewhere, but refused after two such passes. Choices of the model in it: assumptions 26, 28. -/
def Claim.LookupRequests : Prop :=
  ∀ (s : State) (rank : Nat) (b : GtBody) (m : Via), comes s 0x20 rank b m → b.payload.length = 24 →
    s.rows.forward = [] →
    let e := b.payload
    let key := fieldOf e 0 8
    let stack := fieldOf e 16 1 % 16
    let die := stackDie stack
    let flags := b2n (fieldOf e 15 1 > 0) + 2 * (fieldOf e 14 1 % 2)
    let answers := fun (t : State) (status : Nat) (body : List Nat) =>
      Sends s t (fieldOf e 12 2) 0x21 (replyEntry key (fieldOf e 8 4) status flags s.rank stack body)
    let held := fun (t : State) => t.rows.held = s.rows.held ++ [⟨stack, key, false, b.step, e⟩] ∧ t.mem = s.mem
    let deferred := fun (t : State) => t.rows.deferred = s.rows.deferred ++ [⟨stack, key, false, b.step, e⟩] ∧ t.mem = s.mem
    let room := (s.rows.deferred.filter (fun h => h.stack == stack)).length < 1024
    let lost := (s.get .ERR_STATUS_STATE_LOST).testBit stack
    (s.table (keyTable key) = none → Completes (.lookupReq m) s (fun t => answers t 6 [] ∧ t.mem = s.mem)) ∧
    (∀ t0, s.table (keyTable key) = some t0 →
      (∀ k, s.hotFind die key = some k → s.leaving stack key = false → hotPinned (s.hotWord die k) = false →
        s.hotBad die k = false → Completes (.lookupReq m) s (fun t =>
          answers t 0 (s.bytesAt (s.hotCopy die k) (bodyLen t0)))) ∧
      (s.hotFind die key = none ∨ s.leaving stack key = true → Sparse.get 0 s.rows.listBad (2 * stack) = 0 →
        let found := s.resolve stack t0 key ((fieldOf e 14 1).testBit 1)
        let meets := s.conflicts stack key b.step
        let meeting := fun (t : State) => held t ∧ t.get .SILT_LANES_CONFLICT_WAIT stack =
          satAdd Fld.SILT_LANES_CONFLICT_WAIT.width (s.get .SILT_LANES_CONFLICT_WAIT stack) 1
        (lost = true → room → Completes (.lookupReq m) s deferred) ∧
        (lost = false → found = .pending → Completes (.lookupReq m) s held) ∧
        (lost = false → (found = .absent ∧ meets = false) ∨ found = .absentOld → Completes (.lookupReq m) s (fun t =>
          answers t 1 [] ∧ t.mem = s.mem)) ∧
        (lost = false → found = .absent → meets = true → Completes (.lookupReq m) s meeting) ∧
        (∀ r st new, found = .forward r st new → lost = false → (new = false ∨ meets = false) →
          (2 ≤ fieldOf e 15 1 → Completes (.lookupReq m) s (fun t => answers t 5 [] ∧ t.mem = s.mem)) ∧
          (fieldOf e 15 1 < 2 → Completes (.lookupReq m) s (fun t => t.mem = s.mem ∧ t.get .DRIFT_FWD_FORWARDED stack =
            satAdd Fld.DRIFT_FWD_FORWARDED.width (s.get .DRIFT_FWD_FORWARDED stack) 1))) ∧
        (∀ p, found = .at p → lost = false →
          let dpa := placeDpa stack t0 key p
          let bad := (linesOf dpa (bodyOff t0 + bodyLen t0)).any s.lineBad
          (s.tornRow stack key = true → room → Completes (.lookupReq m) s deferred) ∧
          (s.tornRow stack key = false → meets = true → Completes (.lookupReq m) s meeting) ∧
          (s.tornRow stack key = false → meets = false → bad = true → Completes (.lookupReq m) s (fun t =>
            answers t 2 [] ∧ t.mem = s.mem)) ∧
          (s.tornRow stack key = false → meets = false → bad = false → s.sweepTears stack dpa = false →
            Completes (.lookupReq m) s (fun t =>
              answers t 0 (s.bytesAt (dpa + bodyOff t0) (bodyLen t0)) ∧ (s.hotSize die = 0 → t.mem = s.mem))))))

/-- A reply of one entry fills the buffer of the request that waits for it and counts by its status, or is late. A rank's end
marker counts keys of its kind that have not come as late contributions of the step, and the next counts anew. -/
def Claim.RepliesAndEndMarkers : Prop :=
  ∀ (s : State) (rank : Nat) (b : GtBody) (m : Via),
    (comes s 0x21 rank b m → replyEntries 374 b.payload = [b.payload] →
      let key := fieldOf b.payload 0 8
      let die := bits (fieldOf b.payload 13 1) 1 1
      let hit := isWaiting die (fieldOf b.payload 8 4) key
      (s.emb.fetched.any hit = true → Completes (.lookupReply m) s (fun t =>
        let body := (b.payload.drop 24).take (fieldOf b.payload 18 2)
        t.emb.fetched = s.emb.fetched.map (fun f => if hit f then { f with st := fieldOf b.payload 12 1, body := body } else f) ∧
        t.mem = s.mem ∧
        let i := die * 4096 + keyTable key % 4096
        (fieldOf b.payload 12 1 = 0 → t.get .EMB_TABLE_COUNT_FETCHED i =
          satAdd Fld.EMB_TABLE_COUNT_FETCHED.width (s.get .EMB_TABLE_COUNT_FETCHED i) 1))) ∧
      (s.emb.fetched.any hit = false → Completes (.lookupReply m) s (fun t =>
        t.emb = s.emb ∧ t.mem = s.mem ∧
        t.get .EMB_REPLY_LATE die = satAdd Fld.EMB_REPLY_LATE.width (s.get .EMB_REPLY_LATE die) 1))) ∧
    (comes s 0x23 rank b m →
      let i := rank * 2 + b.arg1 % 2
      let short := b.arg0 - s.var .endKeys i
      Completes (.endMark m) s (fun t =>
        t.var .endKeys i = 0 ∧ t.mem = s.mem ∧
        (short = 0 → t.get .COLL_LATE_DROPPED = s.get .COLL_LATE_DROPPED ∧ t.spring = s.spring) ∧
        (0 < short → t.get .COLL_LATE_DROPPED = satAdd Fld.COLL_LATE_DROPPED.width (s.get .COLL_LATE_DROPPED) short ∧
          (t.cut b.step).lateDrop = (s.cut b.step).lateDrop + short)))

/-- A push acts where its row has a place, or would be given one. -/
def actsHere : Resolved → Bool
  | .at _ => true
  | .absent => true
  | _ => false

/-- A push of one row's gradient, with nothing gathered to forward. It is discarded where its table is not in the image, and
counted where its table is frozen or its step is too far ahead. At the stack that holds the row it joins its step's merge,
unless that is full or holds the origin's push already; one whose merge has closed joins the next as late or is counted as
dropped. It is held while the row's copy is not installed, and counted as forwarded where the row is elsewhere. -/
def Claim.Pushes : Prop :=
  ∀ (s : State) (rank : Nat) (b : GtBody) (m : Via), comes s 0x22 rank b m →
    pushEntries s 560 b.payload = [b.payload] → s.rows.forward = [] →
    let e := b.payload
    let key := fieldOf e 0 8
    let stack := pushStack e
    let c : Contrib := ⟨stack, b.step, b.step, key, fieldOf e 12 2 * 2 + fieldOf e 14 1 % 2, 2, fieldOf e 8 4, pushPairs e, false⟩
    let counts := fun (t : State) (f : Fld) i => t.get f i = satAdd f.width (s.get f i) 1 ∧ t.silt = s.silt ∧ t.mem = s.mem
    (s.table (keyTable key) = none → Completes (.push m) s (fun t => t.silt = s.silt ∧ t.mem = s.mem)) ∧
    (∀ t0, s.table (keyTable key) = some t0 →
      let found := s.resolve stack t0 key ((fieldOf e 14 1).testBit 2)
      (optKind (s.tblOpt' t0) = 0 → Completes (.push m) s (fun t => counts t .SILT_DISCARD_FROZEN stack)) ∧
      (optKind (s.tblOpt' t0) ≠ 0 → s.oldestStep stack + 1 < b.step → Completes (.push m) s (fun t =>
        counts t .SILT_DISCARD_AHEAD stack)) ∧
      (optKind (s.tblOpt' t0) ≠ 0 → b.step ≤ s.oldestStep stack + 1 →
        (found = .pending → Completes (.push m) s (fun t =>
          t.rows.held = s.rows.held ++ [⟨stack, key, true, b.step, e⟩] ∧ t.silt = s.silt ∧ t.mem = s.mem)) ∧
        (∀ r st, found = .forward r st false → Completes (.push m) s (fun t => counts t .DRIFT_FWD_FORWARDED stack)) ∧
        (actsHere found = true →
          let mine := s.silt.contribs.filter (fun x => x.stack == stack)
          let need := 16 + 8 * (pushPairs e).length + (if mine.any (fun x => x.merge == b.step && x.key == key) then 0 else 32)
          let full := s.get .SILT_MERGE_SIZE stack * 65536 < s.mergeBytes stack + need
          let twice := mine.any (fun x => x.step == b.step && x.group == 2 && x.key == key && x.origin == c.origin)
          let carries := s.policy 2 (optClass (s.tblOpt' t0)) 1 = 0 ∧ b.step + 1 = s.mergeStep stack ∧ s.skipped b.step = false
          let joins := fun (t : State) (x : Contrib) => t.silt = { s.silt with contribs := s.silt.contribs ++ [x] } ∧
            (s.hotFind (stackDie stack) key = none → t.mem = s.mem)
          (s.mergeStep stack ≤ b.step → full → Completes (.push m) s (fun t => counts t .SILT_MERGE_USE_FULL stack)) ∧
          (s.mergeStep stack ≤ b.step → ¬full → twice = true → Completes (.push m) s (fun t =>
            counts t .SILT_DISCARD_DUPLICATE stack)) ∧
          (s.mergeStep stack ≤ b.step → ¬full → twice = false → Completes (.push m) s (fun t => joins t c)) ∧
          (b.step < s.mergeStep stack → carries → Completes (.push m) s (fun t =>
            joins t { c with merge := b.step + 1, group := 1 })) ∧
          (b.step < s.mergeStep stack → ¬carries → Completes (.push m) s (fun t => counts t .COLL_LATE_DROPPED 0)))))

/-- A part of a slot copy that is not the last is kept. A copy in one part is placed PENDING in the lowest free slot of the
Drift area, under an entry of the Drift Map, and acknowledged; without a slot or a way for the entry it is refused.
Choices of the model in it: assumption 26. -/
def Claim.DriftCopies : Prop :=
  ∀ (s : State) (rank : Nat) (b : GtBody) (m : Via), comes s 0x28 rank b m →
    let key := b.arg0
    let stack := bits b.arg1 0 4
    let src := bits b.arg1 4 4
    let cause := match s.rows.drifts.find? (isDrift src key) with
      | some d => if rank = s.rank then d.cause else 0
      | none => 0
    s.rows.arrivals.any (isArrival stack key) = false →
    (0 < bits b.arg1 16 8 → Completes (.driftCopy m) s (fun t =>
      t.rows = { s.rows with arrivals := s.rows.arrivals ++
        [⟨stack, key, rank, src, 0, bits b.arg1 16 8 + 1, [b.payload], false, false, 0, 0⟩] } ∧ t.mem = s.mem)) ∧
    (∀ t0, s.table (keyTable key) = some t0 → bits b.arg1 16 8 = 0 → ¬(rank = s.rank ∧ src = stack) →
      (∀ n, s.freeArea stack t0 = some n → ∀ w, s.dmWayFor stack key = some w → Completes (.driftCopy m) s (fun t =>
        t.rows.arrivals = s.rows.arrivals ++ [⟨stack, key, rank, src, n, 1, [], true, false, s.dmLoc stack key, cause⟩] ∧
        t.dmAt stack (dmSet key) w = (key, mkLoc kResident 0 0 n false true) ∧
        t.mem = (s.run (plans [writeMem (driftDpa stack t0 n) b.payload, setAreaBit stack t0 n true] s)).mem ∧
        Sends s t rank 0x29 [])) ∧
      (s.freeArea stack t0 = none ∨ s.dmWayFor stack key = none → Completes (.driftCopy m) s (fun t =>
        t.rows.arrivals = s.rows.arrivals ∧ t.mem = s.mem ∧ Sends s t rank 0x2A []))) ∧
    (bits b.arg1 16 8 = 0 → s.table (keyTable key) = none → Completes (.driftCopy m) s (fun t =>
      t.rows.arrivals = s.rows.arrivals ∧ t.mem = s.mem ∧ Sends s t rank 0x2A []))

/-- The other messages of a move. At the source COPY_ACK lets it switch, COPY_NAK ends it and cancels the copy, SWITCH_ACK lets
it free the row two beats on; each of a move that does not await it changes no row. At the destination SWITCH lets it install
the row, CANCEL drops a copy not installed. -/
def Claim.DriftMessages : Prop :=
  ∀ (s : State) (rank : Nat) (b : GtBody) (m : Via),
    let from' := isDrift (bits b.arg1 4 4) b.arg0
    let mine := isArrival (bits b.arg1 0 4) b.arg0
    let at' := fun n => s.rows.drifts.any (fun d => from' d && d.stage == n)
    let moved := fun (f : DriftSrc → DriftSrc) => s.rows.drifts.map (fun d => if from' d then f d else d)
    let kept := fun (t : State) => t.rows = s.rows ∧ t.mem = s.mem
    (comes s 0x29 rank b m →
      (at' 1 = true → Completes (.copyAck m) s (fun t =>
        t.rows = { s.rows with drifts := moved (fun d => { d with stage := 2 }) } ∧ t.mem = s.mem)) ∧
      (at' 1 = false → Completes (.copyAck m) s kept)) ∧
    (comes s 0x2A rank b m →
      (∀ d, s.rows.drifts.find? from' = some d → at' 1 = true → Completes (.copyNak m) s (fun t =>
        t.rows = { s.rows with drifts := moved (fun d => { d with stage := 9 }) } ∧ t.mem = s.mem ∧ Sends s t d.rank 0x2D [] ∧
        (d.cause = 0 → t.get .DRIFT_STATS_ABORTED d.stack =
          satAdd Fld.DRIFT_STATS_ABORTED.width (s.get .DRIFT_STATS_ABORTED d.stack) 1))) ∧
      (at' 1 = false → Completes (.copyNak m) s kept)) ∧
    (comes s 0x2C rank b m →
      (at' 3 = true → Completes (.switchAck m) s (fun t =>
        t.rows.drifts = moved (fun d => { d with stage := 4, free := s.get .BEAT_COUNT_COUNT + 2 }) ∧ t.mem = s.mem)) ∧
      (at' 3 = false → Completes (.switchAck m) s kept)) ∧
    (comes s 0x2B rank b m → Completes (.switch m) s (fun t =>
      t.rows = { s.rows with arrivals := s.rows.arrivals.map (fun a => if mine a && a.acked then { a with switch := true } else a) } ∧
      t.mem = s.mem)) ∧
    (comes s 0x2D rank b m →
      let some' := s.rows.arrivals.any (fun a => mine a && !a.switch)
      (some' = true → Completes (.driftCancel m) s (fun t => t.rows.arrivals = s.rows.arrivals.filter (fun a => !mine a))) ∧
      (some' = false → Completes (.driftCancel m) s kept))

/-- A forward of the old home's or source's. A combined gradient handed over joins the rows to apply where its step's merge has
closed here, that step's merge before, and is dropped and counted after the step has ended or was skipped. A forwarded update
waits for its step's norm; then it is discarded where the row has it already, and applied in place otherwise. -/
def Claim.DriftForwards : Prop :=
  ∀ (s : State) (rank : Nat) (b : GtBody) (m : Via), comes s 0x2E rank b m →
    let stack := bits b.arg1 0 4
    let n := fieldOf b.payload 0 4
    let g := (chunks 4 (b.payload.drop 8)).map ofLe
    let gone := s.skipped b.step = true ∨ b.step < Sparse.get 0 s.silt.ended stack
    (s.table (keyTable b.arg0) = none → Completes (.driftFwd m) s (fun t =>
      t.silt = s.silt ∧ t.rows = s.rows ∧ t.mem = s.mem)) ∧
    (∀ t0, s.table (keyTable b.arg0) = some t0 → b.arg1.testBit 24 = true →
      (gone → Completes (.driftFwd m) s (fun t => t.silt = s.silt ∧ t.rows = s.rows ∧ t.mem = s.mem ∧
        t.get .COLL_LATE_DROPPED = satAdd Fld.COLL_LATE_DROPPED.width (s.get .COLL_LATE_DROPPED) 1)) ∧
      (¬gone → b.step < s.mergeStep stack → Completes (.driftFwd m) s (fun t =>
        t.silt.combs = s.silt.combs ++ [⟨stack, b.step, b.arg0, n, g, true, false, 0⟩] ∧ t.rows = s.rows ∧ t.mem = s.mem)) ∧
      (¬gone → s.mergeStep stack ≤ b.step → Completes (.driftFwd m) s (fun t =>
        t.silt = { s.silt with contribs := s.silt.contribs ++
          [⟨stack, b.step, b.step, b.arg0, 0, 0, n, g.map (fun v => (v, 0)), false⟩] }))) ∧
    (∀ t0, s.table (keyTable b.arg0) = some t0 → ∀ p, s.resolve stack t0 b.arg0 true = .at p → b.arg1.testBit 24 = false →
      let dpa := placeDpa stack t0 b.arg0 p
      let has := hdrUpdated (slotHdr s dpa) = true ∧ b.step ≤ hdrStamp (slotHdr s dpa)
      (s.normOf b.step = none → Completes (.driftFwd m) s (fun t =>
        t.rows = { s.rows with fwds := s.rows.fwds ++ [b] } ∧ t.silt = s.silt ∧ t.mem = s.mem)) ∧
      ((s.normOf b.step).isSome = true → has → Completes (.driftFwd m) s (fun t =>
        t.rows = s.rows ∧ t.mem = s.mem ∧
        t.get .DRIFT_STATS_DUP_DISCARD stack =
          satAdd Fld.DRIFT_STATS_DUP_DISCARD.width (s.get .DRIFT_STATS_DUP_DISCARD stack) 1)) ∧
      ((s.normOf b.step).isSome = true → ¬has → Completes (.driftFwd m) s (fun t =>
        t.rows = s.rows ∧ t.silt = s.silt ∧
        t.mem = (s.run (writeSlot dpa ((s.newSlot stack t0 b.arg0 b.step n g (some p)).1.take (tblSlot t0)) s)).mem)))

/-- Lookups are answered, replies complete their requests, pushes join their step, end markers close it. -/
def Obligations.RowMessages : Prop := Claim.LookupRequests ∧ Claim.RepliesAndEndMarkers ∧ Claim.Pushes

/-- Drift copies are installed at the new home, and its messages move both ends through their stages. -/
def Obligations.DriftTransfers : Prop := Claim.DriftCopies ∧ Claim.DriftMessages ∧ Claim.DriftForwards

/-! Ports and forwarding. -/

/-- A port that is enabled, not E200 and UP. -/
abbrev portRuns (s : State) (p : Nat) : Prop := s.portOn p = true ∧ s.e200 p = false ∧ s.portState p = 4

/-- A saturating counter counts `n` more. -/
abbrev counted (s t : State) (n : Nat) (f : Fld) (i : Nat) : Prop := t.get f i = satAdd f.width (s.get f i) n

/-- A saturating counter counts `n` times. -/
abbrev countedEach (s t : State) (n : Nat) (f : Fld) (i : Nat) : Prop :=
  t.get f i = (if n = 0 then s.get f i else satAdd f.width (s.get f i) n)

/-- An alignment codeword leaves a port with its count, maps and CONFIRM. -/
abbrev aligned (s t : State) (p : Nat) : Prop :=
  (t.portSt p).words = ((s.portSt p).words + 1) % 65536 ∧
  t.out = s.out ++ [⟨.align, p, [alignWord (s.portSt p).words (s.get .PORT_FWD_CFG_OWN_ID) p (t.txMap p) (t.reqMap p)
    (t.cleanMap p)], [], []⟩]

/-- A port asks its partner for a map, in an alignment codeword out of turn. -/
abbrev asks (s t : State) (p map : Nat) : Prop :=
  (t.portSt p).ask = 1 ∧ (t.portSt p).askMap = map ∧ t.reqMap p = map ∧ aligned s t p

/-- A port fails. -/
abbrev portFails (s : State) (p cause : Nat) (t : State) : Prop :=
  t.portState p = (if s.portBarred p then 0 else 2) ∧ t.get .PORT_STATUS_TX_MAP p = 0 ∧ t.get .PORT_STATUS_RX_MAP p = 0 ∧
  t.get .PORT_STATUS_STOPPED p = 0 ∧ t.get .PORT_STATUS_PARTNER_VALID p = 0 ∧ (∀ j, j < 4 → t.lane p j = 4) ∧
  (t.portSt p).ask = 0 ∧ (t.portSt p).peer = 0 ∧ (t.portSt p).dark = 0 ∧ (t.portSt p).began = s.var .clk ∧
  counted s t 1 .PORT_TRAIN_RETRAINS p ∧ (s.running = true → posted s t 0x31 7 0 p cause 0) ∧ t.mem = s.mem ∧
  ((s.portSt p).waiting = [] → t.out = s.out)

/-- A lost lane is noted, and takes an E200 port that is UP down. A lane of a running port that meets one of R363's causes is
FAILED, or EXCLUDED at its eighth failure in 1,048,576 beats, and the port asks for a map without it. A lane that has
retrained is asked for again. A lane that meets none of this changes nothing.
Choices of the model in it: assumption 54. -/
def Claim.LanesFailAndRetrain : Prop :=
  ∀ (s : State) (p j : Nat),
    (s.portOn p = true → j < 4 → s.e200 p = false → Completes (.laneLoss p j) s (fun t =>
      (t.portSt p).dark = putBits (s.portSt p).dark j 1 1 ∧ Frame s t [.xport] [] [])) ∧
    (s.portOn p = true → j < 4 → s.e200 p = true → s.portState p = 4 →
      Completes (.laneLoss p j) s (portFails s p 0)) ∧
    (s.portOn p = false ∨ 4 ≤ j ∨ s.e200 p = true ∧ s.portState p ≠ 4 → Completes (.laneLoss p j) s (fun t => t = s)) ∧
    (∀ cause,
      let x := s.portSt p
      let beat := s.get .BEAT_COUNT_COUNT
      let fails := (x.fails ++ [(j, beat)]).filter (fun f => beat < f.2 + 1048576)
      let flaps := 8 ≤ (fails.filter (fun f => f.1 == j)).length
      let syms := s.var .portSym (p * 4 + j)
      let meets := (cause = 0 ∧ x.dark.testBit j = true) ∨ (cause = 1 ∧ 4096 < syms) ∨
        (cause = 2 ∧ 16 ≤ s.var .portUnc p ∧ s.portSyms p < 2 * syms)
      (portRuns s p → j < 4 → s.lane p j = 0 → meets → Completes (.laneFailed p j cause) s (fun t =>
        t.lane p j = (if flaps then 3 else 1) ∧ (t.portSt p).fails = fails ∧
        (t.portSt p).flap = (if flaps then putBits x.flap j 1 1 else x.flap) ∧ counted s t 1 .PORT_LANE_FAILS p ∧
        asks s t p (putBits (s.reqMap p) j 1 0) ∧ (s.running = true → posted s t 0x30 7 0 p j cause) ∧ t.mem = s.mem)) ∧
      (¬portRuns s p ∨ 4 ≤ j ∨ s.lane p j ≠ 0 ∨ ¬meets → Completes (.laneFailed p j cause) s (fun t => t = s))) ∧
    (portRuns s p → j < 4 → s.lane p j = 2 → (s.portSt p).ask = 0 → Completes (.laneRetrainDone p j) s (fun t =>
      asks s t p (putBits (s.get .PORT_STATUS_RX_MAP p) j 1 1) ∧ (t.portSt p).dark = putBits (s.portSt p).dark j 1 0 ∧
      t.get .PORT_TRAIN_LAST_TIME p = (s.var .clk - Sparse.get 0 (s.portSt p).laneAt j) / 1024 % 2 ^ 32 ∧
      Frame s t [.xport, .out] [(.PORT_TRAIN_LAST_TIME, p)] [])) ∧
    (¬portRuns s p ∨ 4 ≤ j ∨ s.lane p j ≠ 2 ∨ (s.portSt p).ask ≠ 0 →
      Completes (.laneRetrainDone p j) s (fun t => t = s))

/-- A port fails and trains anew where no lane is active, where the map asked of it holds no lane that it may use, where a
beat's uncorrectable codewords name no lane, where a width change ends without marker or CONFIRM, and on RETRAIN. Elsewhere
these events change nothing. Choices of the model in it: assumption 54. -/
def Claim.PortsFail : Prop :=
  ∀ (s : State) (p : Nat),
    let x := s.portSt p
    let dead := (∀ j, j < 4 → s.lane p j ≠ 0) ∨ (x.peer = 1 ∧ x.peerMap &&& s.txAllowed p = 0)
    let blind := 16 ≤ s.var .portUnc p ∧ ∀ j, j < 4 → 2 * s.var .portSym (p * 4 + j) ≤ s.portSyms p
    let up := s.portOn p = true ∧ s.portState p = 4
    (up → dead → Completes (.portFail p) s (portFails s p 0)) ∧
    (up → ¬dead → blind → Completes (.portFail p) s (portFails s p 2)) ∧
    (¬up ∨ ¬dead ∧ ¬blind → Completes (.portFail p) s (fun t => t = s)) ∧
    (s.portOn p = true → x.ask ≠ 0 ∨ x.peer = 2 → Completes (.widthChangeTimeout p) s (portFails s p 1)) ∧
    (s.portOn p = false ∨ x.ask = 0 ∧ x.peer ≠ 2 → Completes (.widthChangeTimeout p) s (fun t => t = s)) ∧
    (s.portOn p = true → Completes (.portRetrain p) s (portFails s p 3)) ∧
    (s.portOn p = false → Completes (.portRetrain p) s (fun t => t = s))

/-- The codewords received up to an alignment codeword are counted, at an E200 port those alone. A field block with a good mark
and CRC names the partner. Before UP it gives the lanes to transmit on; at a port that is UP its CONFIRM ends a change after
the marker, a new map asked for is noted and stops the port where it drops a lane, and a partner that has left a lane is
followed (the model's choice, assumption 103). At a port that does not align nothing changes.
Choices of the model in it: assumption 54. -/
def Claim.AlignmentCodewords : Prop :=
  ∀ (s : State) (p block cor unc : Nat) (syms : List Nat),
    let c : Instr := .alignmentCodeword p block cor unc syms
    let x := s.portSt p
    let tallies : List (Fld × Nat) := [(.PORT_FEC_CORRECTED, p), (.PORT_FEC_UNCORRECTED, p)] ++
      (List.range 4).map (fun j => (.PORT_SYM_TOTAL, p * 4 + j))
    let tally := fun (t : State) =>
      counted s t cor .PORT_FEC_CORRECTED p ∧ counted s t unc .PORT_FEC_UNCORRECTED p ∧
      t.var .portUnc p = s.var .portUnc p + unc ∧
      (∀ j, j < 4 → counted s t (syms.getD j 0) .PORT_SYM_TOTAL (p * 4 + j) ∧
        t.var .portSym (p * 4 + j) = s.var .portSym (p * 4 + j) + syms.getD j 0)
    let good := bits block 0 64 = alignMark ∧ bits block 116 32 = alignCrc block
    (s.portOn p = false ∨ s.portState p < 3 → Completes c s (fun t => t = s)) ∧
    (s.portOn p = true → 3 ≤ s.portState p → s.e200 p = true ∨ ¬good → Completes c s (fun t =>
      tally t ∧ Frame s t [] tallies ((.portUnc, p) :: (List.range 4).map (fun j => (.portSym, p * 4 + j))))) ∧
    (s.portOn p = true → 3 ≤ s.portState p → s.e200 p = false → good →
      let req := bits block 104 4 &&& s.txAllowed p
      let tx := s.get .PORT_STATUS_TX_MAP p
      let rx := s.get .PORT_STATUS_RX_MAP p &&& bits block 100 4
      let up := s.portState p = 4
      let confirmed := x.peer = 2 ∧ block.testBit 108 = true
      let fresh := req ≠ tx ∧ ¬(x.peer ≠ 0 ∧ x.peerMap = req)
      let follows := up ∧ x.ask = 0 ∧ rx ≠ 0 ∧ rx ≠ s.get .PORT_STATUS_RX_MAP p
      Completes c s (fun t =>
        tally t ∧ t.get .PORT_STATUS_PARTNER_ID p = bits block 80 16 ∧ t.get .PORT_STATUS_PARTNER_PORT p = bits block 96 4 ∧
        t.get .PORT_STATUS_PARTNER_VALID p = (if up then 1 else 0) ∧ t.mem = s.mem ∧
        (¬up → (t.portSt p).peerMap = req) ∧
        (up → confirmed → (t.portSt p).peer = 0 ∧ (t.portSt p).rateMap = tx ∧ t.get .PORT_STATUS_STOPPED p = 0) ∧
        (up → ¬confirmed → fresh → (t.portSt p).peer = 1 ∧ (t.portSt p).peerMap = req ∧
          t.get .PORT_STATUS_STOPPED p = (if req &&& tx = tx then s.get .PORT_STATUS_STOPPED p else 1)) ∧
        (up → ¬confirmed → ¬fresh → (t.portSt p).peer = x.peer ∧ (t.portSt p).peerMap = x.peerMap ∧
          t.get .PORT_STATUS_STOPPED p = s.get .PORT_STATUS_STOPPED p) ∧
        (follows → (t.portSt p).ask = 2 ∧ (t.portSt p).askMap = rx ∧ t.get .PORT_STATUS_RX_MAP p = rx) ∧
        (¬follows → (t.portSt p).ask = x.ask ∧ t.get .PORT_STATUS_RX_MAP p = s.get .PORT_STATUS_RX_MAP p) ∧
        (x.waiting = [] → t.out = s.out)))

/-- The marker goes out and the transmitter is on the map asked for, less its excluded lanes; at the receiver the marker takes
the map asked for into use; at its confirmation that map's lanes are ACTIVE and FAILED lanes beside it retrain. Outside
such a change nothing changes. Choices of the model in it: assumption 54. -/
def Claim.WidthChanges : Prop :=
  ∀ (s : State) (p : Nat),
    let x := s.portSt p
    let map := x.peerMap &&& s.txAllowed p
    (s.portOn p = true → x.peer = 1 → map ≠ 0 → Completes (.changeMarker p) s (fun t =>
      t.get .PORT_STATUS_TX_MAP p = map ∧ (t.portSt p).peer = 2 ∧ t.out = s.out ++ [⟨.align, p, [], [], []⟩] ∧
      Frame s t [.xport, .out] [(.PORT_STATUS_TX_MAP, p)] [])) ∧
    (s.portOn p = false ∨ x.peer ≠ 1 ∨ map = 0 → Completes (.changeMarker p) s (fun t => t = s)) ∧
    (s.portOn p = true → x.ask = 1 → Completes (.changeMarkerDetect p) s (fun t =>
      t.get .PORT_STATUS_RX_MAP p = x.askMap % 16 ∧ (t.portSt p).ask = 2 ∧
      Frame s t [.xport] [(.PORT_STATUS_RX_MAP, p)] [])) ∧
    (s.portOn p = false ∨ x.ask ≠ 1 → Completes (.changeMarkerDetect p) s (fun t => t = s)) ∧
    (s.portOn p = true → x.ask = 2 →
      let gone := (List.range 4).filter (fun j => !x.askMap.testBit j && s.lane p j == 1)
      Completes (.widthConfirm p) s (fun t =>
        (t.portSt p).ask = 0 ∧ (∀ j, j < 4 → t.lane p j = (if x.askMap.testBit j then 0 else if s.lane p j = 1 then 2
          else s.lane p j)) ∧
        (∀ j, j ∈ gone → Sparse.get 0 (t.portSt p).laneAt j = s.var .clk) ∧
        counted s t gone.length .PORT_TRAIN_RETRAINS p ∧ aligned s t p ∧
        Frame s t [.xport, .out] ((.PORT_TRAIN_RETRAINS, p) :: (List.range 4).map (fun j => (.PORT_LANE_STATE, p * 4 + j)))
          [])) ∧
    (s.portOn p = false ∨ x.ask ≠ 2 → Completes (.widthConfirm p) s (fun t => t = s))

/-- Bring-up goes from DETECT to TRAIN and ALIGN, and with maps that agree to UP, where a lane that may be used and did not
train retrains; an E200 port needs all four lanes. Past its limit it returns to DETECT. A port's commit is pending. LANE_CLEAR
forgets the lanes that flapping excluded, and where the port is UP they retrain. Without a lane, in another stage, or at no
port, nothing changes. Choices of the model in it: assumption 54. -/
def Claim.PortBringUp : Prop :=
  ∀ (s : State) (p : Nat),
    let x := s.portSt p
    (∀ lanes,
      let ok := lanes % 16 &&& s.laneMask p
      let map := if s.e200 p then (if ok = 15 then 15 else 0) else ok
      let rx := map &&& x.trained
      let tx := x.peerMap &&& s.txAllowed p
      let late := (List.range 4).filter (fun j => !rx.testBit j && (s.laneMask p).testBit j)
      let goes := s.portOn p = true ∧ map ≠ 0
      (goes → s.portState p = 1 → Completes (.bringupStageDone p lanes) s (fun t =>
        t.portState p = 2 ∧ Frame s t [] [(.PORT_STATUS_STATE, p)] [])) ∧
      (goes → s.portState p = 2 → Completes (.bringupStageDone p lanes) s (fun t =>
        t.portState p = 3 ∧ (t.portSt p).trained = map ∧ (t.portSt p).peerMap = map ∧
        Frame s t [.xport] [(.PORT_STATUS_STATE, p)] [])) ∧
      (goes → s.portState p = 3 → rx ≠ 0 → tx ≠ 0 → Completes (.bringupStageDone p lanes) s (fun t =>
        t.portState p = 4 ∧ t.get .PORT_STATUS_RX_MAP p = rx ∧ t.get .PORT_STATUS_TX_MAP p = tx ∧ (t.portSt p).rateMap = tx ∧
        t.get .PORT_TRAIN_LAST_TIME p = (s.var .clk - x.began) / 1024 % 2 ^ 32 ∧
        (∀ j, j < 4 → t.lane p j = (if rx.testBit j then 0 else if (s.laneMask p).testBit j then 2 else 3)) ∧
        counted s t late.length .PORT_TRAIN_RETRAINS p ∧ t.mem = s.mem ∧ t.out = s.out)) ∧
      (¬goes ∨ s.portState p = 0 ∨ 4 ≤ s.portState p ∨ (s.portState p = 3 ∧ (rx = 0 ∨ tx = 0)) →
        Completes (.bringupStageDone p lanes) s (fun t => t = s))) ∧
    (s.portOn p = true → 1 ≤ s.portState p → s.portState p ≤ 3 → Completes (.bringupTimeout p) s (fun t =>
      t.portState p = 1 ∧ (t.portSt p).began = s.var .clk ∧ counted s t 1 .PORT_TRAIN_ATTEMPTS p ∧ t.mem = s.mem)) ∧
    (s.portOn p = false ∨ s.portState p = 0 ∨ 4 ≤ s.portState p → Completes (.bringupTimeout p) s (fun t => t = s)) ∧
    (p < 16 → Completes (.portCommit p) s (fun t =>
      t.get .PORT_STATUS_COMMIT_PENDING p = 1 ∧ Frame s t [] [(.PORT_STATUS_COMMIT_PENDING, p)] [])) ∧
    (p < 16 →
      let back := (List.range 4).filter (fun j => x.flap.testBit j)
      let again := back.filter (fun j => (s.txAllowed p).testBit j)
      Completes (.laneClear p) s (fun t =>
        (t.portSt p).flap = 0 ∧ (t.portSt p).fails = x.fails.filter (fun f => !back.contains f.1) ∧
        (s.portState p = 4 → (∀ j, j < 4 → t.lane p j = (if j ∈ again then 2 else s.lane p j)) ∧
          counted s t again.length .PORT_TRAIN_RETRAINS p) ∧
        Frame s t [.xport] (if s.portState p = 4 then (.PORT_TRAIN_RETRAINS, p) ::
          (List.range 4).map (fun j => (.PORT_LANE_STATE, p * 4 + j)) else []) [])) ∧
    (16 ≤ p → Completes (.portCommit p) s (fun t => t = s) ∧ Completes (.laneClear p) s (fun t => t = s))

/-- A write of the forwarding table changes the four entries of its register, with their reserved bits 0, and no other; beyond
the table it changes nothing. -/
def Obligations.ForwardingTableWrites : Prop :=
  ∀ (s : State) (n v : Nat),
    (n < 16384 → Completes (.fwdTableWrite n v) s (fun t =>
      (∀ j, j < 4 → t.get .PORT_FWD_TABLE_ENTRY (4 * n + j) = bits v (16 * j) 16 &&& 0x3F1F) ∧
      (∀ i, i / 4 ≠ n → t.get .PORT_FWD_TABLE_ENTRY i = s.get .PORT_FWD_TABLE_ENTRY i) ∧
      Frame s t [] ((List.range 4).map (fun j => (.PORT_FWD_TABLE_ENTRY, 4 * n + j))) [])) ∧
    (16384 ≤ n → Completes (.fwdTableWrite n v) s (fun t => t = s))

/-- A frame can come in at a port that is UP, of a length that the port's mode takes. -/
abbrev framePort (s : State) (p : Nat) (bs : List Nat) : Prop :=
  p < 16 ∧ s.portState p = 4 ∧ (s.e200 p = true → 64 ≤ bs.length + 4 ∧ bs.length + 4 ≤ 9216)

/-- A frame is to be forwarded: IPv6 and not of this module's address. -/
abbrev transits (s : State) (bs : List Nat) : Prop :=
  netField bs 12 2 = 0x86DD ∧ s.frameId bs ≠ some (s.get .PORT_FWD_CFG_OWN_ID)

/-- The egress port of a transit frame. -/
abbrev framePick (s : State) (p : Nat) (bs : List Nat) : Option Nat :=
  s.choose (s.frameEntry bs).1 (s.frameEntry bs).2 (netField bs 54 2) p

/-- A transit frame as it waits at its egress, `stomp` for one that ends with a wrong FCS. -/
abbrev frameWaits (s : State) (p : Nat) (bs : List Nat) (stomp : Bool) : Waiting :=
  let hop := bs.getD 21 0 - 1
  let id := match s.frameId bs with | some i => i | none => 65536
  ⟨frameTc bs == s.get .PORT_FWD_CFG_CTRL_TC, false, bs.length + 4, (s.frameEntry bs).1, (s.frameEntry bs).2,
    netField bs 54 2, p, ⟨.transit, id, [hop, frameTc bs, b2n stomp], bs,
      [hop, frameTc bs, netField bs 54 2, netField bs 56 2]⟩⟩

/-- A frame leaves at once by a free port at which none waits, with the port's and its neighbour's MAC. -/
abbrev frameLeaves (s t : State) (o : Nat) (w : Waiting) : Prop :=
  (s.portSt o).waiting = [] → (s.portSt o).busy ≤ 200 * s.var .clk → w.len ≤ 262144 →
    t.out = s.out ++ [{ w.out with wire := [o, s.get .PORT_NEIGHBOR_MAC_MAC o, s.get .PORT_MAC_MAC o] ++ w.out.wire }] ∧
    counted s t 1 .PORT_FRAMES_TX o

/-- A good transit frame with Hop Limit 2 or more is forwarded with the Hop Limit one less: it leaves by a free egress at
once, waits at a busy one, or is dropped and counted where the transit frames there leave it no room. With Hop Limit 1 or 0,
and without a usable egress, it is dropped and counted. One that its buffer spoils is ended with a wrong FCS. -/
def Claim.GoodFrames : Prop :=
  ∀ (s : State) (p : Nat) (bs : List Nat) (kept : Bool), framePort s p bs → transits s bs →
    let c : Instr := .frameArrival p bs true true kept
    let hop := bs.getD 21 0
    let w := frameWaits s p bs (!kept)
    (framePick s p bs = none → Completes c s (fun t =>
      counted s t 1 .PORT_FRAMES_RX p ∧ counted s t 1 .PORT_FWD_STATS_NO_ROUTE 0 ∧
      Frame s t [] [(.PORT_FRAMES_RX, p), (.PORT_FWD_STATS_NO_ROUTE, 0)] [])) ∧
    (∀ o, framePick s p bs = some o →
      (hop ≤ 1 → Completes c s (fun t =>
        counted s t 1 .PORT_FRAMES_RX p ∧ counted s t 1 .PORT_FWD_STATS_HOP 0 ∧ t.mem = s.mem ∧ t.out = s.out)) ∧
      (2 ≤ hop → Completes c s (fun t =>
        counted s t 1 .PORT_FRAMES_RX p ∧ t.mem = s.mem ∧
        (kept = true → counted s t 1 .PORT_FWD_STATS_FORWARDED 0) ∧ (kept = false → counted s t 1 .PORT_DROPS_STOMPED p) ∧
        frameLeaves s t o w ∧
        (200 * s.var .clk < (s.portSt o).busy →
          let used := (((s.portSt o).waiting.filter (fun x => !x.own)).map (·.len)).foldl (· + ·) 0
          t.out = s.out ∧
          (used + w.len ≤ 262144 → (t.portSt o).waiting = (s.portSt o).waiting ++ [w]) ∧
          (262144 < used + w.len → t.xport = s.xport ∧ counted s t 1 .PORT_DROPS_BUF_FULL o)))))

/-- A frame whose FCS or codewords are bad is dropped and counted where it is stored first or is for this module; one that
cuts through leaves with a wrong FCS and counts as stomped, if its Hop Limit lets it. A frame for this module with no UDP
datagram, and one that is not IPv6, counts as received and as dropped. An E200 port drops a frame of another length. A port
that is not UP takes nothing. -/
def Claim.OtherFrames : Prop :=
  ∀ (s : State) (p : Nat) (bs : List Nat) (fcs code kept : Bool),
    let c : Instr := .frameArrival p bs fcs code kept
    let hop := bs.getD 21 0
    let bad := Completes c s (fun t => counted s t 1 .PORT_DROPS_BAD p ∧ Frame s t [] [(.PORT_DROPS_BAD, p)] [])
    (16 ≤ p ∨ s.portState p ≠ 4 → Completes c s (fun t => t = s)) ∧
    (p < 16 → s.portState p = 4 → ¬framePort s p bs → bad) ∧
    (framePort s p bs → (fcs && code) = false →
      (¬transits s bs → bad) ∧ (framePick s p bs = none → bad) ∧
      (∀ o, framePick s p bs = some o → transits s bs →
        let w := frameWaits s p bs true
        let cuts := (s.portSt o).waiting.any (fun x => x.ctrl == w.ctrl) = false ∧
          s.macRate o (s.portSt o).rateMap ≤ s.macRate p (s.get .PORT_STATUS_RX_MAP p)
        (¬cuts → bad) ∧
        (cuts → hop ≤ 1 → Completes c s (fun t =>
          counted s t 1 .PORT_FWD_STATS_HOP 0 ∧ Frame s t [] [(.PORT_FWD_STATS_HOP, 0)] [])) ∧
        (cuts → 2 ≤ hop → Completes c s (fun t =>
          counted s t 1 .PORT_DROPS_STOMPED p ∧ t.get .PORT_FRAMES_RX p = s.get .PORT_FRAMES_RX p ∧ t.mem = s.mem ∧
          frameLeaves s t o w)))) ∧
    (framePort s p bs → fcs = true → code = true →
      netField bs 12 2 ≠ 0x86DD ∨ (s.frameId bs = some (s.get .PORT_FWD_CFG_OWN_ID) ∧ bs.getD 20 0 ≠ 17) →
      Completes c s (fun t => counted s t 1 .PORT_FRAMES_RX p ∧ counted s t 1 .PORT_DROPS_OTHER p ∧
        Frame s t [] [(.PORT_FRAMES_RX, p), (.PORT_DROPS_OTHER, p)] []))

/-- Of a forwarding entry's two ports, a frame takes the first that is valid, UP, not stopped and not the one it came in by;
where both are, the second if the entry spreads and the parity of its UDP source port and endpoint is odd. A good frame for
which neither is usable is discarded and counted. -/
def Obligations.ForwardingChoice : Prop :=
  ∀ (s : State) (entry id udp p : Nat),
    let usable := fun a v => v = true ∧ s.get .PORT_STATUS_STATE a = 4 ∧ s.get .PORT_STATUS_STOPPED a = 0 ∧ a ≠ p
    let u0 := usable (bits entry 0 4) (entry.testBit 4)
    let u1 := usable (bits entry 8 4) (entry.testBit 12)
    (u0 → u1 → s.choose entry id udp p =
      some (if entry.testBit 13 = true ∧ (udp ^^^ id) % 2 = 1 then bits entry 8 4 else bits entry 0 4)) ∧
    (u0 → ¬u1 → s.choose entry id udp p = some (bits entry 0 4)) ∧
    (¬u0 → u1 → s.choose entry id udp p = some (bits entry 8 4)) ∧
    (¬u0 → ¬u1 → s.choose entry id udp p = none ∧
      ∀ bs kept, framePort s p bs → transits s bs → netField bs 54 2 = udp → s.frameEntry bs = (entry, id) →
        Completes (.frameArrival p bs true true kept) s (fun t =>
          t.get .PORT_FWD_STATS_NO_ROUTE = satAdd Fld.PORT_FWD_STATS_NO_ROUTE.width (s.get .PORT_FWD_STATS_NO_ROUTE) 1 ∧
          Frame s t [] [(.PORT_FRAMES_RX, p), (.PORT_FWD_STATS_NO_ROUTE, 0)] []))

/-- Ports train through their stages, lose lanes, change width by agreement, fail and are trained again. -/
def Obligations.PortsTrainAndNarrow : Prop := Claim.LanesFailAndRetrain ∧ Claim.PortsFail ∧ Claim.AlignmentCodewords ∧ Claim.WidthChanges ∧ Claim.PortBringUp

/-- A frame for another endpoint leaves by its entry's port with its Hop Limit lowered, or is counted as dropped. -/
def Obligations.FramesAreForwarded : Prop := Claim.GoodFrames ∧ Claim.OtherFrames

/-! Garnis Transport. -/

/-- A frame of this module to an endpoint leaves at once: its egress is free and nothing waits there. -/
abbrev egressFree (s : State) (ep ch : Nat) : Prop :=
  ∃ o, s.choose (s.fwdEntry ep) (ep % 65536) (udpSource ep ch) 16 = some o ∧ (s.portSt o).waiting = [] ∧
    (s.portSt o).busy ≤ 200 * s.var .clk

/-- A frame left: its opcode, channel, SEQ and payload, to an endpoint. -/
abbrev frameOut (s t : State) (ep ch op seq : Nat) (payload : List Nat) : Prop :=
  ∃ x : Out, t.out = s.out ++ [x] ∧ x.kind = .gt ∧ x.dest = ep ∧ x.args.getD 0 0 = op ∧ x.args.getD 1 0 = ch ∧
    x.args.getD 4 0 = seq ∧ x.data = payload

/-- One frame is sent: it is counted, and where its egress is free it has left. -/
abbrev sentOne (s t : State) (ep ch op seq : Nat) (payload : List Nat) : Prop :=
  counted s t 1 .XPORT_TOTALS_TX 0 ∧ (egressFree s ep ch → frameOut s t ep ch op seq payload)

/-- What a NAK says (R398). -/
abbrev nakBytes (reason sub op ch seq detail : Nat) : List Nat := [reason, sub, op, ch] ++ leBytes 4 seq ++ leBytes 8 detail

/-- A NAK of a connection is sent, or counted as suppressed within 256 clk of the last. -/
abbrev naks (s t : State) (f : GtFrame) (payload : List Nat) : Prop :=
  (s.nakFree f.ep f.ch = true → sentOne s t f.ep f.ch 2 0 payload ∧ (t.conn f.ep f.ch).nakAt = s.var .clk + 1) ∧
  (s.nakFree f.ep f.ch = false → counted s t 1 .XPORT_VIOL_NAK_SUPPRESSED 0 ∧ t.out = s.out)

/-- A NO_CONN NAK is sent, which its port limits too. -/
abbrev noConn (s : State) (f : GtFrame) (t : State) : Prop :=
  let last := Sparse.get 0 s.xport.nakPort f.port
  let free := (last = 0 ∨ last + 256 ≤ s.var .clk + 1) ∧ s.nakFree f.ep f.ch = true
  (free → sentOne s t f.ep f.ch 2 0 (nakBytes 4 0 f.body.op f.ch f.seq 0) ∧
    (t.conn f.ep f.ch).nakAt = s.var .clk + 1 ∧ Sparse.get 0 t.xport.nakPort f.port = s.var .clk + 1) ∧
  (¬free → counted s t 1 .XPORT_VIOL_NAK_SUPPRESSED 0 ∧ t.xport = s.xport ∧ t.out = s.out) ∧
  t.connState f.ep f.ch = s.connState f.ep f.ch ∧ t.mem = s.mem ∧ t.queues = s.queues

/-- A frame is a violation for a reason: counted, logged and answered with a NAK, and its connection is quarantined where the
64th before it came less than 1,500,000 clk earlier. -/
abbrev violates (s : State) (f : GtFrame) (reason op : Nat) (t : State) : Prop :=
  let i := connIdx f.ep f.ch
  let c := s.conn f.ep f.ch
  let head := s.get .XPORT_VIOL_HEAD
  let quar := 64 ≤ c.viol.length ∧ s.var .clk < c.viol.getD 63 0 + 1500000 ∧ s.connState f.ep f.ch ≠ 3
  counted s t 1 .XPORT_VIOL_COUNT 0 ∧ counted s t 1 .XPORT_CONN_STATS_VIOLATIONS i ∧
  t.get .XPORT_VIOL_HEAD = (head + 1) % 512 ∧ bits (Sparse.get 0 t.xport.vlog head) 64 8 = reason ∧
  naks s t f (nakBytes reason 0 op f.ch f.seq 0) ∧
  t.connState f.ep f.ch = (if quar then 3 else s.connState f.ep f.ch) ∧
  (quar → counted s t 1 .XPORT_VIOL_QUARANTINES 0 ∧ (s.running = true → posted s t 0x34 6 0 (f.ep % 65536) f.ep f.ch)) ∧
  t.mem = s.mem ∧ t.queues = s.queues

/-- The commands that a message between units may come by, with their opcodes. -/
abbrev viaCommands (m : Via) : List (Instr × Nat) :=
  [(.lookupReq m, 0x20), (.lookupReply m, 0x21), (.push m, 0x22), (.endMark m, 0x23), (.driftCopy m, 0x28),
   (.copyAck m, 0x29), (.copyNak m, 0x2A), (.switch m, 0x2B), (.switchAck m, 0x2C), (.driftCancel m, 0x2D),
   (.driftFwd m, 0x2E), (.chainSeg m, 0x30), (.rootContrib m, 0x31), (.rootResult m, 0x32), (.fetchReq m, 0x33),
   (.fetchData m, 0x34), (.fetchStale m, 0x35), (.leaseRelease m, 0x36)]

/-- The commands that a GT frame comes by, with their opcodes. -/
abbrev frameCommands (f : GtFrame) : List (Instr × Nat) :=
  [(.gtKeepalive f, 0), (.gtAck f, 1), (.gtNak f, 2), (.gtHello f, 3), (.gtHelloAck f, 4), (.qtoken f, 0x10),
   (.qcredit f, 0x11), (.sinkAck f, 0x41), (.refill f, 0x42), (.qpReady f, 0x43)] ++ viaCommands (.gt f)

/-- The endpoint of a frame is known. -/
abbrev knownEp (s : State) (f : GtFrame) : Prop := s.get .XPORT_EP_CFG_KIND f.ep ≠ 0 ∧ f.ep < 65792

/-- The connection of a frame carries frames. -/
abbrev connOpen (s : State) (f : GtFrame) : Prop := s.connState f.ep f.ch = 2 ∨ s.connState f.ep f.ch = 3

/-- A frame belongs to no connection of this module: its incarnation is another's, or it needs an open one. -/
abbrev foreign (s : State) (f : GtFrame) : Prop :=
  (f.body.op ≠ 3 ∧ connOpen s f ∧ s.get .XPORT_EP_STATE_PEER_INC (connIdx f.ep f.ch) ≠ f.inc) ∨
  ((f.body.op ≤ 1 ∨ 5 ≤ f.body.op) ∧ ¬connOpen s f)

/-- A frame acknowledges what is not yet sent. -/
abbrev badAck (s : State) (f : GtFrame) : Prop :=
  f.flags.testBit 3 = true ∧ connOpen s f ∧ serialBefore (s.conn f.ep f.ch).next f.ack = true

/-- A good frame counts, and one without HOLD ends its endpoint's silence. -/
abbrev heard (s t : State) (f : GtFrame) : Prop :=
  counted s t 1 .XPORT_TOTALS_RX 0 ∧
  (f.flags.testBit 1 = false → t.get .XPORT_EP_STATE_SILENCE (silIdx f.ep) = 0 ∧ t.var .heardAt f.ep = s.get .BEAT_COUNT_COUNT)

/-- The checks of a frame in their order. One from no known endpoint, or of no connection, is answered NO_CONN; one that fails a
check, or acknowledges what is not sent, is a violation; a KEEPALIVE of a LOST rank without REJOIN is ignored; a quarantined
connection takes only KEEPALIVE, ACK and HELLO. A frame of another opcode, or a message that is not on its way, does
nothing. Choices of the model in it: assumption 55. -/
def Claim.FrameChecks : Prop :=
  ∀ (s : State) (f : GtFrame),
    (∀ c op, (c, op) ∈ frameCommands f →
      let op' := f.body.op
      let good := op' = op ∧ knownEp s f ∧ s.gtFault f = 0 ∧ s.ignored f = false ∧ ¬foreign s f
      (op' ≠ op → Completes c s (fun t => t = s)) ∧
      (op' = op → ¬knownEp s f → Completes c s (noConn s f)) ∧
      (op' = op → knownEp s f → s.gtFault f ≠ 0 → Completes c s (violates s f (s.gtFault f) op')) ∧
      (op' = op → knownEp s f → s.gtFault f = 0 → s.ignored f = true → Completes c s (fun t => t = s)) ∧
      (op' = op → knownEp s f → s.gtFault f = 0 → s.ignored f = false → foreign s f → Completes c s (noConn s f)) ∧
      (good → badAck s f → Completes c s (violates s f 6 op')) ∧
      (good → ¬badAck s f → s.connState f.ep f.ch = 3 → op ≠ 0 → op ≠ 1 → op ≠ 3 → Completes c s (fun t =>
        heard s t f ∧ naks s t f (nakBytes 8 0 op' f.ch f.seq 0) ∧ t.mem = s.mem ∧ t.queues = s.queues))) ∧
    (∀ n c op, (c, op) ∈ viaCommands (.noc n) → s.nocMsg op n = none → Completes c s (fun t => t = s)) ∧
    (∀ reason,
      let c : Instr := .gtUndefinedOpcode f reason
      let kind := s.get .XPORT_EP_CFG_KIND f.ep
      (kind = 0 → Completes c s (noConn s f)) ∧
      (kind ≠ 0 → reason = 1 → Completes c s (violates s f 1 0xFF)) ∧
      (kind ≠ 0 → reason = 3 → Completes c s (violates s f 3 f.body.op)) ∧
      (kind ≠ 0 → reason ≠ 1 → reason ≠ 3 → s.gtFault f ≠ 0 → f.ep < 65792 →
        Completes c s (violates s f (s.gtFault f) f.body.op)) ∧
      (kind ≠ 0 → reason ≠ 1 → reason ≠ 3 → s.gtFault f = 0 → Completes c s (fun t => t = s)))

/-- An unsequenced frame of an opcode passes every check of R382, on a connection that is open. -/
abbrev plainFrame (s : State) (f : GtFrame) (op : Nat) : Prop :=
  knownEp s f ∧ f.body.op = op ∧ s.gtFault f = 0 ∧ connOpen s f ∧
  s.get .XPORT_EP_STATE_PEER_INC (connIdx f.ep f.ch) = f.inc ∧ ¬badAck s f

/-- KEEPALIVE of an open connection ends the silence, and one with the REJOIN flag of a LOST rank makes it REJOINING, or late
where its step has begun. An ACK that lets nothing wait go frees the frames it covers, and sends again each that its bitmap
newly shows lost. A NAK of an OPEN connection changes nothing beside what its acknowledgement says, but NO_CONN closes the
connection, discards its frames and opens it again. Choices of the model in it: assumption 55. -/
def Claim.UnsequencedFrames : Prop :=
  ∀ (s : State) (f : GtFrame),
    let c := s.conn f.ep f.ch
    let i := connIdx f.ep f.ch
    let mine := c.unacked.filter (fun x => !(f.flags.testBit 3 && serialBefore x.seq f.ack))
    let plain := fun (t : State) => heard s t f ∧ t.mem = s.mem ∧ (f.flags.testBit 3 = false →
      Frame s t [] [(.XPORT_EP_STATE_SILENCE, silIdx f.ep), (.XPORT_TOTALS_RX, 0)] [(.heardAt, f.ep)])
    (plainFrame s f 0 → s.ignored f = false →
      let j := fieldOf f.body.payload 8 8 % 2 ^ 44
      let joins := s.get .XPORT_EP_CFG_KIND f.ep = 1 ∧ fieldOf f.body.payload 3 1 % 2 = 1 ∧
        s.get .COLL_PEER_STATE f.ep = 1 ∧ f.ep ≠ s.rank
      (¬joins → Completes (.gtKeepalive f) s plain) ∧
      (joins → Completes (.gtKeepalive f) s (fun t =>
        heard s t f ∧ t.mem = s.mem ∧ t.get .COLL_PEER_JOIN_STEP f.ep = j ∧
        t.get .COLL_PEER_STATE f.ep = (if s.get .BEAT_STEP_STEP < j then 2 else 1) ∧
        (j ≤ s.get .BEAT_STEP_STEP → t.get .COLL_STATUS_REJOIN_LATE = 1)))) ∧
    (plainFrame s f 1 → (f.flags.testBit 3 = true → c.wait = [] ∧ s.xport.parked = [] ∧ s.xport.outbox = []) →
      c.unacked.all (fun x => x.ecc == 0) = true →
      let map := ofLe f.body.payload
      let place := fun (x : Sent) => (x.seq + 2 ^ 32 - f.ack) % 2 ^ 32
      let above := fun (x : Sent) => ((List.range 64).filter (fun n => map.testBit n && decide (place x < n + 1))).length
      let lost := mine.filter (fun x =>
        !(decide (1 ≤ place x) && map.testBit (place x - 1)) && decide (3 ≤ above x ∧ x.above < above x))
      Completes (.gtAck f) s (fun t =>
        heard s t f ∧ t.mem = s.mem ∧
        (t.conn f.ep f.ch).unacked = mine.map (fun x => if lost.contains x then { x with above := above x } else x) ∧
        (t.conn f.ep f.ch).credit =
          (if f.flags.testBit 3 = true ∧ serialBefore c.credit f.credit = true then f.credit else c.credit) ∧
        countedEach s t lost.length .XPORT_TOTALS_TX 0 ∧ countedEach s t lost.length .XPORT_CONN_STATS_RETX i ∧
        (lost = [] → t.out = s.out))) ∧
    (plainFrame s f 2 → s.connState f.ep f.ch = 2 →
      (fieldOf f.body.payload 0 1 ≠ 4 → Completes (.gtNak f) s plain) ∧
      (fieldOf f.body.payload 0 1 = 4 → f.flags.testBit 3 = false → Completes (.gtNak f) s (fun t =>
        heard s t f ∧ t.mem = s.mem ∧ t.connState f.ep f.ch = 1 ∧ (t.conn f.ep f.ch).unacked = [] ∧
        counted s t (c.unacked.length + c.wait.length) .XPORT_CONN_STATS_DISCARDED i ∧
        (s.xport.parked = [] → (t.conn f.ep f.ch).wait = [] ∧ sentOne s t f.ep f.ch 3 0 (helloBody s 3).payload))))

/-- A HELLO opens a connection that is not open, and one of another incarnation opens it anew, its frames discarded; the answer
is HELLO_ACK, which alone answers one that repeats. A failed connection, or a channel that the endpoint lacks, is NO_CONN.
HELLO_ACK opens a connection that is opening. Both sides then begin at SEQ 0 with the peer's incarnation and credit.
Choices of the model in it: assumption 55. -/
def Claim.ConnectionsOpen : Prop :=
  ∀ (s : State) (f : GtFrame), knownEp s f → s.gtFault f = 0 → f.flags.testBit 3 = false →
    let c := s.conn f.ep f.ch
    let st := s.connState f.ep f.ch
    let i := connIdx f.ep f.ch
    let opened := fun (reset : Bool) (t : State) =>
      heard s t f ∧ t.connState f.ep f.ch = (if st = 3 then 3 else 2) ∧ t.get .XPORT_EP_STATE_PEER_INC i = f.inc % 2 ^ 32 ∧
      (t.conn f.ep f.ch).rcv = 0 ∧ (t.conn f.ep f.ch).ahead = [] ∧ (t.conn f.ep f.ch).ready = [] ∧
      (t.conn f.ep f.ch).credit = fieldOf f.body.payload 4 4 ∧
      (t.conn f.ep f.ch).win = (if st = 1 then c.win else s.get .XPORT_CFG_RX_WINDOW) ∧ t.mem = s.mem ∧
      (reset = true → counted s t (c.unacked.length + c.wait.length) .XPORT_CONN_STATS_DISCARDED i) ∧
      (reset = true ∨ c.wait = [] → s.xport.parked = [] → s.xport.outbox = [] →
        (t.conn f.ep f.ch).next = 0 ∧ (t.conn f.ep f.ch).unacked = [] ∧ (t.conn f.ep f.ch).wait = [] ∧
        (f.body.op = 3 → sentOne s t f.ep f.ch 4 0 (helloBody s 4).payload))
    let here := f.ch < s.channels f.ep
    (f.body.op = 3 →
      (st = 4 ∨ ¬here → Completes (.gtHello f) s (fun t =>
        heard s t f ∧ t.connState f.ep f.ch = st ∧ t.mem = s.mem)) ∧
      (connOpen s f → here → s.get .XPORT_EP_STATE_PEER_INC i = f.inc → Completes (.gtHello f) s (fun t =>
        heard s t f ∧ sentOne s t f.ep f.ch 4 0 (helloBody s 4).payload ∧ t.xport.conns = s.xport.conns ∧ t.mem = s.mem)) ∧
      (st ≤ 1 → here → Completes (.gtHello f) s (opened false)) ∧
      (connOpen s f → here → s.get .XPORT_EP_STATE_PEER_INC i ≠ f.inc → Completes (.gtHello f) s (opened true))) ∧
    (f.body.op = 4 →
      (st = 1 → Completes (.gtHelloAck f) s (opened false)) ∧
      (st = 0 ∨ st = 4 ∨ (st = 2 ∧ s.get .XPORT_EP_STATE_PEER_INC i = f.inc) → Completes (.gtHelloAck f) s (fun t =>
        heard s t f ∧ Frame s t [] [(.XPORT_EP_STATE_SILENCE, silIdx f.ep), (.XPORT_TOTALS_RX, 0)] [(.heardAt, f.ep)])))

/-- Tokens of QTOKEN with room join the consumer's buffer in order, and a cell's is written into its Tarn; one for a receive
that has completed is owed no more and is dropped as late; one of an old generation, of a queue that no other module produces,
or without room is discarded and counted. QCREDIT gives its credits to the producer, or they are discarded and counted alike.
The credits owed to a rank go out in one frame. -/
def Claim.QueueFrames : Prop :=
  ∀ s : State,
    (∀ (f : GtFrame) (q : Nat), inOrderFrame s f → f.body.op = 0x10 → f.body.arg1 % 8192 = q → s.coll.roots = [] →
      let x := s.queue q
      let ts := (chunks 256 f.body.payload).map ofLe
      let mine := s.prodKind q = 5 ∧ f.body.gen % 16 = x.gen % 16
      let room := x.depth - x.held
      (¬mine → Completes (.qtoken f) s (fun t =>
        counted s t ts.length .CLAY_FLIP_DISCARD_COUNT 0 ∧ t.queues = s.queues ∧ t.mem = s.mem)) ∧
      (mine → s.var .qOwed q = 0 → Completes (.qtoken f) s (fun t =>
        (t.queue q).buf = x.buf ++ (ts.take room).map (BitVec.ofNat 2048) ∧ (∀ r, r ≠ q → t.queue r = s.queue r) ∧
        countedEach s t (ts.length - room) .CLAY_FLIP_DISCARD_COUNT 0 ∧
        (s.consKind q ≠ 0 → t.mem = s.mem) ∧
        (∀ a v, s.tokenAddr q (s.var .qPlace q) = some a → ts = [v] → 0 < room →
          t.mem = (s.run (writeMem a (leBytes 256 v) s)).mem ∧
          t.var .qPlace q = (s.var .qPlace q + 1) % max 1 x.depth))) ∧
      (mine → 0 < s.var .qOwed q → ts.length = 1 → Completes (.qtoken f) s (fun t =>
        t.var .qOwed q = s.var .qOwed q - 1 ∧ t.var .qReport q = s.var .qReport q + 1 ∧
        counted s t 1 .COLL_LATE_DROPPED 0 ∧ t.queues = s.queues ∧ t.mem = s.mem))) ∧
    (∀ (f : GtFrame) (q n : Nat), inOrderFrame s f → f.body.op = 0x11 → f.body.payload = leBytes 2 q ++ leBytes 2 n →
      q < 8192 → n < 65536 → Sparse.get [] s.xport.outbox q = [] → s.var .qHeldAt q = 0 →
      let x := s.queue q
      let mine := s.consKind q = 5 ∧ f.body.gen % 16 = x.gen % 16
      let room := x.depth - x.held
      (mine → Completes (.qcredit f) s (fun t =>
        (t.queue q).credits = x.credits + min n room ∧ (t.queue q).buf = x.buf ∧ (∀ r, r ≠ q → t.queue r = s.queue r) ∧
        countedEach s t (n - room) .CLAY_FLIP_DISCARD_COUNT 0 ∧ t.mem = s.mem)) ∧
      (¬mine → Completes (.qcredit f) s (fun t =>
        countedEach s t n .CLAY_FLIP_DISCARD_COUNT 0 ∧ t.queues = s.queues ∧ t.mem = s.mem))) ∧
    (∀ rank,
      let qs := (s.listedVar .qReport).filter (fun i => match s.img.queueRec i with
        | some r => s.prodKind i == 5 && recGet r 6 2 == rank
        | none => false)
      let es := qs.map (fun i => leBytes 2 (recGet ((s.img.queueRec i).getD 0) 20 4) ++ leBytes 2 (s.var .qReport i))
      let b : GtBody := ⟨0x11, 0, es.length, 0, s.get .CLAY_GEN_ACTIVE % 16, es.flatten⟩
      (qs = [] → Completes (.qcreditReport rank) s (fun t => t = s)) ∧
      (qs ≠ [] → Completes (.qcreditReport rank) s (fun t =>
        (∀ i, i ∈ qs → t.var .qReport i = 0) ∧ t.mem = s.mem ∧ t.queues = s.queues ∧
        (b ∈ (t.conn rank 0).wait ∨ (∃ x ∈ (t.conn rank 0).unacked, x.body = b) ∨ (rank, 0, b) ∈ t.xport.parked))))

/-- Bytes of a stream join those that have come. Once a record is there whole it is taken: a good one goes as the tokens that its
target's mask selects, as far as the queue has credit; a malformed one is counted and answered with a NAK, and one that
DMA_RESTART_SKIP discards is counted. After a header that cannot be trusted the bytes are skipped, until a frame names a
record start. Bytes at another offset are a violation. A line that reads as UE halts the ingest channel. -/
def Claim.IngestFrames : Prop :=
  ∀ (s : State) (f : GtFrame) (line k : Nat), inOrderFrame s f → f.body.op = 0x50 → f.body.arg1 % 65536 = k →
    let x := s.stream k
    let bs := f.body.payload
    let at' := bits f.body.arg1 16 16
    let r := x.buf ++ (if x.skip then bs.drop at' else bs)
    let base := x.expect + bs.length - r.length
    let i := connIdx f.ep f.ch
    let came := fun (t : State) (buf : List Nat) => (t.stream k).expect = x.expect + bs.length ∧ (t.stream k).buf = buf ∧
      (t.stream k).conn = i + 1 ∧ t.mem = s.mem
    (s.lineBad line = true → Completes (.gsr f line) s (fun t =>
      t.get .ERR_DMA_STATE_HALTED 2 = 1 ∧
      t.get .ERR_DMA_STATE_ADDR 2 = canonDpa line / 64 * 64 % 2 ^ Fld.ERR_DMA_STATE_ADDR.width ∧
      t.var .ingestHalt = k + 1 ∧ t.stream k = x ∧ (t.conn f.ep f.ch).ready = [f] ∧ t.queues = s.queues ∧ t.mem = s.mem)) ∧
    (s.lineBad line = false → (256 ≤ k ∨ f.body.arg0 ≠ x.expect) → Completes (.gsr f line) s (fun t =>
      violates s f 7 0x50 t ∧ t.stream k = x)) ∧
    (s.lineBad line = false → k < 256 → f.body.arg0 = x.expect →
      (x.skip = true → bs.length ≤ at' → Completes (.gsr f line) s (fun t =>
        came t x.buf ∧ (t.stream k).skip = true ∧ t.queues = s.queues ∧
        (bs ≠ [] → counted s t bs.length .XPORT_GSR_DROP_SKIPPED_BYTES 0))) ∧
      (x.skip = false ∨ at' < bs.length →
        (r.length < 32 ∨ (headerFault r = 0 ∧ r.length < fieldOf r 4 4) → Completes (.gsr f line) s (fun t =>
          came t r ∧ (t.stream k).skip = false ∧ t.queues = s.queues)) ∧
        (32 ≤ r.length → headerFault r ≠ 0 →
          let nak := fun (t : State) => counted s t 1 .XPORT_GSR_MALFORMED 0 ∧ t.queues = s.queues ∧
            naks s t f (nakBytes 9 (headerFault r) 0x50 f.ch f.seq base)
          let cut := x.expect + at' - base
          (at' = 0xFFFF → Completes (.gsr f line) s (fun t => came t [] ∧ (t.stream k).skip = true ∧ nak t ∧
            counted s t r.length .XPORT_GSR_DROP_SKIPPED_BYTES 0)) ∧
          (x.skip = false → at' < bs.length → base < x.expect + at' → r.length < cut + 32 → Completes (.gsr f line) s (fun t =>
            came t (r.drop cut) ∧ (t.stream k).skip = false ∧ nak t ∧ counted s t cut .XPORT_GSR_DROP_SKIPPED_BYTES 0))) ∧
        (32 ≤ r.length → headerFault r = 0 → fieldOf r 4 4 = r.length →
          (x.drop = true → Completes (.gsr f line) s (fun t =>
            came t [] ∧ (t.stream k).drop = false ∧ counted s t 1 .ERR_DMA_STATE_SKIPPED 2 ∧ t.queues = s.queues)) ∧
          (x.drop = false → recordFault k x r ≠ 0 → Completes (.gsr f line) s (fun t =>
            came t [] ∧ counted s t 1 .XPORT_GSR_MALFORMED 0 ∧ t.queues = s.queues ∧
            naks s t f (nakBytes 9 (recordFault k x r) 0x50 f.ch f.seq base))) ∧
          (∀ secs, splitSections (fieldOf r 18 2) (r.drop 32) = some (secs, true) → x.drop = false → recordFault k x r = 0 →
            let taken := fun (t : State) => came t [] ∧ counted s t 1 .XPORT_GSR_RECORDS 0 ∧
              Sparse.get 0 (t.stream k).samples (gsrMb r) = fieldOf r 20 4 + 1
            (s.targets k = [] → Completes (.gsr f line) s (fun t => taken t ∧ t.queues = s.queues)) ∧
            (∀ q mask, s.targets k = [(q, mask)] → s.consKind q ≠ 5 → Completes (.gsr f line) s (fun t =>
              let ts := copyTokens mask r (secs.map cutHistory)
              let n := min ts.length (s.queue q).credits
              taken t ∧ (t.stream k).going = [(q, ts.drop n)] ∧
              (t.queue q).flight = (s.queue q).flight ++ (ts.take n).map (fun v => (v, (s.queue q).gen))))))))

/-- The timers. A frame without its acknowledgement leaves again and counts a try, as its store gives it; at the 64th an
unwatched endpoint's connection fails, its frames discarded; one that the store cannot give back opens the connection anew.
What is owed is acknowledged. HELLO leaves again while a connection opens. KEEPALIVE leaves at even beats, and by the clock
outside RUNNING, for each watched endpoint that is OPEN. With nothing due these change nothing.
Choices of the model in it: assumption 105. -/
def Claim.TransportTimers : Prop :=
  ∀ (s : State) (ep ch : Nat),
    let c := s.conn ep ch
    let i := connIdx ep ch
    (∀ seq x, c.unacked.find? (fun x => x.seq == seq) = some x → s.connUp ep ch = true →
      let fails := 63 ≤ x.tries ∧ s.get .XPORT_EP_CFG_WATCH ep = 0
      let lost := fun (t : State) => counted s t (c.unacked.length + c.wait.length) .XPORT_CONN_STATS_DISCARDED i
      let again := fun (ecc : Nat) (t : State) =>
        (t.conn ep ch).unacked =
          c.unacked.map (fun y => if y.seq = seq then { x with tries := x.tries + 1, ecc := ecc } else y) ∧
        (t.conn ep ch).owe = false ∧ counted s t 1 .XPORT_TOTALS_TX 0 ∧ counted s t 1 .XPORT_CONN_STATS_RETX i ∧ t.mem = s.mem
      (fails → Completes (.gtRto ep ch seq) s (fun t =>
        t.connState ep ch = 4 ∧ (t.conn ep ch).unacked = [] ∧ lost t ∧ t.mem = s.mem ∧
        (s.running = true → posted s t 0x33 6 0 (ep % 65536) ep ch))) ∧
      (¬fails → x.ecc = 0 → Completes (.gtRto ep ch seq) s (again 0)) ∧
      (¬fails → x.ecc = 1 → Completes (.gtRto ep ch seq) s (fun t =>
        again 0 t ∧ counted s t 1 .ERR_STORE_COUNT_CE (storeIdx 5 (s.storeDie ep)))) ∧
      (¬fails → 2 ≤ x.ecc → Completes (.gtRto ep ch seq) s (fun t =>
        t.connState ep ch = 1 ∧ (t.conn ep ch).unacked = [] ∧ lost t ∧ t.mem = s.mem ∧
        counted s t 1 .ERR_STORE_COUNT_UE (storeIdx 5 (s.storeDie ep))))) ∧
    (∀ seq, c.unacked.find? (fun x => x.seq == seq) = none ∨ s.connUp ep ch = false →
      Completes (.gtRto ep ch seq) s (fun t => t = s)) ∧
    (c.owe = true → s.connUp ep ch = true → Completes (.gtAckTimer ep ch) s (fun t =>
      (t.conn ep ch).owe = false ∧ (t.conn ep ch).unacked = c.unacked ∧ sentOne s t ep ch 1 0 (leBytes 8 c.sack) ∧
      t.mem = s.mem)) ∧
    (c.owe = false ∨ s.connUp ep ch = false → Completes (.gtAckTimer ep ch) s (fun t => t = s)) ∧
    (s.connState ep ch = 1 → Completes (.gtHelloRetry ep ch) s (fun t =>
      sentOne s t ep ch 3 0 (helloBody s 3).payload ∧ t.xport.conns = s.xport.conns ∧ t.mem = s.mem)) ∧
    (s.connState ep ch ≠ 1 → Completes (.gtHelloRetry ep ch) s (fun t => t = s)) ∧
    (let eps := (s.listed .XPORT_EP_CFG_WATCH).filter (fun e => s.connState e 0 == 2)
     let off := s.running = true ∧ s.get .BEAT_COUNT_COUNT % 2 = 1
     (off → Completes .keepaliveSend s (fun t => t = s)) ∧
     (¬off → Completes .keepaliveSend s (fun t =>
       countedEach s t eps.length .XPORT_TOTALS_TX 0 ∧ t.xport.conns = s.xport.conns ∧ t.mem = s.mem ∧
       (eps = [ep] → sentOne s t ep 0 0 0 s.keepalive.payload))))

/-- The controller's writes: a commit is pending, QUAR_CLEAR makes the selected endpoint's quarantined connections OPEN, and
CONN_RESET closes its connections, discarding their frames, and opens again those of a sink or of another module, which the
transport itself opens. -/
def Claim.TransportControls : Prop :=
  ∀ s : State,
    Completes .xportCommit s (fun t =>
      t.get .XPORT_STATUS_COMMIT_PENDING = 1 ∧ Frame s t [] [(.XPORT_STATUS_COMMIT_PENDING, 0)] []) ∧
    Completes .quarClear s (fun t =>
      (∀ ch, ch < 4 → t.connState s.selEp ch = (if s.connState s.selEp ch = 3 then 2 else s.connState s.selEp ch)) ∧
      Frame s t [] ((List.range 4).map (fun ch => (.XPORT_EP_STATE_CONN, connIdx s.selEp ch))) []) ∧
    (let ep := s.selEp
     let kind := s.get .XPORT_EP_CFG_KIND ep
     let own := (kind = 1 ∧ ep ≠ s.rank) ∨ kind = 2
     Completes .connReset s (fun t =>
       (∀ ch, ch < 4 → t.connState ep ch = (if own ∧ ch < s.newChannels ep then 1 else 0) ∧
         (s.connState ep ch ≠ 0 → (t.conn ep ch).unacked = [] ∧
           counted s t ((s.conn ep ch).unacked.length + (s.conn ep ch).wait.length)
           .XPORT_CONN_STATS_DISCARDED (connIdx ep ch))) ∧
       t.mem = s.mem ∧
       (s.xport.parked = [] → s.xport.outbox = [] →
         countedEach s t (if own then min 4 (s.newChannels ep) else 0) .XPORT_TOTALS_TX 0)))

/-- KEEPALIVE, ACK, NAK, HELLO and HELLO_ACK act on their connection; a bad frame is a violation. -/
def Obligations.ConnectionsAndUnsequencedFrames : Prop := Claim.FrameChecks ∧ Claim.UnsequencedFrames ∧ Claim.ConnectionsOpen

/-- Queue frames move tokens and credits between modules, and stream bytes become records and tokens. -/
def Obligations.QueueAndIngestFrames : Prop := Claim.QueueFrames ∧ Claim.IngestFrames

/-- Timers resend, acknowledge and keep alive; the controls clear quarantine and reset connections. -/
def Obligations.TransportTimersAndControls : Prop := Claim.TransportTimers ∧ Claim.TransportControls

/-! Errors. -/

/-- A pass of the scrubber begins at its base, goes on after an uncorrectable line where it stopped, and ends with SCRUB_DONE
where no line is left or it is aborted. A line without an error is counted, a correctable or poisoned one counted as such, an
uncorrectable one halts the pass. A correctable line that is written back loses its error. With nothing to do these change
nothing. Choices of the model in it: assumption 39. -/
def Obligations.ScrubAndWriteback : Prop :=
  ∀ s : State,
    let st := s.get .ERR_STATUS_SCRUB_STATE
    let ends := fun (t : State) (lines ue poisoned : Nat) => t.get .ERR_STATUS_SCRUB_STATE = 3 ∧ t.mem = s.mem ∧
      (s.running = true → posted s t 4 9 0 0 lines (ue + poisoned * 2 ^ 32))
    let stops := fun (t : State) =>
      ends t (s.get .ERR_SCRUB_SUM0_LINES) (s.get .ERR_SCRUB_SUM1_UE) (s.get .ERR_SCRUB_SUM1_POISONED)
    (st ≠ 1 → st ≠ 2 → Completes .scrubGo s (fun t =>
      t.get .ERR_SCRUB_NEXT_LINE = s.get .ERR_SCRUB_BASE_LINE % 2 ^ Fld.ERR_SCRUB_NEXT_LINE.width ∧
      t.get .ERR_SCRUB_SUM0_LINES = 0 ∧ t.get .ERR_SCRUB_SUM0_CORRECTED = 0 ∧ t.get .ERR_SCRUB_SUM1_UE = 0 ∧
      t.get .ERR_SCRUB_SUM1_POISONED = 0 ∧ t.get .ERR_SCRUB_FIRST_UE_LINE = 0 ∧ t.get .ERR_SCRUB_LAST_UE_LINE = 0 ∧
      t.var .scrubLeft = s.get .ERR_SCRUB_LEN_LINES ∧
      (s.get .ERR_SCRUB_LEN_LINES ≠ 0 → t.get .ERR_STATUS_SCRUB_STATE = 1 ∧ t.mem = s.mem ∧ t.logs = s.logs) ∧
      (s.get .ERR_SCRUB_LEN_LINES = 0 → ends t 0 0 0))) ∧
    (st = 1 → Completes .scrubGo s (fun t => t = s)) ∧
    (st = 2 → s.var .scrubLeft ≠ 0 → Completes .scrubGo s (fun t =>
      t.get .ERR_STATUS_SCRUB_STATE = 1 ∧ Frame s t [] [(.ERR_STATUS_SCRUB_STATE, 0)] [])) ∧
    (st = 2 → s.var .scrubLeft = 0 → Completes .scrubGo s stops) ∧
    (st = 1 ∨ st = 2 → Completes .scrubAbort s stops) ∧
    (st ≠ 1 → st ≠ 2 → Completes .scrubAbort s (fun t => t = s)) ∧
    (st ≠ 1 → Completes .scrubLineRead s (fun t => t = s)) ∧
    (st = 1 → scrubNext (s.get .ERR_SCRUB_NEXT_LINE) = none → Completes .scrubLineRead s stops) ∧
    (∀ l, st = 1 → scrubNext (s.get .ERR_SCRUB_NEXT_LINE) = some l →
      let a := canonDpa (64 * l)
      let o := s.lineOutcome a
      let left := s.var .scrubLeft - 1
      Completes .scrubLineRead s (fun t =>
        t.get .ERR_SCRUB_NEXT_LINE = (l + 1) % 2 ^ Fld.ERR_SCRUB_NEXT_LINE.width ∧ t.var .scrubLeft = left ∧
        counted s t 1 .ERR_SCRUB_SUM0_LINES 0 ∧
        t.get .ERR_STATUS_SCRUB_STATE = (if o = 2 then 2 else if left = 0 then 3 else 1) ∧ t.mem = s.mem ∧
        (o = 0 → t.unitErr = s.unitErr ∧ (left ≠ 0 → t.logs = s.logs)) ∧
        (o = 1 → counted s t 1 .ERR_SCRUB_SUM0_CORRECTED 0 ∧ (∀ u, a ≤ u → u < a + 64 → Sparse.get 0 t.unitErr u ≠ 1)) ∧
        (o = 2 → counted s t 1 .ERR_SCRUB_SUM1_UE 0 ∧
          t.get .ERR_SCRUB_LAST_UE_LINE = a / 64 % 2 ^ Fld.ERR_SCRUB_LAST_UE_LINE.width ∧
          (s.running = true → posted s t 1 9 (storeOf a).1 (storeOf a).2 a 13)) ∧
        (3 ≤ o → counted s t 1 .ERR_SCRUB_SUM1_POISONED 0))) ∧
    (∀ a,
      let l := canonDpa a / 64 * 64
      (s.lineOutcome l = 1 → Completes (.eccWriteback a) s (fun t =>
        (∀ u, Sparse.get 0 t.unitErr u =
          if l ≤ u ∧ u < l + 64 ∧ Sparse.get 0 s.unitErr u = 1 then 0 else Sparse.get 0 s.unitErr u) ∧
        Frame s t [.unitErr] [] [])) ∧
      (s.lineOutcome l ≠ 1 → Completes (.eccWriteback a) s (fun t => t = s)))

/-- A halted channel goes on where no frame waits for its unit: DMA_RESTART clears HALTED. With SKIP the emit channel's record
becomes PAD, the ingest channel drops its stream's record, and the refill channel passes its record over; a record of bad HCRC
that the refill channel then takes again is malformed. A channel that runs is left alone. LINE_CLEAR empties the bucket's tag
line, or the set of the Drift map; STACK_CLEAR ends a stack's STATE_LOST, here where it deferred nothing that it can serve.
Choices of the model in it: assumption 106. -/
def Claim.RestartsAndClears : Prop :=
  ∀ (s : State) (ch : Nat),
    let goes := fun (t : State) => t.get .ERR_DMA_STATE_HALTED ch = 0
    let skips := fun (t : State) => goes t ∧ counted s t 1 .ERR_DMA_STATE_SKIPPED ch
    let sel := s.get .ERR_DMA_SEL_CHANNEL = ch ∧ s.dmaHalted ch = true ∧ (∀ p ∈ s.xport.conns, p.2.ready = [])
    (s.dmaHalted (s.get .ERR_DMA_SEL_CHANNEL) = false → Completes .dmaRestart s (fun t => t = s) ∧
      Completes .dmaRestartSkip s (fun t => t = s)) ∧
    (sel → ch = 0 →
      Completes .dmaRestart s (fun t => goes t ∧ t.spring.emitHalt = 0 ∧
        Frame s t [.spring] [(.ERR_DMA_STATE_HALTED, 0)] []) ∧
      (s.spring.ring.find? (fun r => r.seq == s.spring.emitHalt - 1) = none → Completes .dmaRestartSkip s (fun t =>
        skips t ∧ t.spring.emitHalt = 0 ∧ t.mem = s.mem)) ∧
      (∀ r, s.spring.ring.find? (fun r => r.seq == s.spring.emitHalt - 1) = some r → Completes .dmaRestartSkip s (fun t =>
        let h := (recHeader 0x3F 0 s.rank r.len 0).take 8 ++ leBytes 8 r.seq ++ leBytes 8 0 ++ leBytes 4 (s.get .CLAY_GEN_ACTIVE)
        let pad := h ++ leBytes 4 (crc32c h) ++ List.replicate (r.len - 32) 0
        skips t ∧ t.spring.emitHalt = 0 ∧ t.mem = (s.run (writeMem r.addr pad s)).mem ∧
        t.spring.ring = s.spring.ring.map (fun y => if y.seq = r.seq then { y with type := 0x3F, step := 0 } else y)))) ∧
    (sel → ch = 1 →
      ((∀ p ∈ s.spring.refill, p.2.bytes.length < 32) → Completes .dmaRestart s (fun t => goes t ∧
        t.spring.refHalt = 0 ∧ Frame s t [.spring] [(.ERR_DMA_STATE_HALTED, 1)] [])) ∧
      (∀ i r, s.spring.refill = [(i, r)] → i = s.spring.refHalt - 1 →
        let after := { r with number := r.number + 1, bytes := r.bytes.drop (fieldOf r.bytes 4 4) }
        let len := fieldOf r.bytes 4 4
        (after.bytes.length < 32 → Completes .dmaRestartSkip s (fun t => skips t ∧ t.spring.refHalt = 0 ∧
          Sparse.get {} t.spring.refill i = after ∧ t.mem = s.mem)) ∧
        (r.bytes.length = len → len % 8 = 0 → 32 ≤ len → len ≤ 65600 → crc32c (r.bytes.take 28) ≠ fieldOf r.bytes 28 4 →
          Completes .dmaRestart s (fun t => goes t ∧ counted s t 1 .SPRING_REFILL_MALFORMED 0 ∧
            Sparse.get {} t.spring.refill i = after ∧ t.mem = s.mem)))) ∧
    (sel → ch = 2 →
      Completes .dmaRestart s (fun t => goes t ∧ t.var .ingestHalt = 0 ∧
        Frame s t [] [(.ERR_DMA_STATE_HALTED, 2)] [(.ingestHalt, 0)]) ∧
      Completes .dmaRestartSkip s (fun t => goes t ∧ (t.stream (s.var .ingestHalt - 1)).drop = true ∧
        Frame s t [.xport] [(.ERR_DMA_STATE_HALTED, 2)] [(.ingestHalt, 0)])) ∧
    (let line := 64 * s.get .ERR_CLEAR_ADDR_LINE
     let stack := s.get .ERR_CLEAR_ADDR_STACK
     let set := stack * 2 ^ 18 + dmSet (s.get .DRIFT_PROBE_KEY_KEY stack)
     (s.get .ERR_CLEAR_ADDR_TARGET = 0 → line < 0x010000000000 →
       (∀ b, s.tagLineAt line = some b → Completes .lineClear s (fun t =>
         Wrote s t b (List.replicate 128 0) ∧ (s.unitErr = [] → Frame s t [.mem, .unitErr] [] []))) ∧
       (s.tagLineAt line = none → Completes .lineClear s (fun t => t = s))) ∧
     (s.get .ERR_CLEAR_ADDR_TARGET = 0 → 0x010000000000 ≤ line → Completes .lineClear s (fun t => t = s)) ∧
     (s.get .ERR_CLEAR_ADDR_TARGET ≠ 0 → Completes .lineClear s (fun t =>
       t.rows.dmap = s.rows.dmap.filter (fun p => p.1 / 8 != set) ∧ Sparse.get 0 t.rows.dmapBad set = 0 ∧
       Frame s t [.rows] [] []))) ∧
    (s.get .ERR_STORE_SEL_INDEX = ch →
      (ch < 16 → (s.get .ERR_STATUS_STATE_LOST).testBit ch = true →
        s.rows.deferred.filter (fun h => h.stack == ch && !s.tornRow ch h.key) = [] → Completes .stackClear s (fun t =>
          (∀ j, j < 16 → (t.get .ERR_STATUS_STATE_LOST).testBit j = ((s.get .ERR_STATUS_STATE_LOST).testBit j && j != ch)) ∧
          Sparse.get 0 t.rows.listBad (2 * ch) = 0 ∧ Sparse.get 0 t.rows.listBad (2 * ch + 1) = 0 ∧
          Frame s t [.rows] [(.ERR_STATUS_STATE_LOST, 0)] [])) ∧
      (16 ≤ ch ∨ (s.get .ERR_STATUS_STATE_LOST).testBit ch = false → Completes .stackClear s (fun t => t = s)))

/-- A page that is on its stack's list is answered at once, as is one that the list has no room for; one outside every table is
put on it and answered, and one inside a table is put on it while its rows move. A retirement whose moves have ended is
answered by what is left, once the rows passed over have been visited again. A lost cell is latched, posted and a fault. The
error history takes the oldest event that it is owed. Choices of the model in it: assumption 41. -/
def Claim.RetirementLossesHistory : Prop :=
  ∀ s : State,
    let page := s.get .ERR_RETIRE_ADDR_PAGE * 4096
    let stack := page / 0x1000000000
    let listed := Sparse.get [] s.rows.retired stack
    let st := s.get .ERR_STATUS_RETIRE_STATE
    let ended := fun (t : State) (p result moved : Nat) => t.get .ERR_STATUS_RETIRE_STATE = 2 ∧
      t.get .ERR_STATUS_RETIRE_RESULT = result ∧ t.var .retirePage = 0 ∧ t.mem = s.mem ∧
      (s.running = true → posted s t 5 9 0 (p / 0x1000000000) p (result + moved * 2 ^ 32))
    let joins := fun (t : State) => page ∈ Sparse.get [] t.rows.retired stack ∧
      t.get .ERR_RETIRE_STATS_PAGES = (s.get .ERR_RETIRE_STATS_PAGES + 1) % 2 ^ Fld.ERR_RETIRE_STATS_PAGES.width
    (st = 1 → Completes .retireGo s (fun t => t = s)) ∧
    (st ≠ 1 →
      (listed.contains page = true → Completes .retireGo s (fun t => ended t page 5 0 ∧ t.rows = s.rows)) ∧
      (listed.contains page = false → 4096 ≤ listed.length → Completes .retireGo s (fun t =>
        ended t page 4 0 ∧ t.rows = s.rows)) ∧
      (listed.contains page = false → listed.length < 4096 → s.notTable stack page = true → Completes .retireGo s (fun t =>
        ended t page 3 0 ∧ joins t)) ∧
      (listed.contains page = false → listed.length < 4096 → s.notTable stack page = false → Completes .retireGo s (fun t =>
        t.get .ERR_STATUS_RETIRE_STATE = 1 ∧ t.get .ERR_STATUS_RETIRE_RESULT = 0 ∧ t.var .retirePage = page + 1 ∧
        t.var .retireLeft = 0 ∧ joins t))) ∧
    (let moving := s.rows.drifts.any (fun d => d.cause == 2)
     let done := fun (t : State) =>
       ended t (s.var .retirePage - 1) (if s.var .retireLeft = 0 then 1 else 2) (s.var .retireRows)
     (st ≠ 1 ∨ moving = true → Completes .retireDone s (fun t => t = s)) ∧
     (st = 1 → moving = false → s.var .retireRevisit ≠ 0 → Completes .retireDone s (fun t => done t ∧ t.rows = s.rows)) ∧
     (st = 1 → moving = false → s.var .retireRevisit = 0 → Completes .retireDone s (fun t =>
       t.var .retireRevisit = 1 ∧ t.rows.revisit = [] ∧ (s.rows.revisit = [] → done t)))) ∧
    (∀ cell cause,
      (cell < 144 → Completes (.cellLost cell cause) s (fun t =>
        (t.get .CLAY_CELL_FAIL_FAILED (cell / 64)).testBit (cell % 64) = true ∧ t.mem = s.mem ∧
        (s.running = true → posted s t 0x12 0 0 cell (cause % 2) 0 ∧ t.var .faultPending = 1 ∧
          Frame s t [.logs] [(.CLAY_CELL_FAIL_FAILED, cell / 64)] [(.faultPending, 0), (.faultKinds, 0)]))) ∧
      (144 ≤ cell → Completes (.cellLost cell cause) s (fun t => t = s))) ∧
    (∀ uptime, s.logs.owed = [] → Completes (.errorHistoryAppend uptime) s (fun t => t = s)) ∧
    (∀ uptime e rest, s.logs.owed = e :: rest → Completes (.errorHistoryAppend uptime) s (fun t =>
      let b := histBody s uptime e
      t.logs.owed = rest ∧ t.var .histCount = s.var .histCount + 1 ∧
      Sparse.get 0 t.logs.hist (s.var .histCount % 2 ^ 20) = ofLe (b ++ leBytes 4 (crc32c b)) ∧
      Frame s t [.logs] [] [(.histCount, 0)]))

/-- Halted channels go on, clears clear, pages retire, lost cells latch, and the history takes events. -/
def Obligations.RestartsClearsRetirement : Prop := Claim.RestartsAndClears ∧ Claim.RetirementLossesHistory

/-! Power, boot and the sideband. -/

/-- A reset source pends, and the lowest-numbered level of those that pend is taken. -/
abbrev raises (s t : State) (src level : Nat) : Prop :=
  t.var .rstPend = s.var .rstPend ||| 2 ^ src ∧
  t.var .rstLevel = (if s.var .rstLevel = 0 then level + 1 else min (s.var .rstLevel) (level + 1))

/-- The input comes and goes: POWER_ON latches the strap and asks for a reset at level 0; PWR_OK_OUT follows the bulk, a
mated clip and a fallen rail are kept, and a brownout asks for its reset. An event that is not due changes nothing.
Choices of the model in it: assumption 67. -/
def Claim.InputAndRails : Prop :=
  ∀ s : State,
    let dark := s.var .railsOff ≠ 0 ∧ s.var .unpowered ≠ 1
    (∀ p, (s.var .unpowered ≠ 0 → Completes (.powerOn p) s (fun t =>
        t.var .unpowered = 0 ∧ t.var .bulk = 0 ∧ t.var .strap = p % 16 ∧ t.get .PWR_STATUS_INPUT_OK = 1 ∧ raises s t 0 0 ∧
        Frame s t [] [(.PWR_STATUS_INPUT_OK, 0)] [(.unpowered, 0), (.bulk, 0), (.strap, 0), (.rstPend, 0), (.rstLevel, 0)])) ∧
      (s.var .unpowered = 0 → Completes (.powerOn p) s (fun t => t = s))) ∧
    (s.var .unpowered ≠ 1 → s.var .bulk ≠ 1 → s.var .railsOff ≠ 1 → Completes .pwrOkRelease s (fun t =>
      t.var .bulk = 1 ∧ t.var .pwrOk = (if s.var .tripped = 0 then 1 else 0) ∧ Frame s t [] [] [(.bulk, 0), (.pwrOk, 0)])) ∧
    (s.var .unpowered = 1 ∨ s.var .bulk = 1 ∨ s.var .railsOff = 1 → Completes .pwrOkRelease s (fun t => t = s)) ∧
    Completes .clipSenseMate s (fun t => t.var .clip = 1 ∧ Frame s t [] [] [(.clip, 0)]) ∧
    (dark →
      Completes .brownout s (fun t => t.var .railsOff = 0 ∧ t.var .bulk = 0 ∧ t.get .PWR_STATUS_INPUT_OK = 1 ∧
        raises s t 1 (s.sourceLevel 1) ∧
        Frame s t [] [(.PWR_STATUS_INPUT_OK, 0)] [(.railsOff, 0), (.bulk, 0), (.rstPend, 0), (.rstLevel, 0)]) ∧
      Completes .railsFall s (fun t => t.var .unpowered = 1 ∧ t.var .railsOff = 0 ∧ t.var .pwrOk = 0 ∧ t.boot.phase = 0 ∧
        t.get .PWR_STATUS_STATE = 0 ∧ t.mem = [] ∧ t.logs.owed = [] ∧ t.logs.hist = s.logs.hist ∧
        t.boot.fuses = s.boot.fuses ∧ t.boot.burnt = s.boot.burnt ∧
        t.boot.image = (if s.var .fwBusy = 1 then [] else s.boot.image))) ∧
    (¬dark → Completes .brownout s (fun t => t = s) ∧ Completes .railsFall s (fun t => t = s))

/-- Reset sources pend at their fused levels, the lowest-numbered of those that pend wins; MOD_RESET_N holds until it rises;
PWR_STANDBY turns off the rails of a STOPPED module with its HBM and ports, and PWR_WAKE asks for a reset at level 1. Commits
of power and of FMP act at once in STOPPED and wait for a boundary otherwise. An event that is not due changes nothing. -/
def Claim.ResetSourcesAndPowerStates : Prop :=
  ∀ s : State,
    let idle := fun (c : Instr) => Completes c s (fun t => t = s)
    let raised := fun (t : State) (src : Nat) => raises s t src (s.sourceLevel src)
    let standby := s.stopped = true ∧ s.get .PWR_STATUS_STATE = 1
    let wakes := s.get .PWR_STATUS_STATE = 0 ∧ s.boot.phase = 3
    Completes .watchdog s (fun t => raised t 3 ∧ Frame s t [] [] [(.rstPend, 0), (.rstLevel, 0)]) ∧
    Completes .systemControllerFault s (fun t => raised t 6 ∧ Frame s t [] [] [(.rstPend, 0), (.rstLevel, 0)]) ∧
    (s.var .pinLow ≠ 1 → Completes .modResetN s (fun t => t.var .pinLow = 1 ∧ raised t 2 ∧
      Frame s t [] [] [(.pinLow, 0), (.rstPend, 0), (.rstLevel, 0)])) ∧
    (s.var .pinLow = 1 → idle .modResetN) ∧
    (s.var .pinLow ≠ 0 → Completes .modResetNRelease s (fun t => t.var .pinLow = 0 ∧
      t.boot.phase = (if s.boot.phase = 0 then 1 else s.boot.phase) ∧ Frame s t [.boot] [] [(.pinLow, 0)])) ∧
    (s.var .pinLow = 0 → idle .modResetNRelease) ∧
    (standby → Completes .pwrStandby s (fun t =>
      t.get .PWR_STATUS_STATE = 0 ∧ (∀ a, a < 0x020000000000 → t.byteAt a = 0) ∧
      (∀ p, p < 16 → t.get .PORT_STATUS_STATE p = (if s.get .PORT_STATUS_STATE p = 5 then 5 else 0)))) ∧
    (¬standby → idle .pwrStandby) ∧
    (wakes → Completes .pwrWake s (fun t => raises s t 4 1 ∧ Frame s t [] [] [(.rstPend, 0), (.rstLevel, 0)])) ∧
    (¬wakes → idle .pwrWake) ∧
    (let waits := fun (c : Instr) (f : Fld) => Completes c s (fun t => t.get f = 1 ∧ Frame s t [] [(f, 0)] [])
     let lands := fun (t : State) (f : Fld) => t.get f = s.clampF f 0 (s.shadowOf f) % 2 ^ f.width ∧ t.shadowOf f = t.get f
     let pwr : List Fld := [.PWR_CFG_CAP, .PWR_CFG_PAD_FLOOR]
     let fmp : List Fld := [.FMP_CFG_UDP_PORT, .FMP_CFG_IDLE_S, .FMP_CFG_SOUNDINGS, .FMP_CFG_EVENTS]
     (s.stopped = false → waits .pwrCommit .PWR_STATUS_COMMIT_PENDING ∧ waits .fmpCommit .FMP_STATUS_COMMIT_PENDING) ∧
     (s.stopped = true →
       Completes .pwrCommit s (fun t => t.get .PWR_STATUS_COMMIT_PENDING = 0 ∧ t.mem = s.mem ∧
         (0 ∈ s.shadowed ⟨11, 0, pwr⟩ → ∀ f ∈ pwr, lands t f)) ∧
       Completes .fmpCommit s (fun t => t.get .FMP_STATUS_COMMIT_PENDING = 0 ∧ t.mem = s.mem ∧
         (0 ∈ s.shadowed ⟨10, 0, fmp⟩ → (∀ f ∈ fmp, lands t f) ∧ t.boot.udp = t.get .FMP_CFG_UDP_PORT ∧
           t.boot.idle = t.get .FMP_CFG_IDLE_S))))

/-- A reading sets every sensor's temperature and greatest temperature and what the input draws, and warns at 105 °C until all
are at 100 °C. The pad moves by 256 clk, in RUNNING at a boundary that opens a multiple of 64 and at no other. 115 °C trips,
and 100 °C recovers; otherwise these change nothing. Choices of the model in it: assumption 72. -/
def Obligations.TemperatureAndThrottling : Prop :=
  ∀ s : State,
    (∀ ts mv amps watts peak, Completes (.thermSensorRead ts mv amps watts peak) s (fun t =>
      (∀ i, i < 37 →
        let now := ts.getD i (s.get .PWR_THERM_TEMP i) % 65536
        t.get .PWR_THERM_TEMP i = now ∧
        t.get .PWR_THERM_MAX i = (if temp now > temp (s.get .PWR_THERM_MAX i) then now else s.get .PWR_THERM_MAX i) % 65536) ∧
      t.get .PWR_INPUT_MV = mv % 2 ^ Fld.PWR_INPUT_MV.width ∧ t.get .PWR_INPUT_POWER = watts % 2 ^ Fld.PWR_INPUT_POWER.width ∧
      t.get .PWR_INPUT_CURRENT = amps % 2 ^ Fld.PWR_INPUT_CURRENT.width ∧
      t.get .PWR_INPUT_PEAK = max peak (s.get .PWR_INPUT_PEAK) % 2 ^ Fld.PWR_INPUT_PEAK.width ∧
      t.get .PWR_THERM_HOTTEST = (hottest t.temps).1 % 2 ^ Fld.PWR_THERM_HOTTEST.width ∧
      t.var .thermWarn = (if s.var .thermWarn = 0 ∧ t.anyHot 105 = true then 1
        else if s.var .thermWarn = 1 ∧ t.allCool 100 = true then 0 else s.var .thermWarn) ∧
      t.mem = s.mem ∧ t.queues = s.queues)) ∧
    (let due := s.var .boundaryDue
     let opens := if due ≥ 2 then s.get .BEAT_COUNT_COUNT else s.get .BEAT_COUNT_COUNT + 1
     let stays := s.running = true ∧ (due = 0 ∨ opens % 64 ≠ 0)
     let floor := s.get .PWR_CFG_PAD_FLOOR
     let pad := max s.nextPad.1 floor
     (¬stays → Completes .throttleUpdate s (fun t =>
       t.var .padP = s.nextPad.1 ∧ t.get .PWR_THROTTLE_PAD = pad % 2 ^ Fld.PWR_THROTTLE_PAD.width ∧
       t.get .PWR_THROTTLE_CAUSE = (if pad = 0 then 0 else if s.nextPad.1 < floor then 3 else s.nextPad.2) %
         2 ^ Fld.PWR_THROTTLE_CAUSE.width ∧ t.mem = s.mem ∧
       (s.running = true → Frame s t [.logs] [(.PWR_THROTTLE_PAD, 0), (.PWR_THROTTLE_CAUSE, 0)]
         [(.padP, 0), (.padWhy, 0), (.alert, 0)]))) ∧
     (stays → Completes .throttleUpdate s (fun t => t = s))) ∧
    (let trips := s.anyHot 115 = true ∧ s.var .tripped ≠ 1
     (trips → Completes .thermalTrip s (fun t =>
       t.var .tripped = 1 ∧ t.var .pwrOk = 0 ∧ t.var .alert = s.var .alert ||| 8 ∧ raises s t 5 (s.sourceLevel 5) ∧
       Frame s t [] [] [(.tripped, 0), (.pwrOk, 0), (.alert, 0), (.rstPend, 0), (.rstLevel, 0)])) ∧
     (¬trips → Completes .thermalTrip s (fun t => t = s))) ∧
    (let cools := s.var .tripped = 1 ∧ s.allCool 100 = true
     (cools → Completes .thermRecover s (fun t =>
       t.var .tripped = 0 ∧ t.var .pwrOk = s.var .bulk ∧ Frame s t [] [] [(.tripped, 0), (.pwrOk, 0)])) ∧
     (¬cools → Completes .thermRecover s (fun t => t = s)))

/-- The powered SMBus target answers each read with its bytes and their error code (of SMBus 2.0: presumed, assumption 108); a
read of the alert status clears it; other commands read 0xFF and a write changes nothing. While ALERT_N is asserted the Alert
Response Address answers. Without power it answers nothing. Choices of the model in it: assumption 73. -/
def Obligations.SidebandReads : Prop :=
  ∀ s : State,
    let on := s.var .unpowered ≠ 1
    let addr := s.get .PWR_PROFILE_SMB_ADDR
    let pec := fun (cmd : Nat) (bs : List Nat) =>
      ([2 * addr, cmd, 2 * addr + 1] ++ (if bs.length > 2 then [bs.length] else []) ++ bs).foldl pecByte 0
    let sends := fun (t : State) (cmd : Nat) (bs : List Nat) => t.out = s.out ++ [⟨.smbus, addr, [pec cmd bs], bs, []⟩]
    let reads := fun (c : Instr) (cmd : Nat) (bs : List Nat) =>
      (on → Completes c s (fun t => sends t cmd bs ∧ Frame s t [.out] [] [])) ∧ (¬on → Completes c s (fun t => t = s))
    reads .smbReadState 0 [s.get .PWR_STATUS_STATE] ∧ reads .smbReadProfile 1 [s.get .PWR_PROFILE_PROFILE] ∧
    reads .smbReadVoltage 2 (leBytes 2 (s.get .PWR_INPUT_MV)) ∧ reads .smbReadCurrent 3 (leBytes 2 (s.get .PWR_INPUT_CURRENT)) ∧
    reads .smbReadPower 4 (leBytes 2 (s.get .PWR_INPUT_POWER)) ∧ reads .smbReadTemp 5 (leBytes 2 (s.get .PWR_THERM_HOTTEST)) ∧
    reads .smbReadSerial 7 (leBytes 16 s.boot.fuses.serial) ∧ reads .smbReadSvn 8 [s.get .FMP_FW_RUN_SVN] ∧
    (∀ cmd, 8 < cmd → cmd < 256 → reads (.smbUndefinedCommand cmd) cmd [0xFF]) ∧
    (∀ cmd, cmd % 256 ≤ 8 → Completes (.smbUndefinedCommand cmd) s (fun t => t = s)) ∧
    (on → Completes .smbReadAlert s (fun t => sends t 6 [s.var .alert] ∧ t.var .alert = 0 ∧
      Frame s t [.out] [] [(.alert, 0)])) ∧
    (¬on → Completes .smbReadAlert s (fun t => t = s)) ∧
    Completes .smbWrite s (fun t => t = s) ∧
    (s.var .alert ≠ 0 → s.var .unpowered = 0 → Completes .smbAlertResponse s (fun t =>
      t.out = s.out ++ [⟨.smbus, 0x0C, [addr], [], []⟩] ∧ Frame s t [.out] [] [])) ∧
    (s.var .alert = 0 ∨ s.var .unpowered ≠ 0 → Completes .smbAlertResponse s (fun t => t = s))

/-- The mask ROM measures an image that passes its checks and starts it, and else goes to its loader, or halts where the fuse
turns that off; firmware then serves, where no trip keeps the rails off. The management address is taken at once and is answered
for by firmware and the loader, and no other is. In another phase these change nothing.
Choices of the model in it: assumption 107. -/
def Obligations.BootAndManagement : Prop :=
  ∀ s : State,
    (s.boot.phase = 1 → Completes .bootRom s (fun t =>
      (s.firmwareError s.boot.image = 0 → t.boot.phase = 2 ∧
        t.get .FMP_FW_RUN_SVN = fieldOf s.boot.image 24 1 % 2 ^ Fld.FMP_FW_RUN_SVN.width ∧
        (∀ i, i < 4 → t.get .FMP_BOOT_MEAS_DIGEST i =
          bits (firmwareMeas s.boot.image) (64 * i) 64 % 2 ^ Fld.FMP_BOOT_MEAS_DIGEST.width)) ∧
      (s.firmwareError s.boot.image ≠ 0 → t.boot.phase = (if s.boot.fuses.romOff then 5 else 4)) ∧
      t.boot.image = s.boot.image ∧ t.mem = s.mem)) ∧
    (s.boot.phase ≠ 1 → Completes .bootRom s (fun t => t = s)) ∧
    (let serves := s.boot.phase = 2 ∧ s.var .tripped ≠ 1 ∧ s.var .railsOff ≠ 1 ∧ s.var .unpowered ≠ 1
     (serves → Completes .firmwareReady s (fun t =>
       t.boot.phase = 3 ∧ t.get .FMP_STATUS_READY = 1 ∧ t.get .PWR_STATUS_STATE = 1 ∧
       t.get .FMP_STATUS_IDENTITY_BAD = (if s.identityOk then 0 else 1) ∧
       t.get .FMP_CFG_IDLE_S = s.boot.idle % 2 ^ Fld.FMP_CFG_IDLE_S.width ∧
       t.get .FMP_CFG_UDP_PORT = s.boot.udp % 2 ^ Fld.FMP_CFG_UDP_PORT.width ∧ t.mem = s.mem)) ∧
     (¬serves → Completes .firmwareReady s (fun t => t = s))) ∧
    (∀ lo, Completes (.mgmtAddrWrite lo) s (fun t =>
      t.get .FMP_MGMT_ADDR_LO_ADDR = lo % 2 ^ 64 ∧ t.boot.addrLo = lo ∧ t.boot.addrHi = s.get .FMP_MGMT_ADDR_HI_ADDR ∧
      Frame s t [.boot] [(.FMP_MGMT_ADDR_LO_ADDR, 0)] [])) ∧
    (∀ src hi lo,
      let own := if s.boot.phase = 4 ∧ s.boot.storeBad = true then
          (0x80FE, ofLe (netBytes 8 (s.boot.fuses.serial % 2 ^ 64))) else (s.boot.addrHi, s.boot.addrLo)
      let answers := (s.boot.phase = 3 ∨ s.boot.phase = 4) ∧ (hi, lo) = own
      (answers → Completes (.neighborSolicitation src hi lo) s (fun t =>
        t.out = s.out ++ [⟨.mgmt, src, [136], leBytes 8 hi ++ leBytes 8 lo, []⟩] ∧ Frame s t [.out] [] [])) ∧
      (¬answers → Completes (.neighborSolicitation src hi lo) s (fun t => t = s)))

/-- Commands that a register bit of their own gives too. -/
abbrev bitCommands : List (Fld × Instr) :=
  [(.TIER_CTRL_HOT_FLUSH, .hotFlush), (.XPORT_CTRL_QUAR_CLEAR, .quarClear), (.XPORT_CTRL_CONN_RESET, .connReset),
   (.ERR_CTRL_SCRUB_GO, .scrubGo), (.ERR_CTRL_SCRUB_ABORT, .scrubAbort), (.ERR_CTRL_DMA_RESTART, .dmaRestart),
   (.ERR_CTRL_DMA_RESTART_SKIP, .dmaRestartSkip), (.ERR_CTRL_RETIRE_GO, .retireGo), (.ERR_CTRL_LINE_CLEAR, .lineClear),
   (.ERR_CTRL_STACK_CLEAR, .stackClear), (.PWR_CTRL_STANDBY, .pwrStandby), (.PWR_CTRL_WAKE, .pwrWake),
   (.PWR_CTRL_COMMIT, .pwrCommit), (.FMP_CTRL_COMMIT, .fmpCommit), (.XPORT_CTRL_COMMIT, .xportCommit)]

/-- A write of a register that sets no command bit lands by each field's kind: a plain field takes the value within its bounds, an
RWS field's shadow copy takes it and the field stays, unless the write is ignored now; a written 1 clears a W1C field; a field
that is only read stays. A write that sets one command bit, of a register of such bits, does as that command. A write where no
register is changes nothing. -/
def Obligations.RegisterWriteLands : Prop :=
  ∀ (s : State) (addr v : Nat),
    let fs := s.fieldsAt addr
    let keys := fs.map (fun p => (p.1.fld, p.2))
    let w := fun (p : FieldDesc × Nat) => bits v p.1.lo p.1.fld.width
    (fs = [] → Completes (.registerWrite addr v) s (fun t => t = s)) ∧
    (keys.Nodup →
      (∀ p ∈ fs, p.1.acc = .wo → w p ≠ 1 ∧ p.1.fld ∉ [.SPRING_SINK_ACK_SEQ, .FMP_DOORBELL_TAIL]) →
      (∀ p ∈ fs, p.1.fld ∉ [.CELL_REG_DATA_DATA, .SPRING_EPOCH_EPOCH, .FMP_MGMT_ADDR_LO_ADDR, .ERR_HIST_SEL_INDEX]) →
      Completes (.registerWrite addr v) s (fun t =>
        Frame s t [.shadows] keys [] ∧
        ∀ p ∈ fs, ∃ u, Frame s u [.shadows] keys [] ∧
          let stays := u.ignoresWrite p.1.fld p.2 = true
          let now := t.get p.1.fld p.2
          let was := s.get p.1.fld p.2
          (p.1.acc = .rw → now = (if stays then was else u.clampF p.1.fld p.2 (w p) % 2 ^ p.1.fld.width)) ∧
          (p.1.acc = .rws ∨ p.1.acc = .rwsClass → now = was ∧
            t.shadowOf p.1.fld p.2 = (if stays then s.shadowOf p.1.fld p.2 else w p)) ∧
          (p.1.acc = .w1c → now = (if w p = 1 then 0 else was)) ∧
          (p.1.acc = .ro ∨ p.1.acc = .rc ∨ p.1.acc = .wo → now = was))) ∧
    (∀ f c, (f, c) ∈ bitCommands → (∀ p ∈ fs, p.1.acc = .wo ∧ p.1.fld ∉ [.SPRING_SINK_ACK_SEQ, .FMP_DOORBELL_TAIL]) →
      (fs.filter (fun p => w p == 1)).map (fun p => (p.1.fld, p.2)) = [(f, 0)] →
      exec (.registerWrite addr v) s = exec c s)

/-- A reset that is due takes effect at the level its sources ask for: RST_CAUSE tells the level, the sources and how many
resets there have been, and the history owes a RESET event. A level up to 3 leaves the module STOPPED, with the history and
the retirement list as they were; a level up to 1 loses the memory and puts burnt fuses in force; level 4 clears the cells'
registers. One during a flush, or with none due, changes nothing; one that MOD_RESET_N already holds at its level or a lower
only adds its sources. -/
def Claim.ResetTakesEffect : Prop :=
  ∀ (s : State) (l : Nat),
    let quiet := s.var .lgPhase = 0 ∨ s.var .lgPhase = 4
    let inReset := s.var .pinLow = 1 ∧ s.boot.phase = 0
    (s.var .unpowered = 1 ∨ ¬quiet ∨ (s.var .rstLevel = 0 ∧ s.var .rstAsk = 0) → Completes .reset s (fun t => t = s)) ∧
    (s.var .unpowered ≠ 1 → quiet → s.var .rstAsk = 0 → s.var .rstLevel = l + 1 → inReset → s.get .RST_CAUSE_LEVEL ≤ l →
      Completes .reset s (fun t => t.var .rstLevel = 0 ∧ t.var .rstPend = 0 ∧
        t.get .RST_CAUSE_SOURCES = (s.get .RST_CAUSE_SOURCES ||| s.var .rstPend) % 2 ^ Fld.RST_CAUSE_SOURCES.width ∧
        Frame s t [] [(.RST_CAUSE_SOURCES, 0)] [(.rstPend, 0), (.rstLevel, 0)])) ∧
    (s.var .unpowered ≠ 1 → quiet → s.var .rstAsk = 0 → l ≤ 4 → s.var .rstLevel = l + 1 → s.var .rstPend < 2 ^ 7 →
      ¬inReset → Completes .reset s (fun t =>
        let src := ((bitsSet 7 (s.var .rstPend)).head?).getD 0
        t.var .rstLevel = 0 ∧ t.var .rstPend = 0 ∧ t.get .RST_CAUSE_LEVEL = l ∧ t.get .RST_CAUSE_SOURCES = s.var .rstPend ∧
        t.get .RST_CAUSE_COUNT = (if l = 0 then 0 else min (s.get .RST_CAUSE_COUNT + 1) (2 ^ 32 - 1)) ∧
        (l ≤ 3 → t.get .BEAT_STATUS_STATE = 0 ∧ t.get .BEAT_COUNT_COUNT = 0 ∧ t.get .CLAY_GEN_ACTIVE = 0 ∧ t.queues = [] ∧
          t.slices = [] ∧ t.logs.hist = s.logs.hist ∧ t.rows.retired = s.rows.retired ∧
          ∃ more, t.logs.owed = s.logs.owed ++
            ⟨0x100, 8, 0, 0, src + l * 16, 0, s.get .BEAT_COUNT_COUNT, s.eventPhase⟩ :: more ∧ (l ≤ 1 → more = [])) ∧
        (l ≤ 1 → t.mem = [] ∧ t.boot.fuses = s.boot.burnt ∧
          t.boot.phase = (if s.var .pinLow = 1 then 0 else 1) ∧ t.fmp = {}) ∧
        (l = 4 → t.cells.v = [] ∧ t.cells.s = [] ∧ t.cells.m = [] ∧ t.cells.a = [])))

/-- Input, rails, clip and reset pin, the sources that ask for a reset, the reset itself, and the power states. -/
def Obligations.InputRailsResets : Prop := Claim.InputAndRails ∧ Claim.ResetSourcesAndPowerStates ∧ Claim.ResetTakesEffect

/-! FMP. -/

/-- The first request of a type that may run (R444), where the firmware (phase 3) or the loader (phase 4) serves. -/
abbrev asked (s : State) (phase type : Nat) (m : FmpMsg) : Prop :=
  s.boot.phase = phase ∧ s.fmpNext (· == type) = some m ∧ m.long = false

/-- A request has been answered: frames with its type, session, SEQ and the status go where it came from, each with its tag,
and their parts join to the payload (R442, R443). -/
abbrev replied (s t : State) (m : FmpMsg) (status : Nat) (payload : List Nat) : Prop :=
  ∃ fs, t.out = s.out ++ fs ∧ fs ≠ [] ∧
    (∀ f ∈ fs, f.kind = .fmp ∧ f.dest = m.src ∧ f.args = [m.via] ∧ f.data.getD 1 0 = m.type ∧ f.data.getD 3 0 = status ∧
      (f.data.drop 4).take 12 = leBytes 4 m.session ++ leBytes 8 m.seq ∧
      f.data.drop (f.data.length - 32) = s.fmpTag m.session (f.data.take (f.data.length - 32))) ∧
    (fs.map (fun f => (f.data.drop 32).take (f.data.length - 64))).flatten = payload

/-- A request has been answered, and a session's reply is kept and the session's next SEQ may run (R444). -/
abbrev answered (s t : State) (m : FmpMsg) (status : Nat) (payload : List Nat) : Prop :=
  replied s t m status payload ∧
  (m.session ≠ 0 → t.fmp.next = nextSeq s.fmp.skips (m.seq + 1) ∧ t.fmp.replies.length ≤ 64 ∧
    t.fmp.replies.getLast? = some (m.seq, m.type, status, payload))

/-- A request is answered with a status and no payload, which counts where it is DENIED. -/
abbrev turnedAway (s : State) (c : Instr) (m : FmpMsg) (status : Nat) : Prop :=
  Completes c s (fun t => answered s t m status [] ∧ t.fmp.queue = s.fmp.queue.erase m ∧
    countedEach s t (if status = 3 then 1 else 0) .FMP_STATS_DENIED 0 ∧ Frame s t [.fmp, .out] [(.FMP_STATS_DENIED, 0)] [])

/-- A request has run: it left the queue and was answered OK. -/
abbrev served (s t : State) (m : FmpMsg) (payload : List Nat) : Prop :=
  answered s t m 0 payload ∧ t.fmp.queue = s.fmp.queue.erase m

/-- A whole message is taken: a request outside a session, or one of the session that is new and finds room ahead of the gap,
joins the queue; one that is covered gets its kept reply or STALE_SEQ; one that is here already goes; one too many is answered
SEQ_GAP. -/
abbrev fmpTaken (s t : State) (m : FmpMsg) : Prop :=
  let covered := m.seq < s.fmp.next ∨ s.fmp.skips.any (fun r => decide (r.1 ≤ m.seq) && decide (m.seq < r.2)) = true
  let room := m.seq ≤ s.firstGap ∨ (s.fmpSeqs.filter (fun q => decide (s.firstGap < q))).length < 32
  let same := t.fmp.queue = s.fmp.queue
  (m.session = 0 ∨ (¬covered ∧ s.fmpHere m.seq = false ∧ room) → t.fmp.queue = s.fmp.queue ++ [m] ∧ t.out = s.out) ∧
  (m.session ≠ 0 →
    (covered → same ∧ match s.fmp.replies.find? (fun r => r.1 == m.seq) with
      | some r => replied s t { m with type := if r.2.2.1 = 10 then m.type else r.2.1 } r.2.2.1 r.2.2.2
      | none => replied s t m 8 []) ∧
    (¬covered → s.fmpHere m.seq = true → same ∧ t.out = s.out) ∧
    (¬covered → s.fmpHere m.seq = false → ¬room → same ∧ replied s t m 9 []))

/-- What becomes of an FMP frame. Nobody hears it; a bad header or a bad tag is counted and discarded; a bad fragment goes;
a frame of no session is answered NO_SESSION; a whole message is taken as `fmpTaken` says, one beyond its type's limit as a
request to be answered TOO_LONG; a part joins its message, or goes where the buffer has no room.
Choices of the model in it: assumption 74. -/
def Claim.FmpFrames : Prop :=
  ∀ (s : State) (via src : Nat) (bs : List Nat),
    let loader := s.boot.phase = 4
    let hears := (loader ∨ s.boot.phase = 3) ∧ (via % 2 = 1 → ¬loader ∧ s.boot.fuses.dataOff = false)
    let headed := 64 ≤ bs.length ∧ bs.getD 0 0 = 1 ∧ crc32c (bs.take 28) = fieldOf bs 28 4
    let type := fieldOf bs 1 1
    let session := fieldOf bs 4 4
    let mine := session = 0 ∨ session = s.session
    let len := fieldOf bs 16 4
    let off := fieldOf bs 20 4
    let n := fieldOf bs 24 2
    let tagged := bs.drop (bs.length - 32) = s.fmpTag session (bs.take (bs.length - 32))
    let shaped := n = bs.length - 64 ∧ n ≤ 8960 ∧ off + n ≤ len ∧ bs.getD 2 0 % 4 = 0
    let forLoader := session = 0 ∧ [0x01, 0x40, 0x41].contains type = true
    let forFirmware := mine ∧ (session = 0 → needsSession type = false)
    let m : FmpMsg := ⟨type, session, fieldOf bs 8 8, src, via % 2, [], false⟩
    let rest := s.fmp.parts.filter (fun p => !(p.msg == m && p.len == len))
    let old := ((s.fmp.parts.find? (fun p => p.msg == m && p.len == len)).map FmpPart.got).getD []
    let got := old.filter (fun g => g.1 != off) ++ [(off, (bs.drop 32).take n)]
    let used := (s.fmp.parts.map (fun p => (p.got.map (fun g => g.2.length)).foldl (· + ·) 0)).foldl (· + ·) 0
    let does := fun (post : State → Prop) => Completes (.fmpFragment via src bs) s post
    (¬hears ∨ (headed ∧ (mine → tagged) ∧ (¬shaped ∨ (loader ∧ ¬forLoader))) → does (fun t => t = s)) ∧
    (hears → ¬headed → does (fun t => counted s t 1 .FMP_STATS_BAD_HEADER 0 ∧ Frame s t [] [(.FMP_STATS_BAD_HEADER, 0)] [])) ∧
    (hears → headed → mine → ¬tagged → does (fun t =>
      counted s t 1 .FMP_STATS_BAD_TAG 0 ∧ Frame s t [] [(.FMP_STATS_BAD_TAG, 0)] [])) ∧
    (hears → headed → (mine → tagged) → shaped →
      (¬loader → ¬forFirmware → does (fun t => replied s t m 1 [] ∧ Frame s t [.out] [] [])) ∧
      ((loader ∧ forLoader) ∨ (¬loader ∧ forFirmware) →
        (session ≠ 0 → does (fun t => t.fmp.peer = src ∧ t.fmp.via = via % 2)) ∧
        (fmpLimit type < len → does (fun t => fmpTaken s t { m with long := true } ∧ t.fmp.parts = rest ∧
          Frame s t [.fmp, .out] [] [])) ∧
        (len ≤ fmpLimit type → n = len → does (fun t => fmpTaken s t { m with data := (bs.drop 32).take n } ∧
          t.fmp.parts = rest ∧ Frame s t [.fmp, .out] [] [])) ∧
        (len ≤ fmpLimit type → n ≠ len → 4194304 < used + n → does (fun t =>
          t.fmp.parts = s.fmp.parts ∧ t.fmp.queue = s.fmp.queue ∧ Frame s t [.fmp] [] [])) ∧
        (len ≤ fmpLimit type → n ≠ len → used + n ≤ 4194304 →
          ((assemble got).length < len → does (fun t =>
            t.fmp.parts = rest ++ [⟨m, len, got⟩] ∧ t.fmp.queue = s.fmp.queue ∧ Frame s t [.fmp] [] [])) ∧
          (len ≤ (assemble got).length → does (fun t => fmpTaken s t { m with data := (assemble got).take len } ∧
            t.fmp.parts = rest ∧ Frame s t [.fmp, .out] [] [])))))

/-- A request runs only where one of its type may: with none, or while nobody serves, its command changes nothing, and one
beyond its type's limit is answered TOO_LONG. A message that stays incomplete goes. SEQs that stay missing before one that is
held are SKIPPED, each with a kept reply, and with none missing nothing happens.
Choices of the model in it: assumption 74. -/
def Claim.RequestsRun : Prop :=
  (∀ (s : State) (before : Nat) (c : Instr) (phase type : Nat), (c, phase, type) ∈
      [(.certGet, 3, 0x02), (.attest, 3, 0x03), (.sessionClose, 3, 0x05), (.regRead, 3, 0x10), (.regWrite before, 3, 0x11),
        (.winRead, 3, 0x12), (.winWrite, 3, 0x13), (.stateDump, 3, 0x14), (.keyInstall, 3, 0x20), (.fuseProgram, 3, 0x21),
        (.fwUpdate, 3, 0x22), (.fwSvnCommit, 3, 0x23), (.fmpReset, 3, 0x24), (.loaderWrite, 4, 0x40),
        (.loaderCommit, 4, 0x41)] →
    (s.boot.phase ≠ phase ∨ s.fmpNext (· == type) = none → Completes c s (fun t => t = s)) ∧
    (∀ m, s.boot.phase = phase → s.fmpNext (· == type) = some m → m.long = true → turnedAway s c m 11)) ∧
  (∀ (s : State) (n : Nat), Completes (.fmpReassemblyTimeout n) s (fun t =>
    t.fmp.parts = s.fmp.parts.eraseIdx n ∧ t.fmp.queue = s.fmp.queue ∧ Frame s t [.fmp] [] [])) ∧
  ∀ s : State,
    let g := s.firstGap
    let hi := minOf 0 (s.fmpSeqs.filter (fun q => decide (g < q)))
    (hi = 0 → Completes .fmpGapTimeout s (fun t => t = s)) ∧
    (hi ≠ 0 → Completes .fmpGapTimeout s (fun t =>
      counted s t (hi - g) .FMP_STATS_SKIPPED 0 ∧ t.fmp.queue = s.fmp.queue ∧
      (s.fmp.next = g → s.fmpBusy = false → t.fmp.next = hi ∧ t.fmp.skips = s.fmp.skips) ∧
      (s.fmp.next ≠ g ∨ s.fmpBusy = true → t.fmp.next = s.fmp.next ∧ t.fmp.skips = s.fmp.skips ++ [(g, hi)]) ∧
      t.fmp.replies.length ≤ 64 ∧ t.fmp.replies.getLast? = some (hi - 1, 0, 10, []) ∧
      Frame s t [.fmp] [(.FMP_STATS_SKIPPED, 0)] []))

/-- HELLO gives a fresh nonce, of which four are kept, and runs under the loader too; CERT_GET gives the certificate; an
undefined type is BAD_REQUEST. ATTEST has its quote signed, one at a time; it is BUSY during a signing, DENIED with a bad
identity and BAD_REQUEST with a wrong length; the signed quote is the reply, which a session that has gone does not get. With
no such request, or no quote, nothing happens. Choices of the model in it: assumption 75. -/
def Claim.IdentityRequests : Prop :=
  ∀ (s : State) (m : FmpMsg),
    let undef := s.fmpNext (fun ty => !definedType ty)
    ((s.boot.phase ≠ 3 ∧ s.boot.phase ≠ 4) ∨ s.fmpNext (· == 1) = none → Completes .fmpHello s (fun t => t = s)) ∧
    (s.boot.phase = 3 ∨ s.boot.phase = 4 → s.fmpNext (· == 1) = some m →
      (m.long = true → turnedAway s .fmpHello m 11) ∧
      (m.long = false → Completes .fmpHello s (fun t =>
        (∃ p, p.length = 64 ∧ p.take 32 = leBytes 32 (s.free 256) ∧ (p.drop 32).take 16 = leBytes 16 s.boot.fuses.serial ∧
          p.getD 48 0 = b2n (s.boot.phase == 4) ∧ p.getD 49 0 = s.get .FMP_FW_RUN_SVN ∧ p.getD 51 0 = b2n (s.session != 0) ∧
          served s t m p) ∧
        t.fmp.nonces.length ≤ 4 ∧ t.fmp.nonces.getLast? = some (s.free 256, s.var .clk) ∧
        Frame s t [.fmp, .out] [] [(.freeCount, 0)]))) ∧
    (asked s 3 2 m → Completes .certGet s (fun t => served s t m s.boot.cert ∧ Frame s t [.fmp, .out] [] [])) ∧
    (s.boot.phase ≠ 3 ∨ undef = none → Completes .fmpUndefinedType s (fun t => t = s)) ∧
    (s.boot.phase = 3 → undef = some m → turnedAway s .fmpUndefinedType m (if m.long = true then 11 else 4)) ∧
    (asked s 3 3 m →
      (m.data.length ≠ 32 → turnedAway s .attest m 4) ∧
      (m.data.length = 32 → s.get .FMP_STATUS_IDENTITY_BAD = 1 → turnedAway s .attest m 3) ∧
      (m.data.length = 32 → s.get .FMP_STATUS_IDENTITY_BAD ≠ 1 → s.fmp.quote ≠ none → turnedAway s .attest m 2) ∧
      (m.data.length = 32 → s.get .FMP_STATUS_IDENTITY_BAD ≠ 1 → s.fmp.quote = none → Completes .attest s (fun t =>
        t.fmp.quote = some (m, s.quoteBytes m) ∧ t.fmp.queue = s.fmp.queue.erase m ∧ Frame s t [.fmp] [] []))) ∧
    (s.fmp.quote = none → Completes .quoteSigned s (fun t => t = s)) ∧
    (∀ b, s.fmp.quote = some (m, b) → Completes .quoteSigned s (fun t => t.fmp.quote = none ∧
      t.fmp.queue = s.fmp.queue ∧ Frame s t [.fmp, .out] [] [] ∧
      (m.session = 0 ∨ m.session = s.session → answered s t m 0 (b ++ Config.slhSign s.boot.fuses.seed b)) ∧
      (m.session ≠ 0 → m.session ≠ s.session → t.out = s.out)))

/-- SESSION_OPEN answers the first check that fails: its form, the identity and the nonce, the owner, the signature, the key
agreement, and a session that stands without TAKEOVER; one that finds the nonce uses it; one that passes has its accept
formed. The accept goes out with its signature, and its session replaces the one before. A session ends when it is closed or
has been idle, and takes its requests with it. With no such request, or no session to time out, nothing happens.
Choices of the model in it: assumption 75. -/
def Claim.Sessions : Prop :=
  ∀ (s : State) (m : FmpMsg),
    let d := m.data
    let sigLen := if fieldOf d 32 2 = 1 then 29792 else 49856
    let formed := d.length = 1672 + sigLen ∧ fieldOf d 36 4 = sigLen ∧ (fieldOf d 32 2 = 1 ∨ fieldOf d 32 2 = 2)
    let fresh := s.get .FMP_STATUS_IDENTITY_BAD ≠ 1 ∧
      s.fmp.nonces.any (fun n => n.1 == ofLe (d.take 32) && decide (s.var .clk ≤ n.2 + 15000000000)) = true
    let digest := shake256 32 ((d.drop 40).take 64)
    let signed := Config.slhVerify digest (d.take 1672) (d.drop 1672) = true
    let agreed := kemCheck ((d.drop 104).take 1568) = true
    let takes := s.session = 0 ∨ (d.getD 34 0).testBit 0 = true
    let ends := fun (t : State) => t.session = 0 ∧ t.fmp.next = 1 ∧ t.fmp.skips = [] ∧ t.fmp.replies = [] ∧ t.fmp.key = [] ∧
      t.fmp.parts = s.fmp.parts.filter (fun p => p.msg.session == 0)
    let ids : List (Fld × Nat) := [(.FMP_SESSION_ID, 0), (.FMP_SESSION_KEY, 0), (.FMP_SESSION_VIA, 0)]
    let refused := fun (status : Nat) (t : State) => answered s t m status [] ∧ t.fmp.opening = none ∧
      countedEach s t (if status = 3 then 1 else 0) .FMP_STATS_DENIED 0 ∧ Frame s t [.fmp, .out] [(.FMP_STATS_DENIED, 0)] []
    let used := fun (t : State) => t.fmp.nonces = s.fmp.nonces.filter (fun n => n.1 != ofLe (d.take 32)) ∧
      t.fmp.queue = s.fmp.queue.erase m
    (s.fmp.opening ≠ none ∨ s.boot.phase ≠ 3 ∨ s.fmpNext (· == 4) = none → Completes .sessionOpen s (fun t => t = s)) ∧
    (s.fmp.opening = none → s.boot.phase = 3 → s.fmpNext (· == 4) = some m → m.long = true → turnedAway s .sessionOpen m 11) ∧
    (s.fmp.opening = none → asked s 3 4 m →
      (¬formed → turnedAway s .sessionOpen m 4) ∧
      (formed → ¬fresh → turnedAway s .sessionOpen m 3) ∧
      (formed → fresh → s.ownerSlot digest = none → Completes .sessionOpen s (fun t => refused 3 t ∧ used t)) ∧
      (∀ slot, s.ownerSlot digest = some slot → formed → fresh → Completes .sessionOpen s (fun t => used t ∧
        (¬signed → refused 3 t) ∧ (signed → ¬agreed → refused 4 t) ∧ (signed → agreed → ¬takes → refused 2 t) ∧
        (signed → agreed → takes → t.fmp.opening = some (m, slot) ∧ Frame s t [.fmp] [] [])))) ∧
    (s.fmp.opening = none → Completes .sessionAccept s (fun t => t = s)) ∧
    (∀ slot, s.fmp.opening = some (m, slot) → Completes .sessionAccept s (fun t =>
      let id := max 1 (s.free 32)
      let kem := Config.kemEncaps ((d.drop 104).take 1568) (s.free 256 1)
      let b := leBytes 4 id ++ leBytes 4 0 ++ kem.1 ++ leBytes 32 (shake256 32 d)
      t.session = id ∧ t.get .FMP_SESSION_KEY = slot % 4 ∧ t.get .FMP_SESSION_VIA = m.via % 2 ∧
      t.fmp.opening = none ∧ t.fmp.next = 1 ∧ t.fmp.replies = [] ∧ t.fmp.peer = m.src ∧ t.fmp.script = shake256 32 b ∧
      t.fmp.key = leBytes 32 (kmac256 kem.2 keyName (leBytes 32 (shake256 32 b))) ∧
      t.fmp.queue = s.fmp.queue.filter (fun q => q.session == 0) ∧ t.boot.opener = (d.drop 40).take 64 ∧
      (m.session = 0 ∨ m.session = s.session → replied s t m 0 (b ++ Config.slhSign s.boot.fuses.seed b)) ∧
      (m.session ≠ 0 → m.session ≠ s.session → t.out = s.out) ∧
      Frame s t [.fmp, .out, .boot] ids [(.freeCount, 0)])) ∧
    (asked s 3 5 m → Completes .sessionClose s (fun t => replied s t m 0 [] ∧ ends t ∧
      t.fmp.queue = (s.fmp.queue.erase m).filter (fun q => q.session == 0) ∧ Frame s t [.fmp, .out] ids [])) ∧
    (s.get .FMP_CFG_IDLE_S = 0 ∨ s.session = 0 → Completes .sessionIdleTimeout s (fun t => t = s)) ∧
    (s.get .FMP_CFG_IDLE_S ≠ 0 → s.session ≠ 0 → Completes .sessionIdleTimeout s (fun t => ends t ∧
      t.fmp.queue = s.fmp.queue.filter (fun q => q.session == 0) ∧ Frame s t [.fmp] ids []))

/-- Register writes land one after the other, each as a REGISTER_WRITE of its own (R450). -/
def Lands : List (Nat × Nat) → State → State → Prop
  | [], s, t => t = s
  | w :: ws, s, t => ∃ u, exec (.registerWrite w.1 w.2) s = .next u ∧ Lands ws u t

/-- REG_READ returns the registers in the order listed and clears only RC fields of theirs. REG_WRITE lands its list in order:
all of it outside RUNNING; in RUNNING the first `before`, and the rest waits for the boundary with its reply. Too many are
TOO_LONG, a wrong length BAD_REQUEST. -/
def Claim.RegisterRequests : Prop :=
  ∀ (s : State) (m : FmpMsg),
    let n := fieldOf m.data 0 4
    (asked s 3 0x10 m →
      (1024 < n → turnedAway s .regRead m 11) ∧
      (n ≤ 1024 → m.data.length ≠ 8 + 8 * n → turnedAway s .regRead m 4) ∧
      (n ≤ 1024 → m.data.length = 8 + 8 * n → Completes .regRead s (fun t =>
        served s t m ((regReads (words8 m.data) { s with fmp := { s.fmp with queue := s.fmp.queue.erase m } }).map
          (leBytes 8)).flatten ∧
        (∀ p, p ≠ .fmp → p ≠ .out → s.same t p) ∧ (∀ v i, t.var v i = s.var v i) ∧
        ∀ f i, (∀ a ∈ words8 m.data, ∀ p ∈ s.fieldsAt a, p.1.fld = f → p.1.acc ≠ .rc) → t.get f i = s.get f i))) ∧
    (∀ before, asked s 3 0x11 m →
      (1024 < n → turnedAway s (.regWrite before) m 11) ∧
      (n ≤ 1024 → m.data.length ≠ 8 + 16 * n → turnedAway s (.regWrite before) m 4) ∧
      (n ≤ 1024 → m.data.length = 8 + 16 * n →
        let ws := (List.range n).map (fun k => (fieldOf m.data (8 + 16 * k) 8, fieldOf m.data (16 + 16 * k) 8))
        let now := if s.running = true then before else n
        Completes (.regWrite before) s (fun t => ∃ u,
          Lands (ws.take now) { s with fmp := { s.fmp with queue := s.fmp.queue.erase m } } u ∧
          (n ≤ now → Frame u t [.fmp, .out] [] [] ∧ (m.session = 0 ∨ m.session = u.session → answered u t m 0 [])) ∧
          (now < n → t = { u with fmp := { u.fmp with late := ws.drop now, lateFor := some m } }))))

/-- The window is read and written at its base, as far as it reaches: a request that runs past its end is PARTIAL. A read that
meets an uncorrectable line is UE and names it. Too long is TOO_LONG, and not aligned BAD_REQUEST.
Choices of the model in it: assumption 76. -/
def Claim.WindowRequests : Prop :=
  ∀ (s : State) (m : FmpMsg),
    let off := fieldOf m.data 0 4
    let len := fieldOf m.data 4 4
    let base := s.get .TIER_WINDOW_BASE * 2 ^ 26
    let n := min len (0x4000000 - off)
    let bad := (linesOf (base + off) n).find? s.lineBad
    let whole := if n < len then 7 else 0
    let holes : List (Fld × Nat) := [(.TIER_HOLE_COUNT, 0), (.TIER_HOLE_LAST, 0)]
    (asked s 3 0x12 m →
      (m.data.length ≠ 8 → turnedAway s .winRead m 4) ∧
      (m.data.length = 8 → 1048576 < len → turnedAway s .winRead m 11) ∧
      (m.data.length = 8 → len ≤ 1048576 → ¬(off % 8 = 0 ∧ len % 8 = 0) → turnedAway s .winRead m 4) ∧
      (m.data.length = 8 → len ≤ 1048576 → off % 8 = 0 → len % 8 = 0 → Completes .winRead s (fun t =>
        answered s t m (if bad ≠ none then 5 else whole) (leBytes 4 n ++
          leBytes 4 (match bad with | some l => l - base | none => 0xFFFFFFFF) ++ (List.range n).map (s.asRead (base + off))) ∧
        t.fmp.queue = s.fmp.queue.erase m ∧ t.mem = s.mem ∧
        (s.unitErr = [] → Frame s t [.fmp, .out] holes [(.freeCount, 0)])))) ∧
    (asked s 3 0x13 m →
      (1048576 < len → turnedAway s .winWrite m 11) ∧
      (len ≤ 1048576 → ¬(m.data.length = 8 + len ∧ off % 8 = 0 ∧ len % 8 = 0) → turnedAway s .winWrite m 4) ∧
      (len ≤ 1048576 → m.data.length = 8 + len → off % 8 = 0 → len % 8 = 0 → Completes .winWrite s (fun t =>
        answered s t m whole (leBytes 4 n ++ leBytes 4 0) ∧ t.fmp.queue = s.fmp.queue.erase m ∧
        Wrote s t (base + off) ((m.data.drop 8).take n) ∧
        (s.unitErr = [] → Frame s t [.mem, .fmp, .out] holes []))))

/-- A dump of one item gives its section with the section's header, from OFFSET on and up to MAX: of the control space, of
bytes of the DPA, or of the active or shadow image. The reply is CHANGED where the previous dump of the same selection had
another length. Too many items or bytes are TOO_LONG; no item, a wrong length or a bad item is BAD_REQUEST. -/
def Claim.DumpRequests : Prop :=
  ∀ (s : State) (m : FmpMsg) (off most kind index start n : Nat), asked s 3 0x14 m →
    let count := fieldOf m.data 12 4
    let sel := leBytes 2 kind ++ leBytes 2 index ++ leBytes 4 0 ++ leBytes 8 start ++ leBytes 8 n
    let one := m.data = leBytes 8 off ++ leBytes 4 most ++ leBytes 4 1 ++ sel
    let holds := fun (sec : List Nat) => Completes .stateDump s (fun t =>
      let whole := leBytes 2 kind ++ leBytes 2 index ++ leBytes 4 0 ++ leBytes 8 sec.length ++ sec
      let changed := s.fmp.dump.any (fun p => p.1 == sel && p.2 != whole.length) = true
      t.fmp.dump = some (sel, whole.length) ∧ t.fmp.queue = s.fmp.queue.erase m ∧ Frame s t [.fmp, .out] [] [] ∧
      (changed → answered s t m 12 (leBytes 8 whole.length ++ (whole.drop off).take most)) ∧
      (¬changed → answered s t m 0 (leBytes 8 whole.length ++ (whole.drop off).take most)))
    (64 < count ∨ 1048576 < fieldOf m.data 8 4 → turnedAway s .stateDump m 11) ∧
    (fieldOf m.data 8 4 ≤ 1048576 → count ≤ 64 → (count = 0 ∨ m.data.length ≠ 16 + 24 * count) → turnedAway s .stateDump m 4) ∧
    (one → off < 2 ^ 64 → most ≤ 1048576 → kind < 2 ^ 16 → index < 2 ^ 16 → start < 2 ^ 64 → n < 2 ^ 64 →
      (kind = 0 ∨ 12 < kind ∨ (kind ≤ 2 ∧ 2 ^ 40 < n) ∨ (kind = 3 ∧ 1 < index) → turnedAway s .stateDump m 4) ∧
      (n ≤ 2 ^ 40 →
        (kind = 1 → holds ((List.range n).map (fun k => bits (s.readReg ((start + k) / 8 * 8)) (8 * ((start + k) % 8)) 8))) ∧
        (kind = 2 → holds ((List.range n).map (s.asRead start)))) ∧
      (∀ i, (if index = 0 then s.clay.active else s.clay.shadow) = some i → kind = 3 → index ≤ 1 → holds (s.imageBytes i)))

/-- KEY_INSTALL keeps a key that an owner digest names, and is DENIED for another. A fuse that may be burnt is burnt at once
and takes effect with the next sensing: an owner digest, its revocation, and the three switches. RESET follows its reply, at
the fused level where it asks for a lower-numbered one, and none later than one that is due.
Choices of the model in it: assumption 75. -/
def Claim.KeysFusesResets : Prop :=
  ∀ (s : State) (m : FmpMsg),
    let digest := shake256 32 (m.data.drop 8)
    let fuse := fieldOf m.data 0 2
    let index := fieldOf m.data 2 2
    let value := ofLe (m.data.drop 8)
    let b := s.boot.burnt
    let usable := fun (revoked : Nat) => ∃ k, k < b.owners.length ∧ b.owners.getD k 0 ≠ 0 ∧ revoked.testBit k = false
    let burns := fun (f : Fuses) => Completes .fuseProgram s (fun t => served s t m [] ∧
      t.boot = { s.boot with burnt := f } ∧ Frame s t [.fmp, .out, .boot] [] [])
    let level := max (m.data.getD 0 0) (s.sourceLevel 4) + 1
    (asked s 3 0x20 m →
      (m.data.length ≠ 72 → turnedAway s .keyInstall m 4) ∧
      (m.data.length = 72 → s.ownerDigests.contains digest = false → turnedAway s .keyInstall m 3) ∧
      (m.data.length = 72 → s.ownerDigests.contains digest = true → Completes .keyInstall s (fun t => served s t m [] ∧
        t.boot = { s.boot with keys := s.boot.keys.filter (fun k => k.1 != digest) ++ [(digest, m.data.drop 8)] } ∧
        Frame s t [.fmp, .out, .boot] [] []))) ∧
    (asked s 3 0x21 m → m.data.length ≠ 40 → turnedAway s .fuseProgram m 4) ∧
    (asked s 3 0x21 m → m.data.length = 40 →
      (fuse = 0 ∨ 5 < fuse ∨ (fuse = 1 ∧ 3 < index) → turnedAway s .fuseProgram m 4) ∧
      (fuse = 1 → index ≤ 3 → b.owners.getD index 0 = 0 → burns { b with owners := b.owners.set index value }) ∧
      (fuse = 2 → usable (b.revoke ||| value % 16) → burns { b with revoke := b.revoke ||| value % 16 }) ∧
      (fuse = 3 → usable b.revoke → burns { b with claySig := b.claySig || value.testBit 0 }) ∧
      (fuse = 4 → burns { b with dataOff := b.dataOff || value.testBit 0 }) ∧
      (fuse = 5 → burns { b with romOff := b.romOff || value.testBit 0 })) ∧
    (asked s 3 0x24 m →
      (m.data.length ≠ 8 ∨ 4 < m.data.getD 0 0 → turnedAway s .fmpReset m 4) ∧
      (m.data.length = 8 → m.data.getD 0 0 ≤ 4 → Completes .fmpReset s (fun t => served s t m [] ∧
        t.var .rstAsk = (if s.var .rstAsk = 0 then level else min level (s.var .rstAsk)) ∧
        t.var .rstDueAt = s.var .clk + 1024 ∧ Frame s t [.fmp, .out] [] [(.rstAsk, 0), (.rstDueAt, 0)])))

/-- FW_UPDATE is BUSY during a programming, and fails with what its range or its image fails; else it stages the image.
FW_WRITE_DONE ends the programming with the staged image in force, or, where the module store cannot be programmed, with error
5 and no image (the model's choice, assumption 107), and the history owes its event. The ROM loader writes bytes of the image,
and starts one that passes its checks. -/
def Claim.FirmwareAndLoader : Prop :=
  ∀ (s : State) (m : FmpMsg),
    let n := fieldOf m.data 8 8
    let a := fieldOf m.data 0 8
    let k := m.data.length - 8
    let bytes := s.bytesAt a n
    let e := s.firmwareError bytes
    let readable := s.mayStage a n = true ∧ (linesOf a n).any s.lineBad = false
    let denied := fun (err : Nat) (t : State) => answered s t m 3 [] ∧
      t.fmp.queue = s.fmp.queue.erase m ∧ t.get .FMP_FW_STATE = 4 ∧ t.get .FMP_FW_ERROR = err ∧
      t.get .FMP_FW_STAGED_SVN = (if err = 2 ∨ err = 3 then fieldOf bytes 24 1 else s.get .FMP_FW_STAGED_SVN) ∧
      counted s t 1 .FMP_STATS_DENIED 0 ∧ t.boot = s.boot ∧ t.mem = s.mem ∧ t.var .fwBusy = s.var .fwBusy
    (asked s 3 0x22 m →
      (m.data.length ≠ 16 → turnedAway s .fwUpdate m 4) ∧
      (m.data.length = 16 → s.var .fwBusy = 1 → turnedAway s .fwUpdate m 2) ∧
      (m.data.length = 16 → s.var .fwBusy ≠ 1 → 67108864 < n → turnedAway s .fwUpdate m 11) ∧
      (m.data.length = 16 → s.var .fwBusy ≠ 1 → n ≤ 67108864 →
        (¬readable → Completes .fwUpdate s (denied 4)) ∧
        (readable → Completes .fwUpdate s (fun t => (e ≠ 0 → denied e t) ∧
          (e = 0 → served s t m [] ∧ t.boot = { s.boot with staged := bytes } ∧
            t.get .FMP_FW_STATE = 2 ∧ t.get .FMP_FW_ERROR = 0 ∧ t.get .FMP_FW_STAGED_SVN = fieldOf bytes 24 1 ∧
            t.var .fwBusy = 1 ∧ Frame s t [.fmp, .out, .boot]
              [(.FMP_FW_STATE, 0), (.FMP_FW_ERROR, 0), (.FMP_FW_STAGED_SVN, 0)] [(.fwBusy, 0)]))))) ∧
    (s.var .fwBusy = 0 → Completes .fwWriteDone s (fun t => t = s)) ∧
    (s.var .fwBusy ≠ 0 → Completes .fwWriteDone s (fun t => t.var .fwBusy = 0 ∧
      t.get .FMP_FW_STATE = (if s.boot.storeBad = true then 4 else 3) ∧
      t.get .FMP_FW_ERROR = (if s.boot.storeBad = true then 5 else 0) ∧
      t.boot = { s.boot with image := if s.boot.storeBad = true then [] else s.boot.staged, staged := [] } ∧
      t.logs.owed = s.logs.owed ++ [⟨0x101, 8, 0, 0, 0, firmwareMeas s.boot.staged % 2 ^ 64, s.get .BEAT_COUNT_COUNT,
        s.eventPhase⟩] ∧
      Frame s t [.boot, .logs] [(.FMP_FW_STATE, 0), (.FMP_FW_ERROR, 0)] [(.fwBusy, 0)])) ∧
    (asked s 4 0x40 m →
      (m.data.length < 8 ∨ 67108864 < a + k → turnedAway s .loaderWrite m 4) ∧
      (8 ≤ m.data.length → a + k ≤ 67108864 → Completes .loaderWrite s (fun t => served s t m [] ∧
        (∀ j, t.boot.image.getD j 0 =
          if a ≤ j ∧ j < a + k then m.data.getD (8 + j - a) 0 else s.boot.image.getD j 0) ∧
        t.boot = { s.boot with image := t.boot.image } ∧ Frame s t [.fmp, .out, .boot] [] []))) ∧
    (asked s 4 0x41 m →
      (m.data.length ≠ 8 → turnedAway s .loaderCommit m 4) ∧
      (m.data.length = 8 → Completes .loaderCommit s (fun t => t.fmp.queue = s.fmp.queue.erase m ∧
        (s.firmwareError (s.boot.image.take a) ≠ 0 → answered s t m 3 [] ∧ counted s t 1 .FMP_STATS_DENIED 0 ∧
          Frame s t [.fmp, .out] [(.FMP_STATS_DENIED, 0)] []) ∧
        (s.firmwareError (s.boot.image.take a) = 0 → answered s t m 0 [] ∧
          t.boot = { s.boot with image := s.boot.image.take a, phase := 1 } ∧ Frame s t [.fmp, .out, .boot] [] []))))

/-- With a session and its switch on, new log entries and then completions that asked for it, 256 at most, go to the
controller in an EVENT, at most every 64 beats; else nothing happens. At its boundary, or outside RUNNING, a Sounding goes out
with its payload, where a session has it on, and each window's load counts are latched and begin again, said for dies without a
Drift policy; one that is not due does nothing. -/
def Obligations.EventsAndSoundings : Prop :=
  ∀ s : State,
    let beat := s.get .BEAT_COUNT_COUNT
    let fresh := min 256 ((s.get .ERR_EVLOG_HEAD_HEAD + 4096 - s.fmp.evNext) % 4096)
    let es := (List.range fresh).map (fun k => padEntry 32 (s.eventEntry (s.fmp.evNext + k))) ++
      (s.fmp.notes.take (256 - fresh)).map Event.bytes
    let may := s.session ≠ 0 ∧ s.get .FMP_CFG_EVENTS ≠ 0 ∧ es ≠ [] ∧ (s.fmp.evBeat = 0 ∨ s.fmp.evBeat + 64 ≤ beat + 1)
    let goes := fun (t : State) (type : Nat) (payload : List Nat) => t.fmp.out = s.fmp.out + 1 ∧
      ∃ fs, t.out = s.out ++ fs ∧ fs ≠ [] ∧ (fs.map (fun x => (x.data.drop 32).take (x.data.length - 64))).flatten = payload ∧
        ∀ x ∈ fs, x.kind = .fmp ∧ x.dest = s.fmp.peer ∧ x.data.getD 1 0 = type ∧ (x.data.getD 2 0).testBit 1 = true
    let due := s.running = false ∨ (beat % 1024 = 0 ∧ s.var .soundAt ≠ beat + 1 ∧ s.var .boundaryDue = 0)
    (¬may → Completes .eventSend s (fun t => t = s)) ∧
    (may → Completes .eventSend s (fun t => goes t 0x30 (leBytes 4 s.fmp.evNext ++ leBytes 4 es.length ++ es.flatten) ∧
      t.fmp.evNext = (s.fmp.evNext + fresh) % 4096 ∧ t.fmp.evBeat = beat + 1 ∧
      t.fmp.notes = s.fmp.notes.drop (256 - fresh) ∧ Frame s t [.fmp, .out] [] [])) ∧
    (¬due → Completes .sounding s (fun t => t = s)) ∧
    (due → (∀ d, d < 2 → s.get .EMB_DRIFT_POLICY_ENABLE d = 0) → Completes .sounding s (fun t =>
      t.var .stretchSince = 0 ∧ t.var .soundAt = (if s.running = true then beat + 1 else 0) ∧
      t.rows = { s.rows with load := [] } ∧
      (∀ i, t.get .DRIFT_LOAD_LOOKUPS i = min (2 ^ 32 - 1) (Sparse.get 0 s.rows.load (2 * i)) ∧
        t.get .DRIFT_LOAD_UPDATES i = min (2 ^ 32 - 1) (Sparse.get 0 s.rows.load (2 * i + 1))) ∧
      (∀ f i, f ≠ .DRIFT_LOAD_LOOKUPS → f ≠ .DRIFT_LOAD_UPDATES → t.get f i = s.get f i) ∧
      (∀ p, p ≠ .fmp → p ≠ .out → p ≠ .rows → s.same t p) ∧
      (s.session ≠ 0 → s.get .FMP_CFG_SOUNDINGS = 1 → goes t 0x31 s.sounding) ∧
      (s.session = 0 ∨ s.get .FMP_CFG_SOUNDINGS ≠ 1 → t.out = s.out ∧ t.fmp = s.fmp)))

/-- FUSE_PROGRAM refuses with DENIED CLAY_SIG_REQUIRED on an unowned module, a revocation that would leave no unrevoked owner
digest, and a slot that is non-zero; a module is unowned if no owner digest is programmed and unrevoked. FW_SVN_COMMIT sets
FW_SVN_MIN to the running image's SVN and is DENIED where that is not above it. -/
def Obligations.FusesAndSvn : Prop :=
  ∀ (s : State) (m : FmpMsg),
    let b := s.boot.burnt
    let none' := fun (owners : List Nat) (revoked : Nat) => ∀ k, k < owners.length →
      owners.getD k 0 = 0 ∨ revoked.testBit k = true
    (s.viewField .FMP_STATUS_UNOWNED 0 = 1 ↔ none' s.boot.fuses.owners s.boot.fuses.revoke) ∧
    (asked s 3 0x21 m → m.data.length = 40 →
      (fieldOf m.data 0 2 = 3 → none' b.owners b.revoke → turnedAway s .fuseProgram m 3) ∧
      (fieldOf m.data 0 2 = 2 → none' b.owners (b.revoke ||| ofLe (m.data.drop 8) % 16) → turnedAway s .fuseProgram m 3) ∧
      (fieldOf m.data 0 2 = 1 → fieldOf m.data 2 2 ≤ 3 → b.owners.getD (fieldOf m.data 2 2) 0 ≠ 0 →
        turnedAway s .fuseProgram m 3)) ∧
    (asked s 3 0x23 m →
      (s.get .FMP_FW_RUN_SVN ≤ b.svnMin → turnedAway s .fwSvnCommit m 3) ∧
      (b.svnMin < s.get .FMP_FW_RUN_SVN → Completes .fwSvnCommit s (fun t => served s t m [] ∧
        t.boot.burnt.svnMin = s.get .FMP_FW_RUN_SVN ∧ Frame s t [.fmp, .out, .boot] [] [])))

/-- Bad FMP frames are counted, whole requests wait their turn, stale parts go, missing SEQs are SKIPPED. -/
def Obligations.FmpMessages : Prop := Claim.FmpFrames ∧ Claim.RequestsRun

/-- HELLO, certificates, quotes and session open, accept, close and idle end act and reply as stated. -/
def Obligations.IdentityAndSessions : Prop := Claim.IdentityRequests ∧ Claim.Sessions

/-- FMP reads and writes registers, the window and dumps, and replies with what it did. -/
def Obligations.RegisterAndWindowRequests : Prop := Claim.RegisterRequests ∧ Claim.WindowRequests ∧ Claim.DumpRequests

/-- Keys, fuses, firmware updates, RESET and the ROM loader change boot state and reply. -/
def Obligations.KeysFusesFirmware : Prop := Claim.KeysFusesResets ∧ Claim.FirmwareAndLoader

/-! Command rings. -/

/-- A ring holds a descriptor of an opcode, at a stage: 3 where its command is due, 4 where it has begun (R455, R456). -/
abbrev ringHolds (s : State) (i stage op : Nat) (b : List Nat) : Prop :=
  i < 16 ∧ (s.ringSt i).desc = some b ∧ (s.ringSt i).stage = stage ∧ b.getD 0 0 = op

/-- A ring has read the descriptor at HEAD, after some re-reads; a line in error gives no bytes (R457). -/
abbrev ringReads (t : State) (i tries : Nat) (rung : Bool) : Prop :=
  let a := t.descAt i (t.get .FMP_RING_STATE_HEAD i)
  t.ringSt i = { stage := 1, tries := tries, rung := rung, desc := if t.lineBad a = true then none else some (t.bytesAt a 64) } ∧
  t.get .FMP_RING_STATS_STATE i = (if tries = 0 then 2 else 3)

/-- A ring goes on: it is idle with HEAD at TAIL, and otherwise reads its next descriptor. -/
abbrev ringGoesOn (t : State) (i : Nat) : Prop :=
  (t.get .FMP_RING_STATE_HEAD i = t.get .FMP_RING_STATE_TAIL i → t.ringSt i = {} ∧ t.get .FMP_RING_STATS_STATE i = 1) ∧
  (t.get .FMP_RING_STATE_HEAD i ≠ t.get .FMP_RING_STATE_TAIL i → ringReads t i 0 false)

/-- A ring's command has completed: its entry stands in memory, HEAD has advanced, one that asks for it adds a notice to the
next EVENT, and the ring goes on. -/
abbrev ringEnded (s t : State) (i status : Nat) (b : List Nat) : Prop :=
  let head := s.get .FMP_RING_STATE_HEAD i
  let entry := [status, 0, 0, 0] ++ (b.drop 4).take 4 ++ leBytes 8 (s.get .BEAT_COUNT_COUNT)
  Wrote s t (s.doneAt i head) entry ∧ t.get .FMP_RING_STATE_HEAD i = (head + 1) % 2 ^ 32 ∧
  t.fmp.notes = s.fmp.notes ++ (if (b.getD 1 0).testBit 1 = true then
    [⟨0x41, 8, 0, i, fieldOf b 4 4, ofLe (entry.take 8), s.get .BEAT_COUNT_COUNT, s.eventPhase⟩] else []) ∧
  ringGoesOn t i ∧
  (s.unitErr = [] → Frame s t [.mem, .fmp] [(.FMP_RING_STATE_HEAD, i), (.FMP_RING_STATS_STATE, i)] [])

/-- A ring's command has begun. -/
abbrev ringBegins (s t : State) (i status : Nat) (left : List (Nat × Nat)) (wait : Bool) : Prop :=
  t.ringSt i = { s.ringSt i with stage := 4, status := status, left := left, wait := wait }

/-- A doorbell with a TAIL before HEAD is counted and ignored; another moves TAIL, at most a ring beyond HEAD, and begins a ring
that is idle, or is remembered during re-reads. A disabled ring ignores it. -/
def Claim.Doorbells : Prop :=
  ∀ (s : State) (i tail : Nat),
    let head := s.get .FMP_RING_STATE_HEAD i
    let want := tail % 2 ^ 32
    let r := s.ringSt i
    let moves := fun (t : State) => t.get .FMP_RING_STATE_TAIL i =
      (if (want + 2 ^ 32 - head) % 2 ^ 32 > s.ringSize i then (head + s.ringSize i) % 2 ^ 32 else want)
    (16 ≤ i ∨ s.get .FMP_RING_STATS_STATE i = 0 → Completes (.doorbell i tail) s (fun t => t = s)) ∧
    (i < 16 → s.get .FMP_RING_STATS_STATE i ≠ 0 →
      (serialBefore want head = true → Completes (.doorbell i tail) s (fun t =>
        counted s t 1 .FMP_RING_STATS_BAD_TAIL i ∧ Frame s t [] [(.FMP_RING_STATS_BAD_TAIL, i)] [])) ∧
      (serialBefore want head = false → r.stage = 0 → Completes (.doorbell i tail) s (fun t => moves t ∧ ringGoesOn t i ∧
        (s.unitErr = [] → Frame s t [.fmp] [(.FMP_RING_STATE_TAIL, i), (.FMP_RING_STATS_STATE, i)] []))) ∧
      (serialBefore want head = false → r.stage ≠ 0 → Completes (.doorbell i tail) s (fun t => moves t ∧
        t.ringSt i = (if r.stage = 2 ∨ (r.stage = 1 ∧ 0 < r.tries) then { r with rung := true } else r) ∧
        Frame s t [.fmp] [(.FMP_RING_STATE_TAIL, i)] [])))

/-- The check of a descriptor passes where its phase bit and its CRC are right. A failed one is followed by a re-read, eight
times at most; then EARLY_DOORBELL is counted and posted and the ring stalls, or goes on where a doorbell came meanwhile. A
check or a re-read that is not due does nothing. -/
def Claim.DescriptorChecks : Prop :=
  ∀ (s : State) (i : Nat),
    let head := s.get .FMP_RING_STATE_HEAD i
    let r := s.ringSt i
    let ok := ∃ b, r.desc = some b ∧ (b.getD 1 0).testBit 0 = head.testBit (s.get .FMP_RING_CFG_LOG2_ENTRIES i) ∧
      ofLe (b.drop 60) = crc32c (b.take 60)
    (16 ≤ i ∨ r.stage ≠ 1 → Completes (.descriptorCheck i) s (fun t => t = s)) ∧
    (i < 16 → r.stage = 1 →
      (ok → Completes (.descriptorCheck i) s (fun t => t.ringSt i = { stage := 3, desc := r.desc } ∧
        t.get .FMP_RING_STATS_STATE i = 2 ∧ Frame s t [.fmp] [(.FMP_RING_STATS_STATE, i)] [])) ∧
      (¬ok → Completes (.descriptorCheck i) s (fun t => t.ringSt i = { r with stage := 2 } ∧
        t.get .FMP_RING_STATS_STATE i = 3 ∧ Frame s t [.fmp] [(.FMP_RING_STATS_STATE, i)] []))) ∧
    (16 ≤ i ∨ r.stage ≠ 2 → Completes (.descriptorReread i) s (fun t => t = s)) ∧
    (i < 16 → r.stage = 2 →
      (r.tries < 8 → Completes (.descriptorReread i) s (fun t => ringReads t i (r.tries + 1) r.rung ∧ t.mem = s.mem ∧
        (s.unitErr = [] → Frame s t [.fmp] [(.FMP_RING_STATS_STATE, i)] []))) ∧
      (8 ≤ r.tries → r.rung = true → Completes (.descriptorReread i) s (fun t => ringGoesOn t i ∧
        counted s t 1 .FMP_RING_STATS_EARLY i ∧ t.mem = s.mem)) ∧
      (8 ≤ r.tries → r.rung = false → Completes (.descriptorReread i) s (fun t => t.ringSt i = {} ∧
        t.get .FMP_RING_STATS_STATE i = 4 ∧ counted s t 1 .FMP_RING_STATS_EARLY i ∧ t.mem = s.mem ∧
        (s.running = true → posted s t 0x40 8 0 i i head ∧
          Frame s t [.fmp, .logs] [(.FMP_RING_STATS_STATE, i), (.FMP_RING_STATS_EARLY, i)] []))))

/-- A command runs only on a ring that holds its opcode at its stage, and otherwise does nothing. NOP and an undefined opcode
complete in place, and so does WAIT_BEAT once its beat has begun, for which it waits before. ARM_FLIP writes its register and
arms, and completes as REFUSED where the flip does not arm. LOAD_IMAGE writes its registers and loads; a load that is ignored
completes as REFUSED, and another waits for its end. Choices of the model in it: assumption 40. -/
def Claim.ShortRingCommands : Prop :=
  ∀ (s : State) (i before : Nat),
    let beat := s.get .BEAT_COUNT_COUNT
    (∀ c op, (c, op) ∈ [(Instr.ringNop i, 0), (.loadImage i, 1), (.armFlip i, 2), (.regWrites i before, 3), (.waitBeat i, 4),
        (.ringCopy i, 5), (.ringFill i, 6)] → (∀ b, ¬ringHolds s i 3 op b) → Completes c s (fun t => t = s)) ∧
    ((∀ b op, 7 ≤ op → ¬ringHolds s i 3 op b) → Completes (.ringBadOpcode i) s (fun t => t = s)) ∧
    (∀ b,
      (ringHolds s i 3 0 b → Completes (.ringNop i) s (fun t => ringEnded s t i 0 b)) ∧
      (∀ op, 7 ≤ op → ringHolds s i 3 op b → Completes (.ringBadOpcode i) s (fun t => ringEnded s t i 1 b)) ∧
      (ringHolds s i 3 4 b →
        (ringArg b 0 8 ≤ beat → Completes (.waitBeat i) s (fun t => ringEnded s t i 0 b)) ∧
        (beat < ringArg b 0 8 → Completes (.waitBeat i) s (fun t => ringBegins s t i 0 [] true ∧ Frame s t [.fmp] [] []))) ∧
      (ringHolds s i 3 2 b → Completes (.armFlip i) s (fun t => ∃ u v, Lands [(0x20020, ringArg b 0 8)] s u ∧
        exec .clayArm u = .next v ∧ ringEnded v t i (if u.armFails = true then 2 else 0) b)) ∧
      (ringHolds s i 3 1 b → Completes (.loadImage i) s (fun t => ∃ u v,
        Lands [(0x20010, ringArg b 0 8), (0x20018, ringArg b 8 8)] s u ∧ exec .clayLoad u = .next v ∧
        (s.loading = true ∨ (s.running = true ∧ s.get .CLAY_STATUS_ARMED = 1) → ringEnded v t i 2 b) ∧
        (s.loading = false → (s.running = false ∨ s.get .CLAY_STATUS_ARMED ≠ 1) →
          ringBegins v t i 0 [] true ∧ Frame v t [.fmp] [] []))))

/-- REG_WRITES reads its list. Without a beat, or after it has begun, which is LATE, the first `before` writes land now and the
rest with the completion; otherwise all wait for the beat, in which REG_WRITES_AT_BEAT lands them. A list that cannot be read
is UE from its bad line on, and one too long has a free status (the model's choice). WAIT_BEAT_DONE completes a wait whose
beat has begun. What has begun and waits for nothing completes with its status, after its last writes. Each does nothing where
it is not due. Choices of the model in it: assumptions 40, 84. -/
def Claim.LongRingCommands : Prop :=
  ∀ (s : State) (i : Nat),
    let beat := s.get .BEAT_COUNT_COUNT
    let r := s.ringSt i
    let open' := fun (op : Nat) (b : List Nat) => ringHolds s i 4 op b ∧ r.wait = true ∧ waitBeat b ≤ beat
    ((∀ b, ¬open' 3 b) → Completes (.regWritesAtBeat i) s (fun t => t = s)) ∧
    ((∀ b, ¬open' 4 b) → Completes (.waitBeatDone i) s (fun t => t = s)) ∧
    (16 ≤ i ∨ r.stage ≠ 4 ∨ r.wait = true → Completes (.ringCommandCompletion i) s (fun t => t = s)) ∧
    (∀ b,
      (∀ before, ringHolds s i 3 3 b →
        let list := s.writePairs (ringArg b 0 8) (ringArg b 8 4)
        let late := ringArg b 16 8 ≠ 0 ∧ ringArg b 16 8 ≤ beat
        let status := if list.2.1 = true then 3 else if late then 6 else 0
        (4090 < ringArg b 8 4 → Completes (.regWrites i before) s (fun t => ringBegins s t i (s.free 8) [] false ∧
          Frame s t [.fmp] [] [(.freeCount, 0)])) ∧
        (ringArg b 8 4 ≤ 4090 → ringArg b 16 8 = 0 ∨ late → Completes (.regWrites i before) s (fun t => ∃ u,
          ringBegins s u i status (list.1.drop before) false ∧ (s.unitErr = [] → Frame s u [.fmp] [] []) ∧
          Lands (list.1.take before) u t)) ∧
        (ringArg b 8 4 ≤ 4090 → beat < ringArg b 16 8 → Completes (.regWrites i before) s (fun t =>
          ringBegins s t i status list.1 true ∧ (s.unitErr = [] → Frame s t [.fmp] [] [])))) ∧
      (open' 3 b → Completes (.regWritesAtBeat i) s (fun t => ∃ u,
        u.ringSt i = { r with wait := false, left := [] } ∧ Frame s u [.fmp] [] [] ∧ Lands r.left u t)) ∧
      (open' 4 b → Completes (.waitBeatDone i) s (fun t => ringEnded s t i 0 b)) ∧
      (∀ op, ringHolds s i 4 op b → r.wait = false → Completes (.ringCommandCompletion i) s (fun t => ∃ u,
        Lands r.left s u ∧ ∀ b', (u.ringSt i).desc = some b' → ringEnded u t i r.status b')))

/-- A copy writes the bytes that its source held, said where no byte is there twice or the length is 64 B, and stops at a source
line that cannot be read, said for one in the first 64 B; a fill writes its pattern. One that meets a hole does neither and
will complete as HOLE; one whose length is no multiple of 64 B has a free status (the model's choice).
Choices of the model in it: assumptions 40, 64, 84. -/
def Claim.RingCopiesAndFills : Prop :=
  ∀ (s : State) (i : Nat) (b : List Nat),
    let a := ringArg b 0 8
    let dst := ringArg b 8 8
    let n := ringArg b 16 8
    let len := ringArg b 8 8
    let openEnd := fun (c : Instr) => Completes c s (fun t => ringBegins s t i (s.free 8) [] false ∧
      Frame s t [.fmp] [] [(.freeCount, 0)])
    let nowhere := fun (c : Instr) => Completes c s (fun t => ringBegins s t i 4 [] false ∧ Frame s t [.fmp] [] [])
    (ringHolds s i 3 5 b →
      (n % 64 ≠ 0 → openEnd (.ringCopy i)) ∧
      (n % 64 = 0 → ¬(inMap a n = true ∧ inMap dst n = true) → nowhere (.ringCopy i)) ∧
      (n % 64 = 0 → inMap a n = true → inMap dst n = true →
        (s.unitErr = [] → n = 64 ∨ (∀ j k, j < n → k < n → canonDpa (a + j) ≠ canonDpa (dst + k) ∧
            (j ≠ k → canonDpa (dst + j) ≠ canonDpa (dst + k))) →
          Completes (.ringCopy i) s (fun t =>
            ringBegins s t i 0 [] false ∧ Wrote s t dst (s.bytesAt a n) ∧ Frame s t [.mem, .fmp] [] [])) ∧
        (∀ l, (linesOf a 64).find? s.lineBad = some l → 0 < n → Completes (.ringCopy i) s (fun t =>
          ringBegins s t i 3 [] false ∧ Wrote s t dst (s.bytesAt a (l - a)))))) ∧
    (ringHolds s i 3 6 b →
      (len % 64 ≠ 0 → openEnd (.ringFill i)) ∧
      (len % 64 = 0 → inMap a len = false → nowhere (.ringFill i)) ∧
      (len % 64 = 0 → inMap a len = true → Completes (.ringFill i) s (fun t => ringBegins s t i 0 [] false ∧
        Wrote s t a (List.replicate (len / 8) (leBytes 8 (ringArg b 16 8))).flatten ∧
        (s.unitErr = [] → Frame s t [.mem, .fmp] [] []))))

/-- Doorbells start a ring's reads; checks pass, fail and are retried eight times before the ring stalls. -/
def Obligations.RingDescriptors : Prop := Claim.Doorbells ∧ Claim.DescriptorChecks

/-- Each ring command has its effect and completes with its status in its entry. -/
def Obligations.RingCommands : Prop := Claim.ShortRingCommands ∧ Claim.LongRingCommands ∧ Claim.RingCopiesAndFills
end

