-- ==== Sys2Proof/Laws/Sparse.lean ====
section
/-!
SUPPORT. The laws of sparse maps: what a read gives after a write or a filter, and that both keep the canonical form.
-/
namespace Sys2Proof.Sparse

variable {α : Type}

@[simp] theorem get_nil (d : α) (k : Nat) : get d [] k = d := rfl

theorem get_del (d : α) (m : SMap α) (k j : Nat) : get d (del k m) j = if j = k then d else get d m j := by
  induction m with
  | nil => simp [del, get]
  | cons p m ih =>
    obtain ⟨i, v⟩ := p
    by_cases hi : i = k
    · subst hi
      by_cases hj : j = i
      · subst hj; simpa [del, get] using ih
      · simp [del, get, ih, hj, Ne.symm hj]
    · by_cases hij : i = j
      · subst hij; simp [del, get, hi]
      · simp [del, get, hi, hij, ih]

theorem get_put (d : α) (m : SMap α) (k j : Nat) (v : α) :
    get d (put k v (del k m)) j = if j = k then v else get d (del k m) j := by
  have key : ∀ m' : SMap α, (∀ p ∈ m', p.1 ≠ k) → get d (put k v m') j = if j = k then v else get d m' j := by
    intro m'
    induction m' with
    | nil =>
      intro _
      by_cases hj : j = k
      · simp [put, get, hj]
      · simp [put, get, hj, Ne.symm hj]
    | cons p m' ih =>
      obtain ⟨i, w⟩ := p
      intro hk
      have hi : i ≠ k := hk (i, w) (by simp)
      have ih' := ih (fun q hq => hk q (by simp [hq]))
      by_cases hlt : k < i
      · by_cases hj : j = k
        · simp [put, get, hlt, hj]
        · simp [put, get, hlt, hj, Ne.symm hj]
      · by_cases hij : i = j
        · subst hij; simp [put, get, hlt, hi]
        · simp [put, get, hlt, hij, ih']
  apply key
  intro p hp
  clear key
  induction m with
  | nil => simp [del] at hp
  | cons q m ih =>
    obtain ⟨i, w⟩ := q
    by_cases hi : i = k
    · simp [del, hi] at hp; exact ih hp
    · simp [del, hi] at hp
      rcases hp with rfl | hp
      · exact hi
      · exact ih hp

/-- A read after a write. -/
theorem get_set [DecidableEq α] (d : α) (m : SMap α) (k j : Nat) (v : α) :
    get d (set d m k v) j = if j = k then v else get d m j := by
  unfold set
  split
  · next h => subst h; exact get_del ..
  · rw [get_put]
    split <;> simp [get_del, *]

@[simp] theorem get_set_self [DecidableEq α] (d : α) (m : SMap α) (k : Nat) (v : α) : get d (set d m k v) k = v := by
  simp [get_set]

theorem get_set_other [DecidableEq α] (d : α) (m : SMap α) (k j : Nat) (v : α) (h : j ≠ k) :
    get d (set d m k v) j = get d m j := by simp [get_set, h]

/-- A read elsewhere than a write, whatever an unlisted key reads as. -/
theorem get_set_ne [DecidableEq α] (d e : α) (m : SMap α) (k j : Nat) (v : α) (h : j ≠ k) :
    get e (set d m k v) j = get e m j := by
  unfold set
  split
  · simp [get_del, h]
  · rw [get_put]; simp [get_del, h]

/-- A read after only some keys stay. -/
theorem get_filter (d : α) (m : SMap α) (p : Nat → Bool) (k : Nat) :
    get d (m.filter (fun x => p x.1)) k = if p k then get d m k else d := by
  induction m with
  | nil => simp
  | cons q m ih =>
    obtain ⟨i, w⟩ := q
    by_cases hp : p i <;> by_cases hk : i = k
    · subst hk; simp [get, hp]
    · simp [get, hp, hk, ih]
    · subst hk; simp [hp, ih]
    · simp [get, hp, hk, ih]

theorem risingFrom_mono {b c : Nat} (h : c ≤ b) {m : SMap α} (hm : risingFrom b m = true) : risingFrom c m = true := by
  cases m with
  | nil => rfl
  | cons p m => obtain ⟨i, w⟩ := p; simp [risingFrom] at hm ⊢; exact ⟨by omega, hm.2⟩

theorem risingFrom_filter (f : Nat × α → Bool) {b : Nat} {m : SMap α} (h : risingFrom b m = true) :
    risingFrom b (m.filter f) = true := by
  induction m generalizing b with
  | nil => rfl
  | cons q m ih =>
    obtain ⟨i, w⟩ := q
    simp only [risingFrom, Bool.and_eq_true, decide_eq_true_eq] at h
    by_cases hf : f (i, w)
    · simp [hf, risingFrom, h.1, ih h.2]
    · simp [hf]; exact ih (risingFrom_mono (by omega) h.2)

theorem risingFrom_del (k : Nat) {b : Nat} {m : SMap α} (h : risingFrom b m = true) : risingFrom b (del k m) = true := by
  induction m generalizing b with
  | nil => rfl
  | cons q m ih =>
    obtain ⟨i, w⟩ := q
    simp only [risingFrom, Bool.and_eq_true, decide_eq_true_eq] at h
    by_cases hf : i = k
    · simp [del, hf]; exact ih (risingFrom_mono (by omega) h.2)
    · simp [del, hf, risingFrom, h.1, ih h.2]

theorem mem_del {k : Nat} {m : SMap α} {p : Nat × α} (h : p ∈ del k m) : p ∈ m ∧ p.1 ≠ k := by
  induction m with
  | nil => simp [del] at h
  | cons q m ih =>
    obtain ⟨i, w⟩ := q
    by_cases hi : i = k
    · simp [del, hi] at h; have := ih h; simp [this]
    · simp [del, hi] at h
      rcases h with rfl | h
      · simp [hi]
      · have := ih h; simp [this]

theorem mem_put {k : Nat} {v : α} {m : SMap α} {p : Nat × α} (h : p ∈ put k v m) : p = (k, v) ∨ p ∈ m := by
  induction m with
  | nil => simp [put] at h; exact .inl h
  | cons q m ih =>
    obtain ⟨i, w⟩ := q
    by_cases hi : k < i
    · simp [put, hi] at h; rcases h with h | h | h <;> simp [h]
    · simp [put, hi] at h
      rcases h with h | h
      · simp [h]
      · rcases ih h with h | h <;> simp [h]

theorem risingFrom_put (k : Nat) (v : α) {b : Nat} {m : SMap α} (hb : b ≤ k) (hk : ∀ p ∈ m, p.1 ≠ k)
    (h : risingFrom b m = true) : risingFrom b (put k v m) = true := by
  induction m generalizing b with
  | nil => simp [put, risingFrom, hb]
  | cons q m ih =>
    obtain ⟨i, w⟩ := q
    simp only [risingFrom, Bool.and_eq_true, decide_eq_true_eq] at h
    have hi : i ≠ k := hk (i, w) (by simp)
    by_cases hlt : k < i
    · simp [put, hlt, risingFrom, hb, h.2] <;> omega
    · have := ih (b := i + 1) (by omega) (fun p hp => hk p (by simp [hp])) h.2
      simp [put, hlt, risingFrom, h.1, this]

/-- Only listed pairs and the written one are in a map after a write. -/
theorem mem_set [DecidableEq α] {d : α} {m : SMap α} {k : Nat} {v : α} {p : Nat × α} (h : p ∈ set d m k v) :
    p = (k, v) ∨ p ∈ m := by
  unfold set at h
  split at h
  · exact .inr (mem_del h).1
  · rcases mem_put h with h | h
    · exact .inl h
    · exact .inr (mem_del h).1

/-- A write keeps the canonical form. -/
theorem wf_set [DecidableEq α] {d : α} {m : SMap α} (k : Nat) (v : α) (h : wf d m = true) : wf d (set d m k v) = true := by
  simp only [wf, Bool.and_eq_true, List.all_eq_true] at h ⊢
  refine ⟨?_, fun p hp => ?_⟩
  · unfold set
    split
    · exact risingFrom_del k h.1
    · exact risingFrom_put k v (Nat.zero_le _) (fun p hp => (mem_del hp).2) (risingFrom_del k h.1)
  · by_cases hv : v = d
    · simp only [set, hv, if_true] at hp; exact h.2 p (mem_del hp).1
    · rcases mem_set hp with rfl | hp
      · simpa using hv
      · exact h.2 p hp

/-- Entries below a bound, then entries from it on. -/
theorem risingFrom_append {b c : Nat} {m n : SMap α} (hbc : b ≤ c) (hm : risingFrom b m = true) (hc : ∀ p ∈ m, p.1 < c)
    (hn : risingFrom c n = true) : risingFrom b (m ++ n) = true := by
  induction m generalizing b with
  | nil => exact risingFrom_mono hbc hn
  | cons q m ih =>
    obtain ⟨i, w⟩ := q
    simp only [risingFrom, Bool.and_eq_true, decide_eq_true_eq] at hm
    have hi : i < c := hc (i, w) (by simp)
    simp [risingFrom, hm.1, ih (by omega) hm.2 (fun p hp => hc p (by simp [hp]))]

/-- The entries from a bound on rise from it. -/
theorem risingFrom_from {b : Nat} (c : Nat) {m : SMap α} (hm : risingFrom b m = true) :
    risingFrom c (m.filter (fun p => c ≤ p.1)) = true := by
  induction m generalizing b with
  | nil => rfl
  | cons q m ih =>
    obtain ⟨i, w⟩ := q
    simp only [risingFrom, Bool.and_eq_true, decide_eq_true_eq] at hm
    by_cases hi : c ≤ i
    · have := risingFrom_filter (fun p => decide (c ≤ p.1)) hm.2
      simp [hi, risingFrom, this]
    · simp [hi]; exact ih hm.2

/-- A run of keys rises from its first. -/
theorem risingFrom_run (a n : Nat) (v : α) : risingFrom a ((List.range n).map (fun i => (a + i, v))) = true := by
  induction n generalizing a with
  | zero => rfl
  | succ n ih =>
    have := ih (a + 1)
    simp only [List.range_succ_eq_map, List.map_cons, List.map_map, Nat.add_zero, risingFrom, Nat.le_refl, decide_true,
      Bool.true_and]
    simpa [Function.comp_def, Nat.add_assoc, Nat.add_comm 1] using this

/-- Dropping entries keeps the canonical form. -/
theorem wf_filter [DecidableEq α] {d : α} {m : SMap α} (f : Nat × α → Bool) (h : wf d m = true) :
    wf d (m.filter f) = true := by
  simp only [wf, Bool.and_eq_true, List.all_eq_true] at h ⊢
  exact ⟨risingFrom_filter f h.1, fun p hp => h.2 p (List.mem_filter.mp hp).1⟩

theorem del_absent {k : Nat} {m : SMap α} (h : ∀ p ∈ m, p.1 ≠ k) : del k m = m := by
  induction m with
  | nil => rfl
  | cons p m ih => simp [del, h p (by simp), ih (fun q hq => h q (List.mem_cons_of_mem _ hq))]

theorem put_above {k : Nat} {v : α} {m : SMap α} (h : ∀ p ∈ m, p.1 < k) : put k v m = m ++ [(k, v)] := by
  induction m with
  | nil => rfl
  | cons p m ih =>
    have hp := h p (by simp)
    simp [put, Nat.not_lt_of_gt hp, ih (fun q hq => h q (List.mem_cons_of_mem _ hq))]

/-- A write above every listed key adds its pair at the end. -/
theorem set_above [DecidableEq α] {d : α} {m : SMap α} {k : Nat} {v : α} (hv : v ≠ d) (h : ∀ p ∈ m, p.1 < k) :
    set d m k v = m ++ [(k, v)] := by
  rw [set, if_neg hv, del_absent (fun p hp => Nat.ne_of_lt (h p hp)), put_above h]

theorem get_above {d : α} {m : SMap α} {k : Nat} (h : ∀ p ∈ m, p.1 < k) : get d m k = d := by
  induction m with
  | nil => rfl
  | cons p m ih => simp [get, Nat.ne_of_lt (h p (by simp)), ih (fun q hq => h q (List.mem_cons_of_mem _ hq))]

end Sys2Proof.Sparse
end

