-- ==== Sys2Proof/Laws/Fields.lean ====
section
/-!
SUPPORT. The laws of the register fields and internal variables: what each reads after an update.
-/
namespace Sys2Proof.Machine

theorem fld_index (f : Fld) : f.ctorIdx < 1024 := by cases f <;> decide

theorem fld_index_inj {f g : Fld} (h : f.ctorIdx = g.ctorIdx) : f = g := by
  have := congrArg Fld.ofNat h
  simpa [Fld.ofNat_ctorIdx] using this

theorem var_index (v : Var) : v.ctorIdx < 256 := by cases v <;> decide

theorem var_index_inj {v w : Var} (h : v.ctorIdx = w.ctorIdx) : v = w := by
  have := congrArg Var.ofNat h
  simpa [Var.ofNat_ctorIdx] using this

/-- Different fields or instances have different keys. -/
theorem fkey_inj {f g : Fld} {i j : Nat} : fkey f i = fkey g j ↔ f = g ∧ i = j := by
  constructor
  · intro h
    have hf := fld_index f
    have hg := fld_index g
    simp only [fkey] at h
    have h1 : i = j := by omega
    exact ⟨fld_index_inj (by omega), h1⟩
  · rintro ⟨rfl, rfl⟩; rfl

theorem vkey_inj {v w : Var} {i j : Nat} : vkey v i = vkey w j ↔ v = w ∧ i = j := by
  constructor
  · intro h
    have hf := var_index v
    have hg := var_index w
    simp only [vkey] at h
    have h1 : i = j := by omega
    exact ⟨var_index_inj (by omega), h1⟩
  · rintro ⟨rfl, rfl⟩; rfl

/-- Every field's reset value fits its width. -/
theorem fld_reset_fits (f : Fld) : f.reset < 2 ^ f.width := by cases f <;> decide

end Sys2Proof.Machine
end

