-- ==== Sys2Proof/Laws/State.lean ====
section
/-!
SUPPORT. The laws of State: what every field, every register field and every variable is after each update. An update
changes only what it names.
-/
namespace Sys2Proof.Machine

variable (s : State)

@[simp] theorem State.apply_reg_shadows (f : Fld) (i v : Nat) : (s.apply (.reg f i v)).shadows = s.shadows := rfl
@[simp] theorem State.apply_reg_vars (f : Fld) (i v : Nat) : (s.apply (.reg f i v)).vars = s.vars := rfl
@[simp] theorem State.apply_reg_mem (f : Fld) (i v : Nat) : (s.apply (.reg f i v)).mem = s.mem := rfl
@[simp] theorem State.apply_reg_unitErr (f : Fld) (i v : Nat) : (s.apply (.reg f i v)).unitErr = s.unitErr := rfl
@[simp] theorem State.apply_reg_queues (f : Fld) (i v : Nat) : (s.apply (.reg f i v)).queues = s.queues := rfl
@[simp] theorem State.apply_reg_slices (f : Fld) (i v : Nat) : (s.apply (.reg f i v)).slices = s.slices := rfl
@[simp] theorem State.apply_reg_cells (f : Fld) (i v : Nat) : (s.apply (.reg f i v)).cells = s.cells := rfl
@[simp] theorem State.apply_reg_logs (f : Fld) (i v : Nat) : (s.apply (.reg f i v)).logs = s.logs := rfl
@[simp] theorem State.apply_reg_clay (f : Fld) (i v : Nat) : (s.apply (.reg f i v)).clay = s.clay := rfl
@[simp] theorem State.apply_reg_xport (f : Fld) (i v : Nat) : (s.apply (.reg f i v)).xport = s.xport := rfl
@[simp] theorem State.apply_reg_rows (f : Fld) (i v : Nat) : (s.apply (.reg f i v)).rows = s.rows := rfl
@[simp] theorem State.apply_reg_spring (f : Fld) (i v : Nat) : (s.apply (.reg f i v)).spring = s.spring := rfl
@[simp] theorem State.apply_reg_silt (f : Fld) (i v : Nat) : (s.apply (.reg f i v)).silt = s.silt := rfl
@[simp] theorem State.apply_reg_emb (f : Fld) (i v : Nat) : (s.apply (.reg f i v)).emb = s.emb := rfl
@[simp] theorem State.apply_reg_kv (f : Fld) (i v : Nat) : (s.apply (.reg f i v)).kv = s.kv := rfl
@[simp] theorem State.apply_reg_coll (f : Fld) (i v : Nat) : (s.apply (.reg f i v)).coll = s.coll := rfl
@[simp] theorem State.apply_reg_fmp (f : Fld) (i v : Nat) : (s.apply (.reg f i v)).fmp = s.fmp := rfl
@[simp] theorem State.apply_reg_boot (f : Fld) (i v : Nat) : (s.apply (.reg f i v)).boot = s.boot := rfl
@[simp] theorem State.apply_reg_out (f : Fld) (i v : Nat) : (s.apply (.reg f i v)).out = s.out := rfl
@[simp] theorem State.apply_reg_pending (f : Fld) (i v : Nat) : (s.apply (.reg f i v)).pending = s.pending := rfl
@[simp] theorem State.apply_reg_gvar (f : Fld) (i v : Nat) (g : Var) (j : Nat) : (s.apply (.reg f i v)).var g j = s.var g j := rfl
@[simp] theorem State.apply_reg_byteAt (f : Fld) (i v : Nat) (a : Nat) : (s.apply (.reg f i v)).byteAt a = s.byteAt a := rfl
@[simp] theorem State.apply_shadow_regs (f : Fld) (i v : Nat) : (s.apply (.shadow f i v)).regs = s.regs := rfl
@[simp] theorem State.apply_shadow_vars (f : Fld) (i v : Nat) : (s.apply (.shadow f i v)).vars = s.vars := rfl
@[simp] theorem State.apply_shadow_mem (f : Fld) (i v : Nat) : (s.apply (.shadow f i v)).mem = s.mem := rfl
@[simp] theorem State.apply_shadow_unitErr (f : Fld) (i v : Nat) : (s.apply (.shadow f i v)).unitErr = s.unitErr := rfl
@[simp] theorem State.apply_shadow_queues (f : Fld) (i v : Nat) : (s.apply (.shadow f i v)).queues = s.queues := rfl
@[simp] theorem State.apply_shadow_slices (f : Fld) (i v : Nat) : (s.apply (.shadow f i v)).slices = s.slices := rfl
@[simp] theorem State.apply_shadow_cells (f : Fld) (i v : Nat) : (s.apply (.shadow f i v)).cells = s.cells := rfl
@[simp] theorem State.apply_shadow_logs (f : Fld) (i v : Nat) : (s.apply (.shadow f i v)).logs = s.logs := rfl
@[simp] theorem State.apply_shadow_clay (f : Fld) (i v : Nat) : (s.apply (.shadow f i v)).clay = s.clay := rfl
@[simp] theorem State.apply_shadow_xport (f : Fld) (i v : Nat) : (s.apply (.shadow f i v)).xport = s.xport := rfl
@[simp] theorem State.apply_shadow_rows (f : Fld) (i v : Nat) : (s.apply (.shadow f i v)).rows = s.rows := rfl
@[simp] theorem State.apply_shadow_spring (f : Fld) (i v : Nat) : (s.apply (.shadow f i v)).spring = s.spring := rfl
@[simp] theorem State.apply_shadow_silt (f : Fld) (i v : Nat) : (s.apply (.shadow f i v)).silt = s.silt := rfl
@[simp] theorem State.apply_shadow_emb (f : Fld) (i v : Nat) : (s.apply (.shadow f i v)).emb = s.emb := rfl
@[simp] theorem State.apply_shadow_kv (f : Fld) (i v : Nat) : (s.apply (.shadow f i v)).kv = s.kv := rfl
@[simp] theorem State.apply_shadow_coll (f : Fld) (i v : Nat) : (s.apply (.shadow f i v)).coll = s.coll := rfl
@[simp] theorem State.apply_shadow_fmp (f : Fld) (i v : Nat) : (s.apply (.shadow f i v)).fmp = s.fmp := rfl
@[simp] theorem State.apply_shadow_boot (f : Fld) (i v : Nat) : (s.apply (.shadow f i v)).boot = s.boot := rfl
@[simp] theorem State.apply_shadow_out (f : Fld) (i v : Nat) : (s.apply (.shadow f i v)).out = s.out := rfl
@[simp] theorem State.apply_shadow_pending (f : Fld) (i v : Nat) : (s.apply (.shadow f i v)).pending = s.pending := rfl
@[simp] theorem State.apply_shadow_get (f : Fld) (i v : Nat) (g : Fld) (j : Nat) : (s.apply (.shadow f i v)).get g j = s.get g j := rfl
@[simp] theorem State.apply_shadow_gvar (f : Fld) (i v : Nat) (g : Var) (j : Nat) : (s.apply (.shadow f i v)).var g j = s.var g j := rfl
@[simp] theorem State.apply_shadow_byteAt (f : Fld) (i v : Nat) (a : Nat) : (s.apply (.shadow f i v)).byteAt a = s.byteAt a := rfl
@[simp] theorem State.apply_unshadow_regs (f : Fld) (i : Nat) : (s.apply (.unshadow f i)).regs = s.regs := rfl
@[simp] theorem State.apply_unshadow_vars (f : Fld) (i : Nat) : (s.apply (.unshadow f i)).vars = s.vars := rfl
@[simp] theorem State.apply_unshadow_mem (f : Fld) (i : Nat) : (s.apply (.unshadow f i)).mem = s.mem := rfl
@[simp] theorem State.apply_unshadow_unitErr (f : Fld) (i : Nat) : (s.apply (.unshadow f i)).unitErr = s.unitErr := rfl
@[simp] theorem State.apply_unshadow_queues (f : Fld) (i : Nat) : (s.apply (.unshadow f i)).queues = s.queues := rfl
@[simp] theorem State.apply_unshadow_slices (f : Fld) (i : Nat) : (s.apply (.unshadow f i)).slices = s.slices := rfl
@[simp] theorem State.apply_unshadow_cells (f : Fld) (i : Nat) : (s.apply (.unshadow f i)).cells = s.cells := rfl
@[simp] theorem State.apply_unshadow_logs (f : Fld) (i : Nat) : (s.apply (.unshadow f i)).logs = s.logs := rfl
@[simp] theorem State.apply_unshadow_clay (f : Fld) (i : Nat) : (s.apply (.unshadow f i)).clay = s.clay := rfl
@[simp] theorem State.apply_unshadow_xport (f : Fld) (i : Nat) : (s.apply (.unshadow f i)).xport = s.xport := rfl
@[simp] theorem State.apply_unshadow_rows (f : Fld) (i : Nat) : (s.apply (.unshadow f i)).rows = s.rows := rfl
@[simp] theorem State.apply_unshadow_spring (f : Fld) (i : Nat) : (s.apply (.unshadow f i)).spring = s.spring := rfl
@[simp] theorem State.apply_unshadow_silt (f : Fld) (i : Nat) : (s.apply (.unshadow f i)).silt = s.silt := rfl
@[simp] theorem State.apply_unshadow_emb (f : Fld) (i : Nat) : (s.apply (.unshadow f i)).emb = s.emb := rfl
@[simp] theorem State.apply_unshadow_kv (f : Fld) (i : Nat) : (s.apply (.unshadow f i)).kv = s.kv := rfl
@[simp] theorem State.apply_unshadow_coll (f : Fld) (i : Nat) : (s.apply (.unshadow f i)).coll = s.coll := rfl
@[simp] theorem State.apply_unshadow_fmp (f : Fld) (i : Nat) : (s.apply (.unshadow f i)).fmp = s.fmp := rfl
@[simp] theorem State.apply_unshadow_boot (f : Fld) (i : Nat) : (s.apply (.unshadow f i)).boot = s.boot := rfl
@[simp] theorem State.apply_unshadow_out (f : Fld) (i : Nat) : (s.apply (.unshadow f i)).out = s.out := rfl
@[simp] theorem State.apply_unshadow_pending (f : Fld) (i : Nat) : (s.apply (.unshadow f i)).pending = s.pending := rfl
@[simp] theorem State.apply_unshadow_get (f : Fld) (i : Nat) (g : Fld) (j : Nat) : (s.apply (.unshadow f i)).get g j = s.get g j := rfl
@[simp] theorem State.apply_unshadow_gvar (f : Fld) (i : Nat) (g : Var) (j : Nat) : (s.apply (.unshadow f i)).var g j = s.var g j := rfl
@[simp] theorem State.apply_unshadow_byteAt (f : Fld) (i : Nat) (a : Nat) : (s.apply (.unshadow f i)).byteAt a = s.byteAt a := rfl
@[simp] theorem State.apply_var_regs (v : Var) (i n : Nat) : (s.apply (.var v i n)).regs = s.regs := rfl
@[simp] theorem State.apply_var_shadows (v : Var) (i n : Nat) : (s.apply (.var v i n)).shadows = s.shadows := rfl
@[simp] theorem State.apply_var_mem (v : Var) (i n : Nat) : (s.apply (.var v i n)).mem = s.mem := rfl
@[simp] theorem State.apply_var_unitErr (v : Var) (i n : Nat) : (s.apply (.var v i n)).unitErr = s.unitErr := rfl
@[simp] theorem State.apply_var_queues (v : Var) (i n : Nat) : (s.apply (.var v i n)).queues = s.queues := rfl
@[simp] theorem State.apply_var_slices (v : Var) (i n : Nat) : (s.apply (.var v i n)).slices = s.slices := rfl
@[simp] theorem State.apply_var_cells (v : Var) (i n : Nat) : (s.apply (.var v i n)).cells = s.cells := rfl
@[simp] theorem State.apply_var_logs (v : Var) (i n : Nat) : (s.apply (.var v i n)).logs = s.logs := rfl
@[simp] theorem State.apply_var_clay (v : Var) (i n : Nat) : (s.apply (.var v i n)).clay = s.clay := rfl
@[simp] theorem State.apply_var_xport (v : Var) (i n : Nat) : (s.apply (.var v i n)).xport = s.xport := rfl
@[simp] theorem State.apply_var_rows (v : Var) (i n : Nat) : (s.apply (.var v i n)).rows = s.rows := rfl
@[simp] theorem State.apply_var_spring (v : Var) (i n : Nat) : (s.apply (.var v i n)).spring = s.spring := rfl
@[simp] theorem State.apply_var_silt (v : Var) (i n : Nat) : (s.apply (.var v i n)).silt = s.silt := rfl
@[simp] theorem State.apply_var_emb (v : Var) (i n : Nat) : (s.apply (.var v i n)).emb = s.emb := rfl
@[simp] theorem State.apply_var_kv (v : Var) (i n : Nat) : (s.apply (.var v i n)).kv = s.kv := rfl
@[simp] theorem State.apply_var_coll (v : Var) (i n : Nat) : (s.apply (.var v i n)).coll = s.coll := rfl
@[simp] theorem State.apply_var_fmp (v : Var) (i n : Nat) : (s.apply (.var v i n)).fmp = s.fmp := rfl
@[simp] theorem State.apply_var_boot (v : Var) (i n : Nat) : (s.apply (.var v i n)).boot = s.boot := rfl
@[simp] theorem State.apply_var_out (v : Var) (i n : Nat) : (s.apply (.var v i n)).out = s.out := rfl
@[simp] theorem State.apply_var_pending (v : Var) (i n : Nat) : (s.apply (.var v i n)).pending = s.pending := rfl
@[simp] theorem State.apply_var_get (v : Var) (i n : Nat) (g : Fld) (j : Nat) : (s.apply (.var v i n)).get g j = s.get g j := rfl
@[simp] theorem State.apply_var_byteAt (v : Var) (i n : Nat) (a : Nat) : (s.apply (.var v i n)).byteAt a = s.byteAt a := rfl
@[simp] theorem State.apply_bytes_regs (a : Nat) (bs : List Nat) : (s.apply (.bytes a bs)).regs = s.regs := rfl
@[simp] theorem State.apply_bytes_shadows (a : Nat) (bs : List Nat) : (s.apply (.bytes a bs)).shadows = s.shadows := rfl
@[simp] theorem State.apply_bytes_vars (a : Nat) (bs : List Nat) : (s.apply (.bytes a bs)).vars = s.vars := rfl
@[simp] theorem State.apply_bytes_queues (a : Nat) (bs : List Nat) : (s.apply (.bytes a bs)).queues = s.queues := rfl
@[simp] theorem State.apply_bytes_slices (a : Nat) (bs : List Nat) : (s.apply (.bytes a bs)).slices = s.slices := rfl
@[simp] theorem State.apply_bytes_cells (a : Nat) (bs : List Nat) : (s.apply (.bytes a bs)).cells = s.cells := rfl
@[simp] theorem State.apply_bytes_logs (a : Nat) (bs : List Nat) : (s.apply (.bytes a bs)).logs = s.logs := rfl
@[simp] theorem State.apply_bytes_clay (a : Nat) (bs : List Nat) : (s.apply (.bytes a bs)).clay = s.clay := rfl
@[simp] theorem State.apply_bytes_xport (a : Nat) (bs : List Nat) : (s.apply (.bytes a bs)).xport = s.xport := rfl
@[simp] theorem State.apply_bytes_rows (a : Nat) (bs : List Nat) : (s.apply (.bytes a bs)).rows = s.rows := rfl
@[simp] theorem State.apply_bytes_spring (a : Nat) (bs : List Nat) : (s.apply (.bytes a bs)).spring = s.spring := rfl
@[simp] theorem State.apply_bytes_silt (a : Nat) (bs : List Nat) : (s.apply (.bytes a bs)).silt = s.silt := rfl
@[simp] theorem State.apply_bytes_emb (a : Nat) (bs : List Nat) : (s.apply (.bytes a bs)).emb = s.emb := rfl
@[simp] theorem State.apply_bytes_kv (a : Nat) (bs : List Nat) : (s.apply (.bytes a bs)).kv = s.kv := rfl
@[simp] theorem State.apply_bytes_coll (a : Nat) (bs : List Nat) : (s.apply (.bytes a bs)).coll = s.coll := rfl
@[simp] theorem State.apply_bytes_fmp (a : Nat) (bs : List Nat) : (s.apply (.bytes a bs)).fmp = s.fmp := rfl
@[simp] theorem State.apply_bytes_boot (a : Nat) (bs : List Nat) : (s.apply (.bytes a bs)).boot = s.boot := rfl
@[simp] theorem State.apply_bytes_out (a : Nat) (bs : List Nat) : (s.apply (.bytes a bs)).out = s.out := rfl
@[simp] theorem State.apply_bytes_pending (a : Nat) (bs : List Nat) : (s.apply (.bytes a bs)).pending = s.pending := rfl
@[simp] theorem State.apply_bytes_get (a : Nat) (bs : List Nat) (g : Fld) (j : Nat) : (s.apply (.bytes a bs)).get g j = s.get g j := rfl
@[simp] theorem State.apply_bytes_gvar (a : Nat) (bs : List Nat) (g : Var) (j : Nat) : (s.apply (.bytes a bs)).var g j = s.var g j := rfl
@[simp] theorem State.apply_fill_regs (a n : Nat) (v : BitVec 8) : (s.apply (.fill a n v)).regs = s.regs := rfl
@[simp] theorem State.apply_fill_shadows (a n : Nat) (v : BitVec 8) : (s.apply (.fill a n v)).shadows = s.shadows := rfl
@[simp] theorem State.apply_fill_vars (a n : Nat) (v : BitVec 8) : (s.apply (.fill a n v)).vars = s.vars := rfl
@[simp] theorem State.apply_fill_queues (a n : Nat) (v : BitVec 8) : (s.apply (.fill a n v)).queues = s.queues := rfl
@[simp] theorem State.apply_fill_slices (a n : Nat) (v : BitVec 8) : (s.apply (.fill a n v)).slices = s.slices := rfl
@[simp] theorem State.apply_fill_cells (a n : Nat) (v : BitVec 8) : (s.apply (.fill a n v)).cells = s.cells := rfl
@[simp] theorem State.apply_fill_logs (a n : Nat) (v : BitVec 8) : (s.apply (.fill a n v)).logs = s.logs := rfl
@[simp] theorem State.apply_fill_clay (a n : Nat) (v : BitVec 8) : (s.apply (.fill a n v)).clay = s.clay := rfl
@[simp] theorem State.apply_fill_xport (a n : Nat) (v : BitVec 8) : (s.apply (.fill a n v)).xport = s.xport := rfl
@[simp] theorem State.apply_fill_rows (a n : Nat) (v : BitVec 8) : (s.apply (.fill a n v)).rows = s.rows := rfl
@[simp] theorem State.apply_fill_spring (a n : Nat) (v : BitVec 8) : (s.apply (.fill a n v)).spring = s.spring := rfl
@[simp] theorem State.apply_fill_silt (a n : Nat) (v : BitVec 8) : (s.apply (.fill a n v)).silt = s.silt := rfl
@[simp] theorem State.apply_fill_emb (a n : Nat) (v : BitVec 8) : (s.apply (.fill a n v)).emb = s.emb := rfl
@[simp] theorem State.apply_fill_kv (a n : Nat) (v : BitVec 8) : (s.apply (.fill a n v)).kv = s.kv := rfl
@[simp] theorem State.apply_fill_coll (a n : Nat) (v : BitVec 8) : (s.apply (.fill a n v)).coll = s.coll := rfl
@[simp] theorem State.apply_fill_fmp (a n : Nat) (v : BitVec 8) : (s.apply (.fill a n v)).fmp = s.fmp := rfl
@[simp] theorem State.apply_fill_boot (a n : Nat) (v : BitVec 8) : (s.apply (.fill a n v)).boot = s.boot := rfl
@[simp] theorem State.apply_fill_out (a n : Nat) (v : BitVec 8) : (s.apply (.fill a n v)).out = s.out := rfl
@[simp] theorem State.apply_fill_pending (a n : Nat) (v : BitVec 8) : (s.apply (.fill a n v)).pending = s.pending := rfl
@[simp] theorem State.apply_fill_get (a n : Nat) (v : BitVec 8) (g : Fld) (j : Nat) : (s.apply (.fill a n v)).get g j = s.get g j := rfl
@[simp] theorem State.apply_fill_gvar (a n : Nat) (v : BitVec 8) (g : Var) (j : Nat) : (s.apply (.fill a n v)).var g j = s.var g j := rfl
@[simp] theorem State.apply_unitErr_regs (u e : Nat) : (s.apply (.unitErr u e)).regs = s.regs := rfl
@[simp] theorem State.apply_unitErr_shadows (u e : Nat) : (s.apply (.unitErr u e)).shadows = s.shadows := rfl
@[simp] theorem State.apply_unitErr_vars (u e : Nat) : (s.apply (.unitErr u e)).vars = s.vars := rfl
@[simp] theorem State.apply_unitErr_mem (u e : Nat) : (s.apply (.unitErr u e)).mem = s.mem := rfl
@[simp] theorem State.apply_unitErr_queues (u e : Nat) : (s.apply (.unitErr u e)).queues = s.queues := rfl
@[simp] theorem State.apply_unitErr_slices (u e : Nat) : (s.apply (.unitErr u e)).slices = s.slices := rfl
@[simp] theorem State.apply_unitErr_cells (u e : Nat) : (s.apply (.unitErr u e)).cells = s.cells := rfl
@[simp] theorem State.apply_unitErr_logs (u e : Nat) : (s.apply (.unitErr u e)).logs = s.logs := rfl
@[simp] theorem State.apply_unitErr_clay (u e : Nat) : (s.apply (.unitErr u e)).clay = s.clay := rfl
@[simp] theorem State.apply_unitErr_xport (u e : Nat) : (s.apply (.unitErr u e)).xport = s.xport := rfl
@[simp] theorem State.apply_unitErr_rows (u e : Nat) : (s.apply (.unitErr u e)).rows = s.rows := rfl
@[simp] theorem State.apply_unitErr_spring (u e : Nat) : (s.apply (.unitErr u e)).spring = s.spring := rfl
@[simp] theorem State.apply_unitErr_silt (u e : Nat) : (s.apply (.unitErr u e)).silt = s.silt := rfl
@[simp] theorem State.apply_unitErr_emb (u e : Nat) : (s.apply (.unitErr u e)).emb = s.emb := rfl
@[simp] theorem State.apply_unitErr_kv (u e : Nat) : (s.apply (.unitErr u e)).kv = s.kv := rfl
@[simp] theorem State.apply_unitErr_coll (u e : Nat) : (s.apply (.unitErr u e)).coll = s.coll := rfl
@[simp] theorem State.apply_unitErr_fmp (u e : Nat) : (s.apply (.unitErr u e)).fmp = s.fmp := rfl
@[simp] theorem State.apply_unitErr_boot (u e : Nat) : (s.apply (.unitErr u e)).boot = s.boot := rfl
@[simp] theorem State.apply_unitErr_out (u e : Nat) : (s.apply (.unitErr u e)).out = s.out := rfl
@[simp] theorem State.apply_unitErr_pending (u e : Nat) : (s.apply (.unitErr u e)).pending = s.pending := rfl
@[simp] theorem State.apply_unitErr_get (u e : Nat) (g : Fld) (j : Nat) : (s.apply (.unitErr u e)).get g j = s.get g j := rfl
@[simp] theorem State.apply_unitErr_gvar (u e : Nat) (g : Var) (j : Nat) : (s.apply (.unitErr u e)).var g j = s.var g j := rfl
@[simp] theorem State.apply_unitErr_byteAt (u e : Nat) (a : Nat) : (s.apply (.unitErr u e)).byteAt a = s.byteAt a := rfl
@[simp] theorem State.apply_queue_regs (q : Nat) (op : QOp) : (s.apply (.queue q op)).regs = s.regs := rfl
@[simp] theorem State.apply_queue_shadows (q : Nat) (op : QOp) : (s.apply (.queue q op)).shadows = s.shadows := rfl
@[simp] theorem State.apply_queue_vars (q : Nat) (op : QOp) : (s.apply (.queue q op)).vars = s.vars := rfl
@[simp] theorem State.apply_queue_mem (q : Nat) (op : QOp) : (s.apply (.queue q op)).mem = s.mem := rfl
@[simp] theorem State.apply_queue_unitErr (q : Nat) (op : QOp) : (s.apply (.queue q op)).unitErr = s.unitErr := rfl
@[simp] theorem State.apply_queue_slices (q : Nat) (op : QOp) : (s.apply (.queue q op)).slices = s.slices := rfl
@[simp] theorem State.apply_queue_cells (q : Nat) (op : QOp) : (s.apply (.queue q op)).cells = s.cells := rfl
@[simp] theorem State.apply_queue_logs (q : Nat) (op : QOp) : (s.apply (.queue q op)).logs = s.logs := rfl
@[simp] theorem State.apply_queue_clay (q : Nat) (op : QOp) : (s.apply (.queue q op)).clay = s.clay := rfl
@[simp] theorem State.apply_queue_xport (q : Nat) (op : QOp) : (s.apply (.queue q op)).xport = s.xport := rfl
@[simp] theorem State.apply_queue_rows (q : Nat) (op : QOp) : (s.apply (.queue q op)).rows = s.rows := rfl
@[simp] theorem State.apply_queue_spring (q : Nat) (op : QOp) : (s.apply (.queue q op)).spring = s.spring := rfl
@[simp] theorem State.apply_queue_silt (q : Nat) (op : QOp) : (s.apply (.queue q op)).silt = s.silt := rfl
@[simp] theorem State.apply_queue_emb (q : Nat) (op : QOp) : (s.apply (.queue q op)).emb = s.emb := rfl
@[simp] theorem State.apply_queue_kv (q : Nat) (op : QOp) : (s.apply (.queue q op)).kv = s.kv := rfl
@[simp] theorem State.apply_queue_coll (q : Nat) (op : QOp) : (s.apply (.queue q op)).coll = s.coll := rfl
@[simp] theorem State.apply_queue_fmp (q : Nat) (op : QOp) : (s.apply (.queue q op)).fmp = s.fmp := rfl
@[simp] theorem State.apply_queue_boot (q : Nat) (op : QOp) : (s.apply (.queue q op)).boot = s.boot := rfl
@[simp] theorem State.apply_queue_out (q : Nat) (op : QOp) : (s.apply (.queue q op)).out = s.out := rfl
@[simp] theorem State.apply_queue_pending (q : Nat) (op : QOp) : (s.apply (.queue q op)).pending = s.pending := rfl
@[simp] theorem State.apply_queue_get (q : Nat) (op : QOp) (g : Fld) (j : Nat) : (s.apply (.queue q op)).get g j = s.get g j := rfl
@[simp] theorem State.apply_queue_gvar (q : Nat) (op : QOp) (g : Var) (j : Nat) : (s.apply (.queue q op)).var g j = s.var g j := rfl
@[simp] theorem State.apply_queue_byteAt (q : Nat) (op : QOp) (a : Nat) : (s.apply (.queue q op)).byteAt a = s.byteAt a := rfl
@[simp] theorem State.apply_slices_regs (f : List Slice → List Slice) : (s.apply (.slices f)).regs = s.regs := rfl
@[simp] theorem State.apply_slices_shadows (f : List Slice → List Slice) : (s.apply (.slices f)).shadows = s.shadows := rfl
@[simp] theorem State.apply_slices_vars (f : List Slice → List Slice) : (s.apply (.slices f)).vars = s.vars := rfl
@[simp] theorem State.apply_slices_mem (f : List Slice → List Slice) : (s.apply (.slices f)).mem = s.mem := rfl
@[simp] theorem State.apply_slices_unitErr (f : List Slice → List Slice) : (s.apply (.slices f)).unitErr = s.unitErr := rfl
@[simp] theorem State.apply_slices_queues (f : List Slice → List Slice) : (s.apply (.slices f)).queues = s.queues := rfl
@[simp] theorem State.apply_slices_cells (f : List Slice → List Slice) : (s.apply (.slices f)).cells = s.cells := rfl
@[simp] theorem State.apply_slices_logs (f : List Slice → List Slice) : (s.apply (.slices f)).logs = s.logs := rfl
@[simp] theorem State.apply_slices_clay (f : List Slice → List Slice) : (s.apply (.slices f)).clay = s.clay := rfl
@[simp] theorem State.apply_slices_xport (f : List Slice → List Slice) : (s.apply (.slices f)).xport = s.xport := rfl
@[simp] theorem State.apply_slices_rows (f : List Slice → List Slice) : (s.apply (.slices f)).rows = s.rows := rfl
@[simp] theorem State.apply_slices_spring (f : List Slice → List Slice) : (s.apply (.slices f)).spring = s.spring := rfl
@[simp] theorem State.apply_slices_silt (f : List Slice → List Slice) : (s.apply (.slices f)).silt = s.silt := rfl
@[simp] theorem State.apply_slices_emb (f : List Slice → List Slice) : (s.apply (.slices f)).emb = s.emb := rfl
@[simp] theorem State.apply_slices_kv (f : List Slice → List Slice) : (s.apply (.slices f)).kv = s.kv := rfl
@[simp] theorem State.apply_slices_coll (f : List Slice → List Slice) : (s.apply (.slices f)).coll = s.coll := rfl
@[simp] theorem State.apply_slices_fmp (f : List Slice → List Slice) : (s.apply (.slices f)).fmp = s.fmp := rfl
@[simp] theorem State.apply_slices_boot (f : List Slice → List Slice) : (s.apply (.slices f)).boot = s.boot := rfl
@[simp] theorem State.apply_slices_out (f : List Slice → List Slice) : (s.apply (.slices f)).out = s.out := rfl
@[simp] theorem State.apply_slices_pending (f : List Slice → List Slice) : (s.apply (.slices f)).pending = s.pending := rfl
@[simp] theorem State.apply_slices_get (f : List Slice → List Slice) (g : Fld) (j : Nat) : (s.apply (.slices f)).get g j = s.get g j := rfl
@[simp] theorem State.apply_slices_gvar (f : List Slice → List Slice) (g : Var) (j : Nat) : (s.apply (.slices f)).var g j = s.var g j := rfl
@[simp] theorem State.apply_slices_byteAt (f : List Slice → List Slice) (a : Nat) : (s.apply (.slices f)).byteAt a = s.byteAt a := rfl
@[simp] theorem State.apply_cells_regs (f : Cells → Cells) : (s.apply (.cells f)).regs = s.regs := rfl
@[simp] theorem State.apply_cells_shadows (f : Cells → Cells) : (s.apply (.cells f)).shadows = s.shadows := rfl
@[simp] theorem State.apply_cells_vars (f : Cells → Cells) : (s.apply (.cells f)).vars = s.vars := rfl
@[simp] theorem State.apply_cells_mem (f : Cells → Cells) : (s.apply (.cells f)).mem = s.mem := rfl
@[simp] theorem State.apply_cells_unitErr (f : Cells → Cells) : (s.apply (.cells f)).unitErr = s.unitErr := rfl
@[simp] theorem State.apply_cells_queues (f : Cells → Cells) : (s.apply (.cells f)).queues = s.queues := rfl
@[simp] theorem State.apply_cells_slices (f : Cells → Cells) : (s.apply (.cells f)).slices = s.slices := rfl
@[simp] theorem State.apply_cells_logs (f : Cells → Cells) : (s.apply (.cells f)).logs = s.logs := rfl
@[simp] theorem State.apply_cells_clay (f : Cells → Cells) : (s.apply (.cells f)).clay = s.clay := rfl
@[simp] theorem State.apply_cells_xport (f : Cells → Cells) : (s.apply (.cells f)).xport = s.xport := rfl
@[simp] theorem State.apply_cells_rows (f : Cells → Cells) : (s.apply (.cells f)).rows = s.rows := rfl
@[simp] theorem State.apply_cells_spring (f : Cells → Cells) : (s.apply (.cells f)).spring = s.spring := rfl
@[simp] theorem State.apply_cells_silt (f : Cells → Cells) : (s.apply (.cells f)).silt = s.silt := rfl
@[simp] theorem State.apply_cells_emb (f : Cells → Cells) : (s.apply (.cells f)).emb = s.emb := rfl
@[simp] theorem State.apply_cells_kv (f : Cells → Cells) : (s.apply (.cells f)).kv = s.kv := rfl
@[simp] theorem State.apply_cells_coll (f : Cells → Cells) : (s.apply (.cells f)).coll = s.coll := rfl
@[simp] theorem State.apply_cells_fmp (f : Cells → Cells) : (s.apply (.cells f)).fmp = s.fmp := rfl
@[simp] theorem State.apply_cells_boot (f : Cells → Cells) : (s.apply (.cells f)).boot = s.boot := rfl
@[simp] theorem State.apply_cells_out (f : Cells → Cells) : (s.apply (.cells f)).out = s.out := rfl
@[simp] theorem State.apply_cells_pending (f : Cells → Cells) : (s.apply (.cells f)).pending = s.pending := rfl
@[simp] theorem State.apply_cells_get (f : Cells → Cells) (g : Fld) (j : Nat) : (s.apply (.cells f)).get g j = s.get g j := rfl
@[simp] theorem State.apply_cells_gvar (f : Cells → Cells) (g : Var) (j : Nat) : (s.apply (.cells f)).var g j = s.var g j := rfl
@[simp] theorem State.apply_cells_byteAt (f : Cells → Cells) (a : Nat) : (s.apply (.cells f)).byteAt a = s.byteAt a := rfl
@[simp] theorem State.apply_logs_regs (f : Logs → Logs) : (s.apply (.logs f)).regs = s.regs := rfl
@[simp] theorem State.apply_logs_shadows (f : Logs → Logs) : (s.apply (.logs f)).shadows = s.shadows := rfl
@[simp] theorem State.apply_logs_vars (f : Logs → Logs) : (s.apply (.logs f)).vars = s.vars := rfl
@[simp] theorem State.apply_logs_mem (f : Logs → Logs) : (s.apply (.logs f)).mem = s.mem := rfl
@[simp] theorem State.apply_logs_unitErr (f : Logs → Logs) : (s.apply (.logs f)).unitErr = s.unitErr := rfl
@[simp] theorem State.apply_logs_queues (f : Logs → Logs) : (s.apply (.logs f)).queues = s.queues := rfl
@[simp] theorem State.apply_logs_slices (f : Logs → Logs) : (s.apply (.logs f)).slices = s.slices := rfl
@[simp] theorem State.apply_logs_cells (f : Logs → Logs) : (s.apply (.logs f)).cells = s.cells := rfl
@[simp] theorem State.apply_logs_clay (f : Logs → Logs) : (s.apply (.logs f)).clay = s.clay := rfl
@[simp] theorem State.apply_logs_xport (f : Logs → Logs) : (s.apply (.logs f)).xport = s.xport := rfl
@[simp] theorem State.apply_logs_rows (f : Logs → Logs) : (s.apply (.logs f)).rows = s.rows := rfl
@[simp] theorem State.apply_logs_spring (f : Logs → Logs) : (s.apply (.logs f)).spring = s.spring := rfl
@[simp] theorem State.apply_logs_silt (f : Logs → Logs) : (s.apply (.logs f)).silt = s.silt := rfl
@[simp] theorem State.apply_logs_emb (f : Logs → Logs) : (s.apply (.logs f)).emb = s.emb := rfl
@[simp] theorem State.apply_logs_kv (f : Logs → Logs) : (s.apply (.logs f)).kv = s.kv := rfl
@[simp] theorem State.apply_logs_coll (f : Logs → Logs) : (s.apply (.logs f)).coll = s.coll := rfl
@[simp] theorem State.apply_logs_fmp (f : Logs → Logs) : (s.apply (.logs f)).fmp = s.fmp := rfl
@[simp] theorem State.apply_logs_boot (f : Logs → Logs) : (s.apply (.logs f)).boot = s.boot := rfl
@[simp] theorem State.apply_logs_out (f : Logs → Logs) : (s.apply (.logs f)).out = s.out := rfl
@[simp] theorem State.apply_logs_pending (f : Logs → Logs) : (s.apply (.logs f)).pending = s.pending := rfl
@[simp] theorem State.apply_logs_get (f : Logs → Logs) (g : Fld) (j : Nat) : (s.apply (.logs f)).get g j = s.get g j := rfl
@[simp] theorem State.apply_logs_gvar (f : Logs → Logs) (g : Var) (j : Nat) : (s.apply (.logs f)).var g j = s.var g j := rfl
@[simp] theorem State.apply_logs_byteAt (f : Logs → Logs) (a : Nat) : (s.apply (.logs f)).byteAt a = s.byteAt a := rfl
@[simp] theorem State.apply_clay_regs (f : Clay → Clay) : (s.apply (.clay f)).regs = s.regs := rfl
@[simp] theorem State.apply_clay_shadows (f : Clay → Clay) : (s.apply (.clay f)).shadows = s.shadows := rfl
@[simp] theorem State.apply_clay_vars (f : Clay → Clay) : (s.apply (.clay f)).vars = s.vars := rfl
@[simp] theorem State.apply_clay_mem (f : Clay → Clay) : (s.apply (.clay f)).mem = s.mem := rfl
@[simp] theorem State.apply_clay_unitErr (f : Clay → Clay) : (s.apply (.clay f)).unitErr = s.unitErr := rfl
@[simp] theorem State.apply_clay_queues (f : Clay → Clay) : (s.apply (.clay f)).queues = s.queues := rfl
@[simp] theorem State.apply_clay_slices (f : Clay → Clay) : (s.apply (.clay f)).slices = s.slices := rfl
@[simp] theorem State.apply_clay_cells (f : Clay → Clay) : (s.apply (.clay f)).cells = s.cells := rfl
@[simp] theorem State.apply_clay_logs (f : Clay → Clay) : (s.apply (.clay f)).logs = s.logs := rfl
@[simp] theorem State.apply_clay_xport (f : Clay → Clay) : (s.apply (.clay f)).xport = s.xport := rfl
@[simp] theorem State.apply_clay_rows (f : Clay → Clay) : (s.apply (.clay f)).rows = s.rows := rfl
@[simp] theorem State.apply_clay_spring (f : Clay → Clay) : (s.apply (.clay f)).spring = s.spring := rfl
@[simp] theorem State.apply_clay_silt (f : Clay → Clay) : (s.apply (.clay f)).silt = s.silt := rfl
@[simp] theorem State.apply_clay_emb (f : Clay → Clay) : (s.apply (.clay f)).emb = s.emb := rfl
@[simp] theorem State.apply_clay_kv (f : Clay → Clay) : (s.apply (.clay f)).kv = s.kv := rfl
@[simp] theorem State.apply_clay_coll (f : Clay → Clay) : (s.apply (.clay f)).coll = s.coll := rfl
@[simp] theorem State.apply_clay_fmp (f : Clay → Clay) : (s.apply (.clay f)).fmp = s.fmp := rfl
@[simp] theorem State.apply_clay_boot (f : Clay → Clay) : (s.apply (.clay f)).boot = s.boot := rfl
@[simp] theorem State.apply_clay_out (f : Clay → Clay) : (s.apply (.clay f)).out = s.out := rfl
@[simp] theorem State.apply_clay_pending (f : Clay → Clay) : (s.apply (.clay f)).pending = s.pending := rfl
@[simp] theorem State.apply_clay_get (f : Clay → Clay) (g : Fld) (j : Nat) : (s.apply (.clay f)).get g j = s.get g j := rfl
@[simp] theorem State.apply_clay_gvar (f : Clay → Clay) (g : Var) (j : Nat) : (s.apply (.clay f)).var g j = s.var g j := rfl
@[simp] theorem State.apply_clay_byteAt (f : Clay → Clay) (a : Nat) : (s.apply (.clay f)).byteAt a = s.byteAt a := rfl
@[simp] theorem State.apply_xport_regs (f : Xport → Xport) : (s.apply (.xport f)).regs = s.regs := rfl
@[simp] theorem State.apply_xport_shadows (f : Xport → Xport) : (s.apply (.xport f)).shadows = s.shadows := rfl
@[simp] theorem State.apply_xport_vars (f : Xport → Xport) : (s.apply (.xport f)).vars = s.vars := rfl
@[simp] theorem State.apply_xport_mem (f : Xport → Xport) : (s.apply (.xport f)).mem = s.mem := rfl
@[simp] theorem State.apply_xport_unitErr (f : Xport → Xport) : (s.apply (.xport f)).unitErr = s.unitErr := rfl
@[simp] theorem State.apply_xport_queues (f : Xport → Xport) : (s.apply (.xport f)).queues = s.queues := rfl
@[simp] theorem State.apply_xport_slices (f : Xport → Xport) : (s.apply (.xport f)).slices = s.slices := rfl
@[simp] theorem State.apply_xport_cells (f : Xport → Xport) : (s.apply (.xport f)).cells = s.cells := rfl
@[simp] theorem State.apply_xport_logs (f : Xport → Xport) : (s.apply (.xport f)).logs = s.logs := rfl
@[simp] theorem State.apply_xport_clay (f : Xport → Xport) : (s.apply (.xport f)).clay = s.clay := rfl
@[simp] theorem State.apply_xport_rows (f : Xport → Xport) : (s.apply (.xport f)).rows = s.rows := rfl
@[simp] theorem State.apply_xport_spring (f : Xport → Xport) : (s.apply (.xport f)).spring = s.spring := rfl
@[simp] theorem State.apply_xport_silt (f : Xport → Xport) : (s.apply (.xport f)).silt = s.silt := rfl
@[simp] theorem State.apply_xport_emb (f : Xport → Xport) : (s.apply (.xport f)).emb = s.emb := rfl
@[simp] theorem State.apply_xport_kv (f : Xport → Xport) : (s.apply (.xport f)).kv = s.kv := rfl
@[simp] theorem State.apply_xport_coll (f : Xport → Xport) : (s.apply (.xport f)).coll = s.coll := rfl
@[simp] theorem State.apply_xport_fmp (f : Xport → Xport) : (s.apply (.xport f)).fmp = s.fmp := rfl
@[simp] theorem State.apply_xport_boot (f : Xport → Xport) : (s.apply (.xport f)).boot = s.boot := rfl
@[simp] theorem State.apply_xport_out (f : Xport → Xport) : (s.apply (.xport f)).out = s.out := rfl
@[simp] theorem State.apply_xport_pending (f : Xport → Xport) : (s.apply (.xport f)).pending = s.pending := rfl
@[simp] theorem State.apply_xport_get (f : Xport → Xport) (g : Fld) (j : Nat) : (s.apply (.xport f)).get g j = s.get g j := rfl
@[simp] theorem State.apply_xport_gvar (f : Xport → Xport) (g : Var) (j : Nat) : (s.apply (.xport f)).var g j = s.var g j := rfl
@[simp] theorem State.apply_xport_byteAt (f : Xport → Xport) (a : Nat) : (s.apply (.xport f)).byteAt a = s.byteAt a := rfl
@[simp] theorem State.apply_rows_regs (f : Rows → Rows) : (s.apply (.rows f)).regs = s.regs := rfl
@[simp] theorem State.apply_rows_shadows (f : Rows → Rows) : (s.apply (.rows f)).shadows = s.shadows := rfl
@[simp] theorem State.apply_rows_vars (f : Rows → Rows) : (s.apply (.rows f)).vars = s.vars := rfl
@[simp] theorem State.apply_rows_mem (f : Rows → Rows) : (s.apply (.rows f)).mem = s.mem := rfl
@[simp] theorem State.apply_rows_unitErr (f : Rows → Rows) : (s.apply (.rows f)).unitErr = s.unitErr := rfl
@[simp] theorem State.apply_rows_queues (f : Rows → Rows) : (s.apply (.rows f)).queues = s.queues := rfl
@[simp] theorem State.apply_rows_slices (f : Rows → Rows) : (s.apply (.rows f)).slices = s.slices := rfl
@[simp] theorem State.apply_rows_cells (f : Rows → Rows) : (s.apply (.rows f)).cells = s.cells := rfl
@[simp] theorem State.apply_rows_logs (f : Rows → Rows) : (s.apply (.rows f)).logs = s.logs := rfl
@[simp] theorem State.apply_rows_clay (f : Rows → Rows) : (s.apply (.rows f)).clay = s.clay := rfl
@[simp] theorem State.apply_rows_xport (f : Rows → Rows) : (s.apply (.rows f)).xport = s.xport := rfl
@[simp] theorem State.apply_rows_spring (f : Rows → Rows) : (s.apply (.rows f)).spring = s.spring := rfl
@[simp] theorem State.apply_rows_silt (f : Rows → Rows) : (s.apply (.rows f)).silt = s.silt := rfl
@[simp] theorem State.apply_rows_emb (f : Rows → Rows) : (s.apply (.rows f)).emb = s.emb := rfl
@[simp] theorem State.apply_rows_kv (f : Rows → Rows) : (s.apply (.rows f)).kv = s.kv := rfl
@[simp] theorem State.apply_rows_coll (f : Rows → Rows) : (s.apply (.rows f)).coll = s.coll := rfl
@[simp] theorem State.apply_rows_fmp (f : Rows → Rows) : (s.apply (.rows f)).fmp = s.fmp := rfl
@[simp] theorem State.apply_rows_boot (f : Rows → Rows) : (s.apply (.rows f)).boot = s.boot := rfl
@[simp] theorem State.apply_rows_out (f : Rows → Rows) : (s.apply (.rows f)).out = s.out := rfl
@[simp] theorem State.apply_rows_pending (f : Rows → Rows) : (s.apply (.rows f)).pending = s.pending := rfl
@[simp] theorem State.apply_rows_get (f : Rows → Rows) (g : Fld) (j : Nat) : (s.apply (.rows f)).get g j = s.get g j := rfl
@[simp] theorem State.apply_rows_gvar (f : Rows → Rows) (g : Var) (j : Nat) : (s.apply (.rows f)).var g j = s.var g j := rfl
@[simp] theorem State.apply_rows_byteAt (f : Rows → Rows) (a : Nat) : (s.apply (.rows f)).byteAt a = s.byteAt a := rfl
@[simp] theorem State.apply_spring_regs (f : Spring → Spring) : (s.apply (.spring f)).regs = s.regs := rfl
@[simp] theorem State.apply_spring_shadows (f : Spring → Spring) : (s.apply (.spring f)).shadows = s.shadows := rfl
@[simp] theorem State.apply_spring_vars (f : Spring → Spring) : (s.apply (.spring f)).vars = s.vars := rfl
@[simp] theorem State.apply_spring_mem (f : Spring → Spring) : (s.apply (.spring f)).mem = s.mem := rfl
@[simp] theorem State.apply_spring_unitErr (f : Spring → Spring) : (s.apply (.spring f)).unitErr = s.unitErr := rfl
@[simp] theorem State.apply_spring_queues (f : Spring → Spring) : (s.apply (.spring f)).queues = s.queues := rfl
@[simp] theorem State.apply_spring_slices (f : Spring → Spring) : (s.apply (.spring f)).slices = s.slices := rfl
@[simp] theorem State.apply_spring_cells (f : Spring → Spring) : (s.apply (.spring f)).cells = s.cells := rfl
@[simp] theorem State.apply_spring_logs (f : Spring → Spring) : (s.apply (.spring f)).logs = s.logs := rfl
@[simp] theorem State.apply_spring_clay (f : Spring → Spring) : (s.apply (.spring f)).clay = s.clay := rfl
@[simp] theorem State.apply_spring_xport (f : Spring → Spring) : (s.apply (.spring f)).xport = s.xport := rfl
@[simp] theorem State.apply_spring_rows (f : Spring → Spring) : (s.apply (.spring f)).rows = s.rows := rfl
@[simp] theorem State.apply_spring_silt (f : Spring → Spring) : (s.apply (.spring f)).silt = s.silt := rfl
@[simp] theorem State.apply_spring_emb (f : Spring → Spring) : (s.apply (.spring f)).emb = s.emb := rfl
@[simp] theorem State.apply_spring_kv (f : Spring → Spring) : (s.apply (.spring f)).kv = s.kv := rfl
@[simp] theorem State.apply_spring_coll (f : Spring → Spring) : (s.apply (.spring f)).coll = s.coll := rfl
@[simp] theorem State.apply_spring_fmp (f : Spring → Spring) : (s.apply (.spring f)).fmp = s.fmp := rfl
@[simp] theorem State.apply_spring_boot (f : Spring → Spring) : (s.apply (.spring f)).boot = s.boot := rfl
@[simp] theorem State.apply_spring_out (f : Spring → Spring) : (s.apply (.spring f)).out = s.out := rfl
@[simp] theorem State.apply_spring_pending (f : Spring → Spring) : (s.apply (.spring f)).pending = s.pending := rfl
@[simp] theorem State.apply_spring_get (f : Spring → Spring) (g : Fld) (j : Nat) : (s.apply (.spring f)).get g j = s.get g j := rfl
@[simp] theorem State.apply_spring_gvar (f : Spring → Spring) (g : Var) (j : Nat) : (s.apply (.spring f)).var g j = s.var g j := rfl
@[simp] theorem State.apply_spring_byteAt (f : Spring → Spring) (a : Nat) : (s.apply (.spring f)).byteAt a = s.byteAt a := rfl
@[simp] theorem State.apply_silt_regs (f : Silt → Silt) : (s.apply (.silt f)).regs = s.regs := rfl
@[simp] theorem State.apply_silt_shadows (f : Silt → Silt) : (s.apply (.silt f)).shadows = s.shadows := rfl
@[simp] theorem State.apply_silt_vars (f : Silt → Silt) : (s.apply (.silt f)).vars = s.vars := rfl
@[simp] theorem State.apply_silt_mem (f : Silt → Silt) : (s.apply (.silt f)).mem = s.mem := rfl
@[simp] theorem State.apply_silt_unitErr (f : Silt → Silt) : (s.apply (.silt f)).unitErr = s.unitErr := rfl
@[simp] theorem State.apply_silt_queues (f : Silt → Silt) : (s.apply (.silt f)).queues = s.queues := rfl
@[simp] theorem State.apply_silt_slices (f : Silt → Silt) : (s.apply (.silt f)).slices = s.slices := rfl
@[simp] theorem State.apply_silt_cells (f : Silt → Silt) : (s.apply (.silt f)).cells = s.cells := rfl
@[simp] theorem State.apply_silt_logs (f : Silt → Silt) : (s.apply (.silt f)).logs = s.logs := rfl
@[simp] theorem State.apply_silt_clay (f : Silt → Silt) : (s.apply (.silt f)).clay = s.clay := rfl
@[simp] theorem State.apply_silt_xport (f : Silt → Silt) : (s.apply (.silt f)).xport = s.xport := rfl
@[simp] theorem State.apply_silt_rows (f : Silt → Silt) : (s.apply (.silt f)).rows = s.rows := rfl
@[simp] theorem State.apply_silt_spring (f : Silt → Silt) : (s.apply (.silt f)).spring = s.spring := rfl
@[simp] theorem State.apply_silt_emb (f : Silt → Silt) : (s.apply (.silt f)).emb = s.emb := rfl
@[simp] theorem State.apply_silt_kv (f : Silt → Silt) : (s.apply (.silt f)).kv = s.kv := rfl
@[simp] theorem State.apply_silt_coll (f : Silt → Silt) : (s.apply (.silt f)).coll = s.coll := rfl
@[simp] theorem State.apply_silt_fmp (f : Silt → Silt) : (s.apply (.silt f)).fmp = s.fmp := rfl
@[simp] theorem State.apply_silt_boot (f : Silt → Silt) : (s.apply (.silt f)).boot = s.boot := rfl
@[simp] theorem State.apply_silt_out (f : Silt → Silt) : (s.apply (.silt f)).out = s.out := rfl
@[simp] theorem State.apply_silt_pending (f : Silt → Silt) : (s.apply (.silt f)).pending = s.pending := rfl
@[simp] theorem State.apply_silt_get (f : Silt → Silt) (g : Fld) (j : Nat) : (s.apply (.silt f)).get g j = s.get g j := rfl
@[simp] theorem State.apply_silt_gvar (f : Silt → Silt) (g : Var) (j : Nat) : (s.apply (.silt f)).var g j = s.var g j := rfl
@[simp] theorem State.apply_silt_byteAt (f : Silt → Silt) (a : Nat) : (s.apply (.silt f)).byteAt a = s.byteAt a := rfl
@[simp] theorem State.apply_emb_regs (f : Emb → Emb) : (s.apply (.emb f)).regs = s.regs := rfl
@[simp] theorem State.apply_emb_shadows (f : Emb → Emb) : (s.apply (.emb f)).shadows = s.shadows := rfl
@[simp] theorem State.apply_emb_vars (f : Emb → Emb) : (s.apply (.emb f)).vars = s.vars := rfl
@[simp] theorem State.apply_emb_mem (f : Emb → Emb) : (s.apply (.emb f)).mem = s.mem := rfl
@[simp] theorem State.apply_emb_unitErr (f : Emb → Emb) : (s.apply (.emb f)).unitErr = s.unitErr := rfl
@[simp] theorem State.apply_emb_queues (f : Emb → Emb) : (s.apply (.emb f)).queues = s.queues := rfl
@[simp] theorem State.apply_emb_slices (f : Emb → Emb) : (s.apply (.emb f)).slices = s.slices := rfl
@[simp] theorem State.apply_emb_cells (f : Emb → Emb) : (s.apply (.emb f)).cells = s.cells := rfl
@[simp] theorem State.apply_emb_logs (f : Emb → Emb) : (s.apply (.emb f)).logs = s.logs := rfl
@[simp] theorem State.apply_emb_clay (f : Emb → Emb) : (s.apply (.emb f)).clay = s.clay := rfl
@[simp] theorem State.apply_emb_xport (f : Emb → Emb) : (s.apply (.emb f)).xport = s.xport := rfl
@[simp] theorem State.apply_emb_rows (f : Emb → Emb) : (s.apply (.emb f)).rows = s.rows := rfl
@[simp] theorem State.apply_emb_spring (f : Emb → Emb) : (s.apply (.emb f)).spring = s.spring := rfl
@[simp] theorem State.apply_emb_silt (f : Emb → Emb) : (s.apply (.emb f)).silt = s.silt := rfl
@[simp] theorem State.apply_emb_kv (f : Emb → Emb) : (s.apply (.emb f)).kv = s.kv := rfl
@[simp] theorem State.apply_emb_coll (f : Emb → Emb) : (s.apply (.emb f)).coll = s.coll := rfl
@[simp] theorem State.apply_emb_fmp (f : Emb → Emb) : (s.apply (.emb f)).fmp = s.fmp := rfl
@[simp] theorem State.apply_emb_boot (f : Emb → Emb) : (s.apply (.emb f)).boot = s.boot := rfl
@[simp] theorem State.apply_emb_out (f : Emb → Emb) : (s.apply (.emb f)).out = s.out := rfl
@[simp] theorem State.apply_emb_pending (f : Emb → Emb) : (s.apply (.emb f)).pending = s.pending := rfl
@[simp] theorem State.apply_emb_get (f : Emb → Emb) (g : Fld) (j : Nat) : (s.apply (.emb f)).get g j = s.get g j := rfl
@[simp] theorem State.apply_emb_gvar (f : Emb → Emb) (g : Var) (j : Nat) : (s.apply (.emb f)).var g j = s.var g j := rfl
@[simp] theorem State.apply_emb_byteAt (f : Emb → Emb) (a : Nat) : (s.apply (.emb f)).byteAt a = s.byteAt a := rfl
@[simp] theorem State.apply_kv_regs (f : Kv → Kv) : (s.apply (.kv f)).regs = s.regs := rfl
@[simp] theorem State.apply_kv_shadows (f : Kv → Kv) : (s.apply (.kv f)).shadows = s.shadows := rfl
@[simp] theorem State.apply_kv_vars (f : Kv → Kv) : (s.apply (.kv f)).vars = s.vars := rfl
@[simp] theorem State.apply_kv_mem (f : Kv → Kv) : (s.apply (.kv f)).mem = s.mem := rfl
@[simp] theorem State.apply_kv_unitErr (f : Kv → Kv) : (s.apply (.kv f)).unitErr = s.unitErr := rfl
@[simp] theorem State.apply_kv_queues (f : Kv → Kv) : (s.apply (.kv f)).queues = s.queues := rfl
@[simp] theorem State.apply_kv_slices (f : Kv → Kv) : (s.apply (.kv f)).slices = s.slices := rfl
@[simp] theorem State.apply_kv_cells (f : Kv → Kv) : (s.apply (.kv f)).cells = s.cells := rfl
@[simp] theorem State.apply_kv_logs (f : Kv → Kv) : (s.apply (.kv f)).logs = s.logs := rfl
@[simp] theorem State.apply_kv_clay (f : Kv → Kv) : (s.apply (.kv f)).clay = s.clay := rfl
@[simp] theorem State.apply_kv_xport (f : Kv → Kv) : (s.apply (.kv f)).xport = s.xport := rfl
@[simp] theorem State.apply_kv_rows (f : Kv → Kv) : (s.apply (.kv f)).rows = s.rows := rfl
@[simp] theorem State.apply_kv_spring (f : Kv → Kv) : (s.apply (.kv f)).spring = s.spring := rfl
@[simp] theorem State.apply_kv_silt (f : Kv → Kv) : (s.apply (.kv f)).silt = s.silt := rfl
@[simp] theorem State.apply_kv_emb (f : Kv → Kv) : (s.apply (.kv f)).emb = s.emb := rfl
@[simp] theorem State.apply_kv_coll (f : Kv → Kv) : (s.apply (.kv f)).coll = s.coll := rfl
@[simp] theorem State.apply_kv_fmp (f : Kv → Kv) : (s.apply (.kv f)).fmp = s.fmp := rfl
@[simp] theorem State.apply_kv_boot (f : Kv → Kv) : (s.apply (.kv f)).boot = s.boot := rfl
@[simp] theorem State.apply_kv_out (f : Kv → Kv) : (s.apply (.kv f)).out = s.out := rfl
@[simp] theorem State.apply_kv_pending (f : Kv → Kv) : (s.apply (.kv f)).pending = s.pending := rfl
@[simp] theorem State.apply_kv_get (f : Kv → Kv) (g : Fld) (j : Nat) : (s.apply (.kv f)).get g j = s.get g j := rfl
@[simp] theorem State.apply_kv_gvar (f : Kv → Kv) (g : Var) (j : Nat) : (s.apply (.kv f)).var g j = s.var g j := rfl
@[simp] theorem State.apply_kv_byteAt (f : Kv → Kv) (a : Nat) : (s.apply (.kv f)).byteAt a = s.byteAt a := rfl
@[simp] theorem State.apply_coll_regs (f : Coll → Coll) : (s.apply (.coll f)).regs = s.regs := rfl
@[simp] theorem State.apply_coll_shadows (f : Coll → Coll) : (s.apply (.coll f)).shadows = s.shadows := rfl
@[simp] theorem State.apply_coll_vars (f : Coll → Coll) : (s.apply (.coll f)).vars = s.vars := rfl
@[simp] theorem State.apply_coll_mem (f : Coll → Coll) : (s.apply (.coll f)).mem = s.mem := rfl
@[simp] theorem State.apply_coll_unitErr (f : Coll → Coll) : (s.apply (.coll f)).unitErr = s.unitErr := rfl
@[simp] theorem State.apply_coll_queues (f : Coll → Coll) : (s.apply (.coll f)).queues = s.queues := rfl
@[simp] theorem State.apply_coll_slices (f : Coll → Coll) : (s.apply (.coll f)).slices = s.slices := rfl
@[simp] theorem State.apply_coll_cells (f : Coll → Coll) : (s.apply (.coll f)).cells = s.cells := rfl
@[simp] theorem State.apply_coll_logs (f : Coll → Coll) : (s.apply (.coll f)).logs = s.logs := rfl
@[simp] theorem State.apply_coll_clay (f : Coll → Coll) : (s.apply (.coll f)).clay = s.clay := rfl
@[simp] theorem State.apply_coll_xport (f : Coll → Coll) : (s.apply (.coll f)).xport = s.xport := rfl
@[simp] theorem State.apply_coll_rows (f : Coll → Coll) : (s.apply (.coll f)).rows = s.rows := rfl
@[simp] theorem State.apply_coll_spring (f : Coll → Coll) : (s.apply (.coll f)).spring = s.spring := rfl
@[simp] theorem State.apply_coll_silt (f : Coll → Coll) : (s.apply (.coll f)).silt = s.silt := rfl
@[simp] theorem State.apply_coll_emb (f : Coll → Coll) : (s.apply (.coll f)).emb = s.emb := rfl
@[simp] theorem State.apply_coll_kv (f : Coll → Coll) : (s.apply (.coll f)).kv = s.kv := rfl
@[simp] theorem State.apply_coll_fmp (f : Coll → Coll) : (s.apply (.coll f)).fmp = s.fmp := rfl
@[simp] theorem State.apply_coll_boot (f : Coll → Coll) : (s.apply (.coll f)).boot = s.boot := rfl
@[simp] theorem State.apply_coll_out (f : Coll → Coll) : (s.apply (.coll f)).out = s.out := rfl
@[simp] theorem State.apply_coll_pending (f : Coll → Coll) : (s.apply (.coll f)).pending = s.pending := rfl
@[simp] theorem State.apply_coll_get (f : Coll → Coll) (g : Fld) (j : Nat) : (s.apply (.coll f)).get g j = s.get g j := rfl
@[simp] theorem State.apply_coll_gvar (f : Coll → Coll) (g : Var) (j : Nat) : (s.apply (.coll f)).var g j = s.var g j := rfl
@[simp] theorem State.apply_coll_byteAt (f : Coll → Coll) (a : Nat) : (s.apply (.coll f)).byteAt a = s.byteAt a := rfl
@[simp] theorem State.apply_fmp_regs (f : Fmp → Fmp) : (s.apply (.fmp f)).regs = s.regs := rfl
@[simp] theorem State.apply_fmp_shadows (f : Fmp → Fmp) : (s.apply (.fmp f)).shadows = s.shadows := rfl
@[simp] theorem State.apply_fmp_vars (f : Fmp → Fmp) : (s.apply (.fmp f)).vars = s.vars := rfl
@[simp] theorem State.apply_fmp_mem (f : Fmp → Fmp) : (s.apply (.fmp f)).mem = s.mem := rfl
@[simp] theorem State.apply_fmp_unitErr (f : Fmp → Fmp) : (s.apply (.fmp f)).unitErr = s.unitErr := rfl
@[simp] theorem State.apply_fmp_queues (f : Fmp → Fmp) : (s.apply (.fmp f)).queues = s.queues := rfl
@[simp] theorem State.apply_fmp_slices (f : Fmp → Fmp) : (s.apply (.fmp f)).slices = s.slices := rfl
@[simp] theorem State.apply_fmp_cells (f : Fmp → Fmp) : (s.apply (.fmp f)).cells = s.cells := rfl
@[simp] theorem State.apply_fmp_logs (f : Fmp → Fmp) : (s.apply (.fmp f)).logs = s.logs := rfl
@[simp] theorem State.apply_fmp_clay (f : Fmp → Fmp) : (s.apply (.fmp f)).clay = s.clay := rfl
@[simp] theorem State.apply_fmp_xport (f : Fmp → Fmp) : (s.apply (.fmp f)).xport = s.xport := rfl
@[simp] theorem State.apply_fmp_rows (f : Fmp → Fmp) : (s.apply (.fmp f)).rows = s.rows := rfl
@[simp] theorem State.apply_fmp_spring (f : Fmp → Fmp) : (s.apply (.fmp f)).spring = s.spring := rfl
@[simp] theorem State.apply_fmp_silt (f : Fmp → Fmp) : (s.apply (.fmp f)).silt = s.silt := rfl
@[simp] theorem State.apply_fmp_emb (f : Fmp → Fmp) : (s.apply (.fmp f)).emb = s.emb := rfl
@[simp] theorem State.apply_fmp_kv (f : Fmp → Fmp) : (s.apply (.fmp f)).kv = s.kv := rfl
@[simp] theorem State.apply_fmp_coll (f : Fmp → Fmp) : (s.apply (.fmp f)).coll = s.coll := rfl
@[simp] theorem State.apply_fmp_boot (f : Fmp → Fmp) : (s.apply (.fmp f)).boot = s.boot := rfl
@[simp] theorem State.apply_fmp_out (f : Fmp → Fmp) : (s.apply (.fmp f)).out = s.out := rfl
@[simp] theorem State.apply_fmp_pending (f : Fmp → Fmp) : (s.apply (.fmp f)).pending = s.pending := rfl
@[simp] theorem State.apply_fmp_get (f : Fmp → Fmp) (g : Fld) (j : Nat) : (s.apply (.fmp f)).get g j = s.get g j := rfl
@[simp] theorem State.apply_fmp_gvar (f : Fmp → Fmp) (g : Var) (j : Nat) : (s.apply (.fmp f)).var g j = s.var g j := rfl
@[simp] theorem State.apply_fmp_byteAt (f : Fmp → Fmp) (a : Nat) : (s.apply (.fmp f)).byteAt a = s.byteAt a := rfl
@[simp] theorem State.apply_boot_regs (f : Boot → Boot) : (s.apply (.boot f)).regs = s.regs := rfl
@[simp] theorem State.apply_boot_shadows (f : Boot → Boot) : (s.apply (.boot f)).shadows = s.shadows := rfl
@[simp] theorem State.apply_boot_vars (f : Boot → Boot) : (s.apply (.boot f)).vars = s.vars := rfl
@[simp] theorem State.apply_boot_mem (f : Boot → Boot) : (s.apply (.boot f)).mem = s.mem := rfl
@[simp] theorem State.apply_boot_unitErr (f : Boot → Boot) : (s.apply (.boot f)).unitErr = s.unitErr := rfl
@[simp] theorem State.apply_boot_queues (f : Boot → Boot) : (s.apply (.boot f)).queues = s.queues := rfl
@[simp] theorem State.apply_boot_slices (f : Boot → Boot) : (s.apply (.boot f)).slices = s.slices := rfl
@[simp] theorem State.apply_boot_cells (f : Boot → Boot) : (s.apply (.boot f)).cells = s.cells := rfl
@[simp] theorem State.apply_boot_logs (f : Boot → Boot) : (s.apply (.boot f)).logs = s.logs := rfl
@[simp] theorem State.apply_boot_clay (f : Boot → Boot) : (s.apply (.boot f)).clay = s.clay := rfl
@[simp] theorem State.apply_boot_xport (f : Boot → Boot) : (s.apply (.boot f)).xport = s.xport := rfl
@[simp] theorem State.apply_boot_rows (f : Boot → Boot) : (s.apply (.boot f)).rows = s.rows := rfl
@[simp] theorem State.apply_boot_spring (f : Boot → Boot) : (s.apply (.boot f)).spring = s.spring := rfl
@[simp] theorem State.apply_boot_silt (f : Boot → Boot) : (s.apply (.boot f)).silt = s.silt := rfl
@[simp] theorem State.apply_boot_emb (f : Boot → Boot) : (s.apply (.boot f)).emb = s.emb := rfl
@[simp] theorem State.apply_boot_kv (f : Boot → Boot) : (s.apply (.boot f)).kv = s.kv := rfl
@[simp] theorem State.apply_boot_coll (f : Boot → Boot) : (s.apply (.boot f)).coll = s.coll := rfl
@[simp] theorem State.apply_boot_fmp (f : Boot → Boot) : (s.apply (.boot f)).fmp = s.fmp := rfl
@[simp] theorem State.apply_boot_out (f : Boot → Boot) : (s.apply (.boot f)).out = s.out := rfl
@[simp] theorem State.apply_boot_pending (f : Boot → Boot) : (s.apply (.boot f)).pending = s.pending := rfl
@[simp] theorem State.apply_boot_get (f : Boot → Boot) (g : Fld) (j : Nat) : (s.apply (.boot f)).get g j = s.get g j := rfl
@[simp] theorem State.apply_boot_gvar (f : Boot → Boot) (g : Var) (j : Nat) : (s.apply (.boot f)).var g j = s.var g j := rfl
@[simp] theorem State.apply_boot_byteAt (f : Boot → Boot) (a : Nat) : (s.apply (.boot f)).byteAt a = s.byteAt a := rfl
@[simp] theorem State.apply_keepRegs_vars (p : Nat → Bool) : (s.apply (.keepRegs p)).vars = s.vars := rfl
@[simp] theorem State.apply_keepRegs_mem (p : Nat → Bool) : (s.apply (.keepRegs p)).mem = s.mem := rfl
@[simp] theorem State.apply_keepRegs_unitErr (p : Nat → Bool) : (s.apply (.keepRegs p)).unitErr = s.unitErr := rfl
@[simp] theorem State.apply_keepRegs_queues (p : Nat → Bool) : (s.apply (.keepRegs p)).queues = s.queues := rfl
@[simp] theorem State.apply_keepRegs_slices (p : Nat → Bool) : (s.apply (.keepRegs p)).slices = s.slices := rfl
@[simp] theorem State.apply_keepRegs_cells (p : Nat → Bool) : (s.apply (.keepRegs p)).cells = s.cells := rfl
@[simp] theorem State.apply_keepRegs_logs (p : Nat → Bool) : (s.apply (.keepRegs p)).logs = s.logs := rfl
@[simp] theorem State.apply_keepRegs_clay (p : Nat → Bool) : (s.apply (.keepRegs p)).clay = s.clay := rfl
@[simp] theorem State.apply_keepRegs_xport (p : Nat → Bool) : (s.apply (.keepRegs p)).xport = s.xport := rfl
@[simp] theorem State.apply_keepRegs_rows (p : Nat → Bool) : (s.apply (.keepRegs p)).rows = s.rows := rfl
@[simp] theorem State.apply_keepRegs_spring (p : Nat → Bool) : (s.apply (.keepRegs p)).spring = s.spring := rfl
@[simp] theorem State.apply_keepRegs_silt (p : Nat → Bool) : (s.apply (.keepRegs p)).silt = s.silt := rfl
@[simp] theorem State.apply_keepRegs_emb (p : Nat → Bool) : (s.apply (.keepRegs p)).emb = s.emb := rfl
@[simp] theorem State.apply_keepRegs_kv (p : Nat → Bool) : (s.apply (.keepRegs p)).kv = s.kv := rfl
@[simp] theorem State.apply_keepRegs_coll (p : Nat → Bool) : (s.apply (.keepRegs p)).coll = s.coll := rfl
@[simp] theorem State.apply_keepRegs_fmp (p : Nat → Bool) : (s.apply (.keepRegs p)).fmp = s.fmp := rfl
@[simp] theorem State.apply_keepRegs_boot (p : Nat → Bool) : (s.apply (.keepRegs p)).boot = s.boot := rfl
@[simp] theorem State.apply_keepRegs_out (p : Nat → Bool) : (s.apply (.keepRegs p)).out = s.out := rfl
@[simp] theorem State.apply_keepRegs_pending (p : Nat → Bool) : (s.apply (.keepRegs p)).pending = s.pending := rfl
@[simp] theorem State.apply_keepRegs_gvar (p : Nat → Bool) (g : Var) (j : Nat) : (s.apply (.keepRegs p)).var g j = s.var g j := rfl
@[simp] theorem State.apply_keepRegs_byteAt (p : Nat → Bool) (a : Nat) : (s.apply (.keepRegs p)).byteAt a = s.byteAt a := rfl
@[simp] theorem State.apply_keepVars_regs (p : Nat → Bool) : (s.apply (.keepVars p)).regs = s.regs := rfl
@[simp] theorem State.apply_keepVars_shadows (p : Nat → Bool) : (s.apply (.keepVars p)).shadows = s.shadows := rfl
@[simp] theorem State.apply_keepVars_mem (p : Nat → Bool) : (s.apply (.keepVars p)).mem = s.mem := rfl
@[simp] theorem State.apply_keepVars_unitErr (p : Nat → Bool) : (s.apply (.keepVars p)).unitErr = s.unitErr := rfl
@[simp] theorem State.apply_keepVars_queues (p : Nat → Bool) : (s.apply (.keepVars p)).queues = s.queues := rfl
@[simp] theorem State.apply_keepVars_slices (p : Nat → Bool) : (s.apply (.keepVars p)).slices = s.slices := rfl
@[simp] theorem State.apply_keepVars_cells (p : Nat → Bool) : (s.apply (.keepVars p)).cells = s.cells := rfl
@[simp] theorem State.apply_keepVars_logs (p : Nat → Bool) : (s.apply (.keepVars p)).logs = s.logs := rfl
@[simp] theorem State.apply_keepVars_clay (p : Nat → Bool) : (s.apply (.keepVars p)).clay = s.clay := rfl
@[simp] theorem State.apply_keepVars_xport (p : Nat → Bool) : (s.apply (.keepVars p)).xport = s.xport := rfl
@[simp] theorem State.apply_keepVars_rows (p : Nat → Bool) : (s.apply (.keepVars p)).rows = s.rows := rfl
@[simp] theorem State.apply_keepVars_spring (p : Nat → Bool) : (s.apply (.keepVars p)).spring = s.spring := rfl
@[simp] theorem State.apply_keepVars_silt (p : Nat → Bool) : (s.apply (.keepVars p)).silt = s.silt := rfl
@[simp] theorem State.apply_keepVars_emb (p : Nat → Bool) : (s.apply (.keepVars p)).emb = s.emb := rfl
@[simp] theorem State.apply_keepVars_kv (p : Nat → Bool) : (s.apply (.keepVars p)).kv = s.kv := rfl
@[simp] theorem State.apply_keepVars_coll (p : Nat → Bool) : (s.apply (.keepVars p)).coll = s.coll := rfl
@[simp] theorem State.apply_keepVars_fmp (p : Nat → Bool) : (s.apply (.keepVars p)).fmp = s.fmp := rfl
@[simp] theorem State.apply_keepVars_boot (p : Nat → Bool) : (s.apply (.keepVars p)).boot = s.boot := rfl
@[simp] theorem State.apply_keepVars_out (p : Nat → Bool) : (s.apply (.keepVars p)).out = s.out := rfl
@[simp] theorem State.apply_keepVars_pending (p : Nat → Bool) : (s.apply (.keepVars p)).pending = s.pending := rfl
@[simp] theorem State.apply_keepVars_get (p : Nat → Bool) (g : Fld) (j : Nat) : (s.apply (.keepVars p)).get g j = s.get g j := rfl
@[simp] theorem State.apply_keepVars_byteAt (p : Nat → Bool) (a : Nat) : (s.apply (.keepVars p)).byteAt a = s.byteAt a := rfl
@[simp] theorem State.apply_keepMem_regs (p : Nat → Bool) : (s.apply (.keepMem p)).regs = s.regs := rfl
@[simp] theorem State.apply_keepMem_shadows (p : Nat → Bool) : (s.apply (.keepMem p)).shadows = s.shadows := rfl
@[simp] theorem State.apply_keepMem_vars (p : Nat → Bool) : (s.apply (.keepMem p)).vars = s.vars := rfl
@[simp] theorem State.apply_keepMem_queues (p : Nat → Bool) : (s.apply (.keepMem p)).queues = s.queues := rfl
@[simp] theorem State.apply_keepMem_slices (p : Nat → Bool) : (s.apply (.keepMem p)).slices = s.slices := rfl
@[simp] theorem State.apply_keepMem_cells (p : Nat → Bool) : (s.apply (.keepMem p)).cells = s.cells := rfl
@[simp] theorem State.apply_keepMem_logs (p : Nat → Bool) : (s.apply (.keepMem p)).logs = s.logs := rfl
@[simp] theorem State.apply_keepMem_clay (p : Nat → Bool) : (s.apply (.keepMem p)).clay = s.clay := rfl
@[simp] theorem State.apply_keepMem_xport (p : Nat → Bool) : (s.apply (.keepMem p)).xport = s.xport := rfl
@[simp] theorem State.apply_keepMem_rows (p : Nat → Bool) : (s.apply (.keepMem p)).rows = s.rows := rfl
@[simp] theorem State.apply_keepMem_spring (p : Nat → Bool) : (s.apply (.keepMem p)).spring = s.spring := rfl
@[simp] theorem State.apply_keepMem_silt (p : Nat → Bool) : (s.apply (.keepMem p)).silt = s.silt := rfl
@[simp] theorem State.apply_keepMem_emb (p : Nat → Bool) : (s.apply (.keepMem p)).emb = s.emb := rfl
@[simp] theorem State.apply_keepMem_kv (p : Nat → Bool) : (s.apply (.keepMem p)).kv = s.kv := rfl
@[simp] theorem State.apply_keepMem_coll (p : Nat → Bool) : (s.apply (.keepMem p)).coll = s.coll := rfl
@[simp] theorem State.apply_keepMem_fmp (p : Nat → Bool) : (s.apply (.keepMem p)).fmp = s.fmp := rfl
@[simp] theorem State.apply_keepMem_boot (p : Nat → Bool) : (s.apply (.keepMem p)).boot = s.boot := rfl
@[simp] theorem State.apply_keepMem_out (p : Nat → Bool) : (s.apply (.keepMem p)).out = s.out := rfl
@[simp] theorem State.apply_keepMem_pending (p : Nat → Bool) : (s.apply (.keepMem p)).pending = s.pending := rfl
@[simp] theorem State.apply_keepMem_get (p : Nat → Bool) (g : Fld) (j : Nat) : (s.apply (.keepMem p)).get g j = s.get g j := rfl
@[simp] theorem State.apply_keepMem_gvar (p : Nat → Bool) (g : Var) (j : Nat) : (s.apply (.keepMem p)).var g j = s.var g j := rfl
@[simp] theorem State.apply_dropQueues_regs : (s.apply (.dropQueues)).regs = s.regs := rfl
@[simp] theorem State.apply_dropQueues_shadows : (s.apply (.dropQueues)).shadows = s.shadows := rfl
@[simp] theorem State.apply_dropQueues_vars : (s.apply (.dropQueues)).vars = s.vars := rfl
@[simp] theorem State.apply_dropQueues_mem : (s.apply (.dropQueues)).mem = s.mem := rfl
@[simp] theorem State.apply_dropQueues_unitErr : (s.apply (.dropQueues)).unitErr = s.unitErr := rfl
@[simp] theorem State.apply_dropQueues_slices : (s.apply (.dropQueues)).slices = s.slices := rfl
@[simp] theorem State.apply_dropQueues_cells : (s.apply (.dropQueues)).cells = s.cells := rfl
@[simp] theorem State.apply_dropQueues_logs : (s.apply (.dropQueues)).logs = s.logs := rfl
@[simp] theorem State.apply_dropQueues_clay : (s.apply (.dropQueues)).clay = s.clay := rfl
@[simp] theorem State.apply_dropQueues_xport : (s.apply (.dropQueues)).xport = s.xport := rfl
@[simp] theorem State.apply_dropQueues_rows : (s.apply (.dropQueues)).rows = s.rows := rfl
@[simp] theorem State.apply_dropQueues_spring : (s.apply (.dropQueues)).spring = s.spring := rfl
@[simp] theorem State.apply_dropQueues_silt : (s.apply (.dropQueues)).silt = s.silt := rfl
@[simp] theorem State.apply_dropQueues_emb : (s.apply (.dropQueues)).emb = s.emb := rfl
@[simp] theorem State.apply_dropQueues_kv : (s.apply (.dropQueues)).kv = s.kv := rfl
@[simp] theorem State.apply_dropQueues_coll : (s.apply (.dropQueues)).coll = s.coll := rfl
@[simp] theorem State.apply_dropQueues_fmp : (s.apply (.dropQueues)).fmp = s.fmp := rfl
@[simp] theorem State.apply_dropQueues_boot : (s.apply (.dropQueues)).boot = s.boot := rfl
@[simp] theorem State.apply_dropQueues_out : (s.apply (.dropQueues)).out = s.out := rfl
@[simp] theorem State.apply_dropQueues_pending : (s.apply (.dropQueues)).pending = s.pending := rfl
@[simp] theorem State.apply_dropQueues_get (g : Fld) (j : Nat) : (s.apply (.dropQueues)).get g j = s.get g j := rfl
@[simp] theorem State.apply_dropQueues_gvar (g : Var) (j : Nat) : (s.apply (.dropQueues)).var g j = s.var g j := rfl
@[simp] theorem State.apply_dropQueues_byteAt (a : Nat) : (s.apply (.dropQueues)).byteAt a = s.byteAt a := rfl
@[simp] theorem State.apply_emit_regs (o : Out) : (s.apply (.emit o)).regs = s.regs := rfl
@[simp] theorem State.apply_emit_shadows (o : Out) : (s.apply (.emit o)).shadows = s.shadows := rfl
@[simp] theorem State.apply_emit_vars (o : Out) : (s.apply (.emit o)).vars = s.vars := rfl
@[simp] theorem State.apply_emit_mem (o : Out) : (s.apply (.emit o)).mem = s.mem := rfl
@[simp] theorem State.apply_emit_unitErr (o : Out) : (s.apply (.emit o)).unitErr = s.unitErr := rfl
@[simp] theorem State.apply_emit_queues (o : Out) : (s.apply (.emit o)).queues = s.queues := rfl
@[simp] theorem State.apply_emit_slices (o : Out) : (s.apply (.emit o)).slices = s.slices := rfl
@[simp] theorem State.apply_emit_cells (o : Out) : (s.apply (.emit o)).cells = s.cells := rfl
@[simp] theorem State.apply_emit_logs (o : Out) : (s.apply (.emit o)).logs = s.logs := rfl
@[simp] theorem State.apply_emit_clay (o : Out) : (s.apply (.emit o)).clay = s.clay := rfl
@[simp] theorem State.apply_emit_xport (o : Out) : (s.apply (.emit o)).xport = s.xport := rfl
@[simp] theorem State.apply_emit_rows (o : Out) : (s.apply (.emit o)).rows = s.rows := rfl
@[simp] theorem State.apply_emit_spring (o : Out) : (s.apply (.emit o)).spring = s.spring := rfl
@[simp] theorem State.apply_emit_silt (o : Out) : (s.apply (.emit o)).silt = s.silt := rfl
@[simp] theorem State.apply_emit_emb (o : Out) : (s.apply (.emit o)).emb = s.emb := rfl
@[simp] theorem State.apply_emit_kv (o : Out) : (s.apply (.emit o)).kv = s.kv := rfl
@[simp] theorem State.apply_emit_coll (o : Out) : (s.apply (.emit o)).coll = s.coll := rfl
@[simp] theorem State.apply_emit_fmp (o : Out) : (s.apply (.emit o)).fmp = s.fmp := rfl
@[simp] theorem State.apply_emit_boot (o : Out) : (s.apply (.emit o)).boot = s.boot := rfl
@[simp] theorem State.apply_emit_pending (o : Out) : (s.apply (.emit o)).pending = s.pending := rfl
@[simp] theorem State.apply_emit_get (o : Out) (g : Fld) (j : Nat) : (s.apply (.emit o)).get g j = s.get g j := rfl
@[simp] theorem State.apply_emit_gvar (o : Out) (g : Var) (j : Nat) : (s.apply (.emit o)).var g j = s.var g j := rfl
@[simp] theorem State.apply_emit_byteAt (o : Out) (a : Nat) : (s.apply (.emit o)).byteAt a = s.byteAt a := rfl

/-! What an update gives the part it names. -/

@[simp] theorem State.apply_reg_get (f g : Fld) (i j v : Nat) :
    (s.apply (.reg f i v)).get g j = if g = f ∧ j = i then v % 2 ^ f.width else s.get g j := by
  simp only [State.get, State.apply]
  by_cases h : g = f ∧ j = i
  · obtain ⟨rfl, rfl⟩ := h; simp
  · rw [if_neg h, Sparse.get_set_ne _ _ _ _ _ _ (by rwa [ne_eq, fkey_inj])]

@[simp] theorem State.apply_var_gvar (v w : Var) (i j n : Nat) :
    (s.apply (.var v i n)).var w j = if w = v ∧ j = i then n else s.var w j := by
  simp only [State.var, State.apply]
  rw [Sparse.get_set]; simp only [vkey_inj]

@[simp] theorem State.apply_keepRegs_get (p : Nat → Bool) (g : Fld) (j : Nat) :
    (s.apply (.keepRegs p)).get g j = if p (fkey g j) then s.get g j else g.reset := by
  simp only [State.get, State.apply, Sparse.get_filter]

@[simp] theorem State.apply_keepVars_gvar (p : Nat → Bool) (w : Var) (j : Nat) :
    (s.apply (.keepVars p)).var w j = if p (vkey w j) then s.var w j else 0 := by
  simp only [State.var, State.apply, Sparse.get_filter]

@[simp] theorem State.apply_slices_self (f : List Slice → List Slice) : (s.apply (.slices f)).slices = f s.slices := rfl
@[simp] theorem State.apply_cells_self (f : Cells → Cells) : (s.apply (.cells f)).cells = f s.cells := rfl
@[simp] theorem State.apply_logs_self (f : Logs → Logs) : (s.apply (.logs f)).logs = f s.logs := rfl
@[simp] theorem State.apply_clay_self (f : Clay → Clay) : (s.apply (.clay f)).clay = f s.clay := rfl
@[simp] theorem State.apply_xport_self (f : Xport → Xport) : (s.apply (.xport f)).xport = f s.xport := rfl
@[simp] theorem State.apply_rows_self (f : Rows → Rows) : (s.apply (.rows f)).rows = f s.rows := rfl
@[simp] theorem State.apply_spring_self (f : Spring → Spring) : (s.apply (.spring f)).spring = f s.spring := rfl
@[simp] theorem State.apply_silt_self (f : Silt → Silt) : (s.apply (.silt f)).silt = f s.silt := rfl
@[simp] theorem State.apply_emb_self (f : Emb → Emb) : (s.apply (.emb f)).emb = f s.emb := rfl
@[simp] theorem State.apply_kv_self (f : Kv → Kv) : (s.apply (.kv f)).kv = f s.kv := rfl
@[simp] theorem State.apply_coll_self (f : Coll → Coll) : (s.apply (.coll f)).coll = f s.coll := rfl
@[simp] theorem State.apply_fmp_self (f : Fmp → Fmp) : (s.apply (.fmp f)).fmp = f s.fmp := rfl
@[simp] theorem State.apply_boot_self (f : Boot → Boot) : (s.apply (.boot f)).boot = f s.boot := rfl
@[simp] theorem State.apply_emit_self (o : Out) : (s.apply (.emit o)).out = s.out ++ [o] := rfl
@[simp] theorem State.apply_dropQueues_self : (s.apply .dropQueues).queues = [] := rfl

/-- A queue after an operation on one. -/
@[simp] theorem State.apply_queue_at (q r : Nat) (op : QOp) :
    Sparse.get {} (s.apply (.queue q op)).queues r =
      if r = q then (Sparse.get {} s.queues q).apply op else Sparse.get {} s.queues r := by
  simp only [State.apply, Sparse.get_set]

/-! Runs of updates. -/

@[simp] theorem State.run_nil : s.run [] = s := rfl
@[simp] theorem State.run_cons (u : Upd) (us : List Upd) : s.run (u :: us) = (s.apply u).run us := rfl
theorem State.run_append (us vs : List Upd) : s.run (us ++ vs) = (s.run us).run vs := by
  induction us generalizing s with
  | nil => rfl
  | cons u us ih => exact ih _

/-- What every update of a list keeps, the run keeps. -/
theorem State.run_keeps (P : State → Prop) (us : List Upd) (h : ∀ s, ∀ u ∈ us, P s → P (s.apply u)) (hs : P s) :
    P (s.run us) := by
  induction us generalizing s with
  | nil => exact hs
  | cons u us ih =>
    exact ih _ (fun s' v hv => h s' v (List.mem_cons_of_mem _ hv)) (h s u List.mem_cons_self hs)

/-! The queue of commands does not show in the rest. -/

@[simp] theorem State.pending_get (cs : List Instr) (g : Fld) (j : Nat) : ({ s with pending := cs } : State).get g j = s.get g j := rfl
@[simp] theorem State.pending_var (cs : List Instr) (g : Var) (j : Nat) : ({ s with pending := cs } : State).var g j = s.var g j := rfl

end Sys2Proof.Machine
end

