-- ==== Sys2Proof/Laws/Memory.lean ====
section
/-!
SUPPORT. The laws of memory: every operation keeps the canonical form, and a byte reads as what was last written there.
-/
namespace Sys2Proof.Machine

theorem canonDpa_low {a : Nat} (h : a < 0x010000000000) : canonDpa a = a := by
  unfold canonDpa; rw [if_neg (by omega)]

/-- An interleaved-alias address names a direct one. -/
theorem canonDpa_alias {a : Nat} (h1 : 0x010000000000 ≤ a) (h2 : a < 0x020000000000) : canonDpa a < 0x010000000000 := by
  unfold canonDpa
  rw [if_pos ⟨h1, h2⟩]
  simp only
  generalize hx : a - 0x010000000000 = x
  have hxlt : x < 2 ^ 40 := by omega
  have hb : bits x 12 4 < 16 := by unfold bits; exact Nat.mod_lt _ (by decide)
  have hl : ((x >>> 16) <<< 12) < 2 ^ 36 := by
    rw [Nat.shiftRight_eq_div_pow, Nat.shiftLeft_eq]
    omega
  have ho : (x >>> 16) <<< 12 ||| x % 4096 < 2 ^ 36 := Nat.or_lt_two_pow hl (by omega)
  omega

theorem canonDpa_idem (a : Nat) : canonDpa (canonDpa a) = canonDpa a := by
  by_cases h : 0x010000000000 ≤ a ∧ a < 0x020000000000
  · exact canonDpa_low (canonDpa_alias h.1 h.2)
  · have : canonDpa a = a := by unfold canonDpa; rw [if_neg h]
    rw [this, this]

theorem populated_canon {a : Nat} (h : populated a = true) : populated (canonDpa a) = true := by
  by_cases hc : 0x010000000000 ≤ a ∧ a < 0x020000000000
  · have := canonDpa_alias hc.1 hc.2
    unfold populated; rw [if_pos (by omega)]
  · have : canonDpa a = a := by unfold canonDpa; rw [if_neg hc]
    rwa [this]

/-- A byte written keeps the canonical form. -/
theorem putByte_wf {m : List Host.Cell} (a v : Nat) (h : Memory.wf m = true) : Memory.wf (putByte m a v) = true := by
  unfold putByte; split
  · exact Sparse.wf_set _ _ h
  · exact h

theorem putBytes_wf {m : List Host.Cell} (a : Nat) (bs : List Nat) (h : Memory.wf m = true) :
    Memory.wf (putBytes m a bs) = true := by
  induction bs generalizing m a with
  | nil => exact h
  | cons b bs ih => exact ih _ (putByte_wf a b h)

theorem putByte_mapped {m : List Host.Cell} (a v : Nat) (h : Memory.mapped m = true) : Memory.mapped (putByte m a v) = true := by
  unfold putByte; split
  · next hp =>
    simp only [Memory.mapped, List.all_eq_true] at h ⊢
    intro p hq
    rcases Sparse.mem_set hq with rfl | hq
    · simp [populated_canon hp, canonDpa_idem]
    · exact h p hq
  · exact h

theorem putBytes_mapped {m : List Host.Cell} (a : Nat) (bs : List Nat) (h : Memory.mapped m = true) :
    Memory.mapped (putBytes m a bs) = true := by
  induction bs generalizing m a with
  | nil => exact h
  | cons b bs ih => exact ih _ (putByte_mapped a b h)

/-- What a fill's list holds: what memory held outside, and the one value inside. -/
theorem mem_fillBytes {m : List Host.Cell} {a n : Nat} {v : BitVec 8} {p : Host.Cell} (h : p ∈ fillBytes m a n v) :
    p ∈ m ∨ (inSharedTarn a n = true ∧ v ≠ 0 ∧ p.2 = v ∧ a ≤ p.1 ∧ p.1 < a + n) := by
  unfold fillBytes at h
  split at h
  · next hin =>
    rw [List.mem_append, List.mem_append] at h
    rcases h with (h | h) | h
    · exact .inl (List.mem_filter.mp h).1
    · by_cases hv : v = 0
      · simp [hv] at h
      · rw [if_neg hv, List.mem_map] at h
        obtain ⟨i, hi, rfl⟩ := h
        exact .inr ⟨hin, hv, rfl, Nat.le_add_right .., by have := List.mem_range.mp hi; simp only; omega⟩
    · exact .inl (List.mem_filter.mp h).1
  · exact .inl h

/-- A fill keeps the canonical form. -/
theorem fillBytes_wf {m : List Host.Cell} (a n : Nat) (v : BitVec 8) (h : Memory.wf m = true) :
    Memory.wf (fillBytes m a n v) = true := by
  simp only [Memory.wf, Sparse.wf, Bool.and_eq_true, List.all_eq_true] at h ⊢
  refine ⟨?_, fun p hp => ?_⟩
  · unfold fillBytes
    split
    · rw [List.append_assoc]
      refine Sparse.risingFrom_append (Nat.zero_le a) (Sparse.risingFrom_filter _ h.1) (fun p hp => ?_) ?_
      · simpa using (List.mem_filter.mp hp).2
      · refine Sparse.risingFrom_append (c := a + n) (Nat.le_add_right ..) ?_ (fun p hp => ?_)
          (Sparse.risingFrom_from _ h.1)
        · split
          · rfl
          · exact Sparse.risingFrom_run ..
        · by_cases hv : v = 0
          · simp [hv] at hp
          · rw [if_neg hv, List.mem_map] at hp
            obtain ⟨i, hi, rfl⟩ := hp
            have := List.mem_range.mp hi
            simp only; omega
    · exact h.1
  · rcases mem_fillBytes hp with hp | ⟨_, hv, he, _⟩
    · exact h.2 p hp
    · simpa [he] using hv

/-- Every byte of a run in a shared Tarn is populated, under its own address. -/
theorem inSharedTarn_mapped {a n b : Nat} (h : inSharedTarn a n = true) (h1 : a ≤ b) (h2 : b < a + n) :
    populated b = true ∧ canonDpa b = b := by
  simp only [inSharedTarn, decide_eq_true_eq] at h
  refine ⟨?_, by unfold canonDpa; rw [if_neg (by omega)]⟩
  unfold populated
  rw [if_neg (by omega), if_neg (by omega), if_pos (by omega), decide_eq_true_eq]
  have : b - 0x410000000000 = a - 0x410000000000 + (b - a) := by omega
  omega

theorem fillBytes_mapped {m : List Host.Cell} (a n : Nat) (v : BitVec 8) (h : Memory.mapped m = true) :
    Memory.mapped (fillBytes m a n v) = true := by
  simp only [Memory.mapped, List.all_eq_true] at h ⊢
  intro p hp
  rcases mem_fillBytes hp with hp | ⟨hin, _, _, h1, h2⟩
  · exact h p hp
  · simp [inSharedTarn_mapped hin h1 h2]

/-- The byte at an address of the map after one byte is written. -/
theorem putByte_get (m : List Host.Cell) (a v b : Nat) :
    Sparse.get 0#8 (putByte m a v) b =
      if populated a = true ∧ b = canonDpa a then BitVec.ofNat 8 v else Sparse.get 0#8 m b := by
  unfold putByte; by_cases h : populated a = true
  · rw [if_pos h, Sparse.get_set]; simp [h]
  · simp [h]

/-- Bytes written elsewhere do not change a byte. -/
theorem putBytes_other (m : List Host.Cell) (a b : Nat) (bs : List Nat) (h : ∀ i, i < bs.length → b ≠ canonDpa (a + i)) :
    Sparse.get 0#8 (putBytes m a bs) b = Sparse.get 0#8 m b := by
  induction bs generalizing m a with
  | nil => rfl
  | cons x bs ih =>
    rw [putBytes, ih _ _ (fun i hi => by have := h (i + 1) (by simpa using hi); rwa [show a + 1 + i = a + (i + 1) by omega]),
      putByte_get, if_neg]
    rintro ⟨_, rfl⟩
    exact h 0 (by simp) rfl

/-- What a write leaves at every other address. -/
theorem State.apply_bytes_other (s : State) (a b : Nat) (bs : List Nat)
    (h : ∀ i, i < bs.length → canonDpa b ≠ canonDpa (a + i)) : (s.apply (.bytes a bs)).byteAt b = s.byteAt b := by
  unfold State.byteAt
  split
  · exact congrArg BitVec.toNat (putBytes_other _ _ _ _ h)
  · rfl

end Sys2Proof.Machine
end

