-- ==== Sys2Proof/Laws/Queue.lean ====
section
/-!
SUPPORT. The law of queues (R42): no operation lets the tokens and credits of a queue exceed its depth.
-/
namespace Sys2Proof.Machine

@[simp] theorem tagCount_nil (g : Nat) : tagCount g [] = 0 := rfl

theorem tagCount_append (g : Nat) (l m : List Nat) : tagCount g (l ++ m) = tagCount g l + tagCount g m := by
  simp [tagCount]

theorem tagCount_cons (g a : Nat) (l : List Nat) : tagCount g (a :: l) = (if a = g then 1 else 0) + tagCount g l := by
  by_cases h : a = g <;> simp [tagCount, h]; omega

theorem tagCount_drop (g : Nat) (l : List Nat) : tagCount g (l.filter (· != g)) = 0 := by
  simp [tagCount, List.filter_eq_nil_iff]

theorem tagCount_flight_drop (g : Nat) (l : List (Token × Nat)) :
    tagCount g ((l.filter (fun t => t.2 != g)).map Prod.snd) = 0 := by
  simp [tagCount, List.filter_eq_nil_iff]

/-- Every operation keeps a queue within its depth. -/
theorem Queue.apply_held (q : Queue) (op : QOp) (h : q.held ≤ q.depth) : (q.apply op).held ≤ (q.apply op).depth := by
  cases op with
  | recredit d g home keep =>
    cases home <;> cases keep <;> simp [Queue.apply, Queue.held, tagCount_drop, tagCount_flight_drop]
  | remove keep => cases keep <;> simp [Queue.apply, Queue.held, tagCount_drop, tagCount_flight_drop]
  | send t =>
    simp only [Queue.apply]; split
    · exact h
    · simp only [Queue.held, List.map_append, tagCount_append, List.map_cons, List.map_nil, tagCount_cons, tagCount_nil] at h ⊢
      simp; omega
  | sendOut =>
    simp only [Queue.apply]; split
    · exact h
    · simp only [Queue.held] at h ⊢; omega
  | arrive =>
    simp only [Queue.apply]; split
    · exact h
    · next t g rest hq =>
      simp only [Queue.held, hq, List.map_cons, tagCount_cons] at h
      split <;> rename_i hg <;> simp [hg] at h <;> simp [Queue.held] <;> omega
  | deq =>
    simp only [Queue.apply]; split
    · exact h
    · next hq => simp only [Queue.held, hq, List.length_cons] at h; simp [Queue.held, tagCount_append, tagCount_cons]; omega
  | deqOut =>
    simp only [Queue.apply]; split
    · exact h
    · next hq => simp only [Queue.held, hq, List.length_cons] at h; simp [Queue.held]; omega
  | creditArrive =>
    simp only [Queue.apply]; split
    · exact h
    · next g rest hq =>
      simp only [Queue.held, hq, tagCount_cons] at h
      split <;> rename_i hg <;> simp [hg] at h <;> simp [Queue.held] <;> omega
  | recvRemote t =>
    simp only [Queue.apply]; split
    · next hlt => simp [Queue.held] at hlt ⊢; omega
    · exact h
  | creditRemote =>
    simp only [Queue.apply]; split
    · next hlt => simp [Queue.held] at hlt ⊢; omega
    · exact h
  | stalled n => exact h
  | latch => exact h
  | zero => exact h

end Sys2Proof.Machine
end

