-- ==== Sys2Proof/Laws/Inv.lean ====
section
/-!
SUPPORT. What every update keeps: memory's canonical form and map, every field within its width, every queue within its
depth.
-/
namespace Sys2Proof.Machine

/-- Fields stay within their widths. -/
theorem State.apply_fieldsFit {s : State} (u : Upd) (h : s.fieldsFit) : (s.apply u).fieldsFit := by
  intro g j
  cases u with
  | reg f i v =>
    rw [State.apply_reg_get]; split
    · next e => rw [e.1]; exact Nat.mod_lt _ (Nat.two_pow_pos _)
    · exact h g j
  | keepRegs p =>
    rw [State.apply_keepRegs_get]; split
    · exact h g j
    · exact fld_reset_fits g
  | _ => exact h g j

/-- Queues stay within their depths. -/
theorem State.apply_queuesFit {s : State} (u : Upd) (h : s.queuesFit) : (s.apply u).queuesFit := by
  intro r
  cases u with
  | queue q op =>
    rw [State.apply_queue_at]; split
    · exact Queue.apply_held _ _ (h q)
    · exact h r
  | dropQueues => exact Nat.le_refl 0
  | _ => exact h r

/-- Memory stays canonical. -/
theorem State.apply_memory {s : State} (u : Upd) (h : Memory.wf s.mem = true) : Memory.wf (s.apply u).mem = true := by
  cases u with
  | bytes a bs => exact putBytes_wf a bs h
  | fill a n v => exact fillBytes_wf a n v h
  | keepMem p => exact Sparse.wf_filter _ h
  | _ => exact h

/-- Memory stays within the map. -/
theorem State.apply_mapped {s : State} (u : Upd) (h : Memory.mapped s.mem = true) :
    Memory.mapped (s.apply u).mem = true := by
  cases u with
  | bytes a bs => exact putBytes_mapped a bs h
  | fill a n v => exact fillBytes_mapped a n v h
  | keepMem p =>
    simp only [Memory.mapped, List.all_eq_true] at h ⊢
    exact fun c hc => h c (List.mem_filter.mp hc).1
  | _ => exact h

/-- Every update keeps the invariant. -/
theorem State.apply_inv {s : State} (u : Upd) (h : s.Inv) : (s.apply u).Inv :=
  ⟨s.apply_memory u h.memory, s.apply_mapped u h.mapped, s.apply_fieldsFit u h.fields, s.apply_queuesFit u h.queues⟩

theorem State.run_inv {s : State} (us : List Upd) (h : s.Inv) : (s.run us).Inv :=
  s.run_keeps State.Inv us (fun _ u _ hs => State.apply_inv u hs) h

/-- No update touches the queue of commands. -/
theorem State.apply_pending (s : State) (u : Upd) : (s.apply u).pending = s.pending := by cases u <;> rfl

theorem State.run_pending (s : State) (us : List Upd) : (s.run us).pending = s.pending := by
  induction us generalizing s with
  | nil => rfl
  | cons u us ih => rw [State.run_cons, ih, State.apply_pending]

/-! What an answer is. -/

/-- A meaning always answers a next state: what its plan leaves. -/
theorem answer_next (p : Plan) (s t : State) : answer p s = .next t ↔ t = s.run (p s) := by
  constructor
  · intro h; exact (Host.Outcome.next.inj h).symm
  · rintro rfl; rfl

theorem answer_inv {p : Plan} {s t : State} (h : s.Inv) (ht : answer p s = .next t) : t.Inv := by
  rw [(answer_next p s t).mp ht]; exact State.run_inv _ h

/-! Plans. -/

@[simp] theorem plans_nil (s : State) : plans [] s = [] := rfl
theorem plans_cons (p : Plan) (ps : List Plan) (s : State) : plans (p :: ps) s = p s ++ plans ps (s.run (p s)) := rfl

/-- Running plans one after the other. -/
theorem run_plans_cons (p : Plan) (ps : List Plan) (s : State) :
    s.run (plans (p :: ps) s) = (s.run (p s)).run (plans ps (s.run (p s))) := by
  rw [plans_cons, State.run_append]

@[simp] theorem planIf_true {c : State → Bool} {p : Plan} {s : State} (h : c s = true) : planIf c p s = p s := by simp [planIf, h]
@[simp] theorem planIf_false {c : State → Bool} {p : Plan} {s : State} (h : c s = false) : planIf c p s = [] := by simp [planIf, h]

end Sys2Proof.Machine
end

