-- ==== Sys2Proof/Laws/Cell.lean ====
section
/-!
SUPPORT. What issue does (R137, R144): an instruction that completes writes what it says, counts, and moves the PC.
-/
namespace Sys2Proof.Machine

theorem satAdd_lt (w a n : Nat) : satAdd w a n < 2 ^ w := by
  unfold satAdd; have := Nat.two_pow_pos w; omega

theorem cellReady_iff {s : State} {cell : Nat} : s.cellReady cell = true ↔
    cell < 144 ∧ s.get .CELL_SEQ_STATUS_STATE cell = 1 ∧
      s.get .CELL_SEQ_STATUS_PC cell < s.get .CELL_SEQ_PROG_LENGTH cell ∧
      (settle (s.get .CELL_SEQ_STATUS_PC cell + 1) (s.loopsOf cell)).1 < 32768 := by
  simp [State.cellReady, and_assoc]

/-- A ready sequencer issues. -/
theorem issueN_ready {s : State} {cell : Nat} (h : s.cellReady cell = true) (n m opc : Nat) (w : CellWord) (f : CellFn) :
    issueN n m opc cell w f s = retireOp opc cell w n m (f cell w s) s := by
  have := cellReady_iff.mp h
  simp [issueN, this, Nat.not_le.mpr this.2.2.1]

/-- An instruction that completes, having changed of the state only the cells' part. -/
theorem issue_done {s : State} {cell : Nat} (h : s.cellReady cell = true) {n m opc : Nat} {w : CellWord} {f : CellFn}
    {us : List Upd} {k : Nat} {g : Cells} (hf : f cell w s = .done us k) (hus : s.run us = { s with cells := g })
    (ho : opc < 256 := by decide) :
    Issued s (s.run (issueN n m opc cell w f s)) cell opc n m k g ∧
      Frame s (s.run (issueN n m opc cell w f s)) [.cells] (seqFields cell) [] := by
  have hr := (cellReady_iff.mp h).2.2.2
  rw [issueN_ready h, hf]
  have hg : ∀ fl i, State.get { s with cells := g } fl i = s.get fl i := fun _ _ => rfl
  have hv : ∀ v i, State.var { s with cells := g } v i = s.var v i := fun _ _ => rfl
  have hs := satAdd_lt 48 (s.get .CELL_SEQ_ISSUED_COUNT cell) n
  have hm := satAdd_lt 16 (s.get .CELL_SEQ_ISSUED_MACROS cell) m
  have hk := satAdd_lt 32 (s.get .CELL_SEQ_CLAMP_COUNT cell) k
  simp only [retireOp, State.run_append, hus, fallTo, hr, if_true, State.addF]
  refine ⟨⟨?_, ?_, ?_, ?_, ?_, ?_⟩, ⟨?_, ?_, ?_⟩⟩
  · split <;> simp [setLoops, setF, State.run_cons] <;> exact Nat.mod_eq_of_lt hr
  · split <;> simp [setLoops, setF, State.run_cons] <;> exact Nat.mod_eq_of_lt hs
  · split <;> simp [setLoops, setF, State.run_cons] <;> exact Nat.mod_eq_of_lt hm
  · split
    · simp [setLoops, setF, State.run_cons, hg]
    · simp [setLoops, setF, State.run_cons]; exact Nat.mod_eq_of_lt hk
  · split
    · simp [setLoops, setF, State.run_cons, hg]
    · simp [setLoops, setF, State.run_cons]; exact Nat.mod_eq_of_lt ho
  · split <;> simp [setLoops, setF, State.run_cons, Cells.putLoops]
  · intro p hp
    split <;> cases p <;> simp [setLoops, setF, State.run_cons, State.same] at hp ⊢
  · intro fl i hfi
    simp only [seqFields, List.mem_cons, Prod.mk.injEq, List.not_mem_nil, or_false, not_or] at hfi
    split <;> simp [setLoops, setF, State.run_cons, hg, hfi]
  · intro v i _
    split <;> simp [setLoops, setF, State.run_cons, hv]

/-! Writes of one register. -/

theorem setV_run (s : State) (cell r v : Nat) : s.run (setV cell r v) = { s with cells := s.cells.putV cell r v } := rfl

theorem setS_run (s : State) (cell r v : Nat) : s.run (setS cell r v) = { s with cells := s.cells.putS cell r v } := by
  unfold setS Cells.putS; split <;> rfl

theorem setM_run (s : State) (cell r v : Nat) : s.run (setM cell r v) = { s with cells := s.cells.putM cell r v } := by
  unfold setM Cells.putM; split <;> rfl

theorem setA_run (s : State) (cell r v : Nat) : s.run (setA cell r v) = { s with cells := s.cells.putA cell r v } := by
  unfold setA Cells.putA; split <;> rfl

end Sys2Proof.Machine
end

