-- ==== Sys2Proof/Laws/Exec.lean ====
section
/-!
SUPPORT. Every command's meaning is one plan of updates that answers a next state: what a proof over all commands starts from.
-/
namespace Sys2Proof.Machine

/-- Each command runs a plan of its own. -/
theorem exec_answers (c : Instr) : ∃ p : Plan, ∀ s, exec c s = answer p s := by
  cases c <;> exact ⟨_, fun _ => rfl⟩

/-- A command's next state is the old one with the updates of its plan made. -/
theorem exec_next (c : Instr) (s : State) : ∃ us : List Upd, exec c s = .next (s.run us) :=
  (exec_answers c).elim fun p h => ⟨p s, h s⟩

end Sys2Proof.Machine
end

