-- ==== Sys2Proof/Tests/Slice0.lean ====
section
/-!
SUPPORT. Tests: the checks of WellFormed refuse, small cases of the spec, and for each statement a state and operands that
meet its hypotheses.
-/
namespace Sys2Proof.Tests
open Sys2Proof Sys2Proof.Machine

/-- The state after reset with some updates made. -/
def mk (us : List Upd) : State := State.reset.run us
/-- A state with an active image. -/
def withHdr (h : Nat) (us : List Upd) : State := { mk us with clay := { active := some { hdr := h } } }

/-! Each check of WellFormed refuses an ill-formed command. -/

def anyFrame : GtFrame :=
  { port := 0, ep := 0, ch := 0, flags := 0, inc := 0, seq := 0, ack := 0, credit := 0, body := { op := 1 } }
theorem test_wf_cell : (Instr.fetchUe 144).wf = false := by decide
theorem test_wf_restart_pc : (Instr.cellSeqRestart 0 32768).wf = false := by decide
theorem test_wf_opcode_byte : (Instr.undefinedOpcode 0 256 ⟨0, 0, 0, 0, 0, false, 0, 0⟩).wf = false := by decide
theorem test_wf_stretch : (Instr.stretchSample 4097).wf = false := by decide
theorem test_wf_die : (Instr.embCoalesce 2).wf = false := by decide
theorem test_wf_stack : (Instr.siltClose 16).wf = false := by decide
theorem test_wf_lane32 : (Instr.siltLaneDispatch 0 32 0 0).wf = false := by decide
theorem test_wf_queue : (Instr.tokenArrival 8192).wf = false := by decide
theorem test_wf_port : (Instr.portFail 16).wf = false := by decide
theorem test_wf_lane : (Instr.laneLoss 0 4).wf = false := by decide
theorem test_wf_ring : (Instr.ringNop 16).wf = false := by decide
theorem test_wf_ep : (Instr.peerLost 65792).wf = false := by decide
theorem test_wf_ch : (Instr.gtAckTimer 0 4).wf = false := by decide
theorem test_wf_rank : (Instr.rejoinLive 65536).wf = false := by decide
theorem test_wf_sink : (Instr.springStream 8).wf = false := by decide
theorem test_wf_slot : (Instr.microbatchDrop 8).wf = false := by decide
theorem test_wf_stream : (Instr.weightFillDone 16 0).wf = false := by decide
theorem test_wf_tarn : (Instr.tarnBankGrant 144 0 0).wf = false := by decide
theorem test_wf_word : (Instr.springEpochWrite (2 ^ 64)).wf = false := by decide
theorem test_wf_addr : (Instr.registerWrite 4 0).wf = false := by decide
theorem test_wf_dpa : (Instr.eccWriteback (2 ^ 48)).wf = false := by decide
theorem test_wf_bytes : (Instr.fmpFragment 0 0 [256]).wf = false := by decide
theorem test_wf_smb : (Instr.smbUndefinedCommand 8).wf = false := by decide
theorem test_wf_frame : (Instr.gtAck { anyFrame with flags := 16 }).wf = false := by decide
theorem test_wf_via : (Instr.fetchReq (.gt { anyFrame with ch := 4 })).wf = false := by decide
theorem test_wf_frame_accepts : (Instr.gtAck anyFrame).wf = true := by decide

/-! Small cases, expected from the spec's text and examples. -/

/-- The examples of R66: 70,000 beyond FP16 rounds down to 65,504 and up to infinity, and −70,000 the other way. -/
theorem test_fp16_directed :
    fp16Down 0x4788B800 = 0x7BFF ∧ fp16Up 0x4788B800 = 0x7C00 ∧ fp16Down 0xC788B800 = 0xFC00 ∧ fp16Up 0xC788B800 = 0xFBFF := by
  decide +kernel
def bf (b : Nat) : FV := decodeElem 2 b
/-- The example of R112: (2^15, 0.09375, 2^15) times (2^15, 2^-5, -2^15) gives 0.00390625 in that order. -/
theorem test_array_chain_order :
    fenc (chain [bf 0x4700, bf 0x3DC0, bf 0x4700] [bf 0x4700, bf 0x3D00, bf 0xC700]) = 0x3B800000 ∧
    fenc (chain [bf 0x4700, bf 0x4700, bf 0x3DC0] [bf 0x4700, bf 0xC700, bf 0x3D00]) = 0x3B400000 := by decide +kernel
/-- A next state with a property. -/
def after (o : Host.Outcome State Fault Refusal) (p : State → Bool) : Bool := match o with | .next t => p t | _ => false
def smallCell (us : List Upd := []) : State :=
  mk ([setF .CELL_SEQ_STATUS_STATE 1 3, setF .CELL_SEQ_PROG_LENGTH 100 3, setF .CELL_SEQ_STATUS_PC 5 3] ++ us)
def imm (dst sa n : Nat) : CellWord := ⟨BitVec.ofNat 6 dst, BitVec.ofNat 6 sa, 0, 0, 0, false, 0, BitVec.ofNat 23 n⟩
/-- R133: SLI sign-extends IMM. -/
theorem test_sli_signed :
    after (exec (.sli 3 (imm 2 0 0x7FFFFF)) (smallCell [])) (fun t => t.sReg 3 2 == 2 ^ 64 - 1) = true := by decide +kernel
/-- R127: S0 discards what is written, and reads zero. -/
theorem test_s0_discards :
    after (exec (.sli 3 (imm 0 0 5)) (smallCell [])) (fun t => t.sReg 3 0 == 0 && t.get .CELL_SEQ_STATUS_PC 3 == 6) = true := by
  decide +kernel
/-- R137: an instruction of a STOPPED sequencer has no effect. -/
theorem test_idle_sequencer_issues_nothing :
    after (exec (.sli 3 (imm 2 0 5)) (mk [])) (fun t => decide (t = mk [])) = true := by decide +kernel
/-- R129: the fields of an instruction word. -/
theorem test_instruction_word :
    (⟨1, 2, 3, 4, 5, true, 6, 7⟩ : CellWord).word 0x10 =
      0x10 * 2 ^ 56 + 1 * 2 ^ 50 + 2 * 2 ^ 44 + 3 * 2 ^ 38 + 4 * 2 ^ 32 + 5 * 2 ^ 28 + 2 ^ 27 + 6 * 2 ^ 23 + 7 := by decide
/-- R129: the fields of a word as they are read back from it. -/
theorem test_instruction_fields :
    CellWord.ofWord (0x10 * 2 ^ 56 + 1 * 2 ^ 50 + 2 * 2 ^ 44 + 3 * 2 ^ 38 + 4 * 2 ^ 32 + 5 * 2 ^ 28 + 2 ^ 27 + 6 * 2 ^ 23 + 7) =
      (0x10, ⟨1, 2, 3, 4, 5, true, 6, 7⟩) := by decide
/-- R482: a read of the alert status returns it, with the CRC-8 of B0 06 B1 09 after it, and clears it. -/
theorem test_alert_read_clears :
    after (exec .smbReadAlert (mk [.var .alert 0 9])) (fun t => t.out == [⟨.smbus, 0x58, [128], [9], []⟩] && t.var .alert == 0) = true := by
  decide +kernel
/-- R14: a W1C field is cleared by a written 1. -/
theorem test_w1c :
    after (exec (.registerWrite 0x10008 0x10) (mk [setF .BEAT_STATUS_RESUME_REFUSED 1]))
      (fun t => t.get .BEAT_STATUS_RESUME_REFUSED == 0) = true := by decide +kernel
/-- A step with one command waiting runs it, and one with none passes a clk. -/
theorem test_step_runs_front :
    after (step ((mk []).withCommand (.registerWrite 0x40030 (9 * 2 ^ 26))))
      (fun t => t.get .TIER_WINDOW_BASE == 9 && t.pending.isEmpty) = true ∧
    after (step (mk [])) (fun t => t.var .clk == 1) = true := by decide +kernel

/-! The block as a whole. -/

/-- Updates keep a state sound, so any state made from a plain one is. -/
def plain : State := { State.reset with pending := [.beatStart] }
theorem plain_sound : plain.Inv :=
  ⟨by decide, by decide, fun f i => by simpa [plain, State.reset, State.get, Sparse.get] using fld_reset_fits f,
    fun q => by simp [plain, State.reset, Queue.held]⟩
theorem witness_StepKeepsInvariant : plain.Inv ∧ (match step plain with | .next _ => true | _ => false) = true :=
  ⟨plain_sound, by decide +kernel⟩
theorem witness_IdleStepPassesOneClk : State.reset.pending = [] ∧ (mk [setF .BEAT_STATUS_STATE 1]).running = true ∧
    (mk [setF .BEAT_STATUS_STATE 1]).get .BEAT_STATUS_PHASE < 4095 := by decide +kernel

/-! Cell instructions. -/

/-- Cell 3 runs a program of 100 instructions and is at the sixth. -/
def cellUps : List Upd :=
  [setF .CELL_SEQ_STATUS_STATE 1 3, setF .CELL_SEQ_PROG_LENGTH 100 3, setF .CELL_SEQ_STATUS_PC 5 3,
   setF .CELL_SEQ_STATUS_SLOT 0 3]
def cellState (us : List Upd := []) : State := mk (cellUps ++ us)
def cellImg (img : Image) (us : List Upd := []) : State := { cellState us with clay := { active := some img } }
/-- A word of an instruction with an immediate, on registers 1 to 4 and no mask. -/
def word (imm : Nat) (mmode := false) : CellWord := ⟨1, 2, 3, 4, 0, mmode, 0, BitVec.ofNat 23 imm⟩
/-- Registers with contents: S1 to S4, A2, A3, M1 to M4, V1 to V5 of cell 3. -/
def full : List Upd :=
  [.cells (fun c => { c with
    s := [(97, 0xFFFFFFFFFFFFFFF3#64), (98, 0x8000000000000001#64), (99, 70#64), (100, 3#64)]
    a := [(50, 0xFFFFFFFFFFFF#48), (51, 5#48)]
    m := [(49, 0xFF00FF00F0F0A5A5#64), (50, 0x8000000000000001#64), (51, 0xFFFFFFFF#64), (52, 0x123456789ABCDEF0#64)]
    v := (List.range 6).map (fun r => (193 + r, BitVec.ofNat 2048 (pack 32 ((List.range 64).map (fun i =>
      (i * 0x9E3779B1 + r * 0x7F4A7C15 + (if i = 5 then 0x7F800000 else 0)) % 2 ^ 32))))) })]
/-- A word that writes V1 from V2, V3 and V4 under M1. -/
def allW : CellWord := { word 0x123 with msk := 1, fmt := 0 }
/-- Every lane active at the last bytes of the Tarn, and one byte further. -/
def edge (o : Nat) : State :=
  cellState [.cells (fun c => { c with
    a := [(3 * 16 + 2, BitVec.ofNat 48 o)], m := [(3 * 16, 1)], v := [(3 * 64 + 2, 0)] })]
def one : CellWord := { word 0 with msk := 1 }
def laneOne (o : Nat) : State := (edge o).run [.cells (fun c => { c with m := [(3 * 16 + 1, 1)] })]

theorem witness_MaskResults :
    (let cell : Nat := 3;
      let s := cellState [];
      s.cellReady cell = true) := by decide +kernel
theorem witness_ScalarMovesAndAddresses :
    (let cell : Nat := 3;
      let s := cellState [];
      s.cellReady cell = true) := by decide +kernel
theorem witness_LaneMoves :
    (let cell : Nat := 3;
      let s := cellState [];
      s.cellReady cell = true) := by decide +kernel
theorem witness_CompareReduceConvert :
    (let cell : Nat := 3;
      let s := cellState [];
      s.cellReady cell = true) := by decide +kernel
theorem witness_MacroOperations :
    (let cell : Nat := 3;
      let s := cellState [];
      s.cellReady cell = true) := by decide +kernel
theorem witness_ScalarArithmetic :
    (let cell := 3;
      let s := cellState;
      s.cellReady cell = true) := by decide +kernel
theorem witness_VectorArithmetic :
    (let cell := 3;
      let s := cellState;
      s.cellReady cell = true) := by decide +kernel
theorem witness_BitwiseLanes :
    (let cell := 3;
      let s := cellState;
      s.cellReady cell = true) := by decide +kernel

/-! Tarn, queues, array, stash, streams. -/

/-- Routes of cell 3: outbound 0 to queue 7, inbound 0 from queue 9, of which 7 suppresses on drop; both inside the module. -/
def routeImg (supp : Nat) : Image :=
  { secs := [(2, [3 + 7 * 65536 + supp * 2 ^ 14, 3 + 32 * 256 + 9 * 65536 + supp * 2 ^ 14]), (3, [7, 9])] }
def routed (supp : Nat) (cred : Nat) (buf : List Token) (us : List Upd := []) : State :=
  { cellImg (routeImg supp) us with queues := [(7, { depth := 4, credits := cred }), (9, { depth := 4, buf := buf })] }
def dropUps : List Upd := [setF .CELL_SEQ_STATUS_DROPPED 1 3]
/-- Stream 2 feeds cell 3 with two slots of 4 KiB in its W region. -/
def streamImg : Image :=
  { secs := [(8, [2 + 2 * 256 + 4096 * 2 ^ 64 + 8 * 2 ^ 128])], layers := [(2, [1024 * 2 ^ 64])] }
def streaming (us : List Upd := []) : State := cellImg streamImg us
def stash (spilled : Bool) : Upd := .cells (fun c => { c with stash := [⟨3, 0, 6, 1, spilled, 2⟩] })
def stashState (us : List Upd := []) : State := cellState ([setF .TIER_CLASS_REGION_SIZE 16 3] ++ us)
def aopAt (d : Nat) (us : List Upd := []) : State := cellState ([.bytes (cellTarn 3 0) (leBytes 64 d)] ++ us)
def streamOne (us : List Upd := []) : State := { laneOne 0 with clay := (streaming us).clay }
def stashBad : List Upd := [setF .TIER_CLASS_REGION_SIZE 1 3, setF .CELL_SEQ_STATUS_SLOT 0 3, .cells (fun c => { c with stash := [⟨3, 0, 9, 0, false, 0⟩] })]
def runUps3 : List Upd := [setF .BEAT_STATUS_STATE 1]
/-- Queue 7 goes to another module. -/
def routedOut (cred : Nat) : State :=
  { cellImg { secs := [(2, [3 + 7 * 65536]), (3, [7 + 5 * 2 ^ 40])] } with queues := [(7, { depth := 4, credits := cred })] }

theorem witness_LoadsReadTheTarn :
    (let cell : Nat := 3;
      let w := one;
      let s := laneOne 0;
      s.cellReady cell = true ∧
        lanesInside cell w s (vecOffs w cell s) = true ∧
          s.streamsHeld cell (laneRuns cell w s (vecOffs w cell s)) = 0) ∧
    (let cell : Nat := 3;
      let w := one;
      let s := laneOne 0;
      s.cellReady cell = true ∧
        lanesInside cell w s (gatherAddrs cell w s) = true ∧
          s.streamsHeld cell (laneRuns cell w s (gatherAddrs cell w s)) = 0) ∧
    (let cell : Nat := 3;
      let w := one;
      let s := laneOne 0;
      let o := effAddr cell w 8 s;
      s.cellReady cell = true ∧ o + 8 ≤ 1572864 ∧ s.streamsHeld cell [(o, 8)] = 0) := by
  refine ⟨?_, ?_, ?_⟩ <;> decide +kernel
theorem witness_StoresWriteTheTarn :
    (let cell : Nat := 3;
      let w := one;
      let s := laneOne 0;
      s.cellReady cell = true ∧ lanesInside cell w s (vecOffs w cell s) = true) ∧
    (let cell : Nat := 3;
      let w := one;
      let s := laneOne 0;
      s.cellReady cell = true ∧ lanesInside cell w s (gatherAddrs cell w s) = true) ∧
    (let cell : Nat := 3;
      let w := one;
      let s := laneOne 0;
      let o := effAddr cell w 8 s;
      s.cellReady cell = true ∧ o + 8 ≤ 1572864 ∧ s.stashWrite cell o = false) ∧
    (let cell : Nat := 3;
      let w := word 0;
      let s := (edge 8).run (dropUps ++ [setF .TIER_CLASS_REGION_SIZE 9 3]);
      let o := effAddr cell w 8 s;
      s.cellReady cell = true ∧ o + 8 ≤ 1572864 ∧ s.stashWrite cell o = true) := by
  refine ⟨?_, ?_, ?_, ?_⟩ <;> decide +kernel
theorem witness_AccessBeyondTarnTraps :
    (let cell : Nat := 3;
      let w := one;
      let s := (laneOne 0x180000).run runUps3;
      let bad : Nat := 0x180000;
      s.cellReady cell = true ∧
        s.running = true ∧
          List.findSome? (fun p => firstBeyond p.snd 4) (activeLanes (s.mReg cell w.msk.toNat) (vecOffs w cell s)) =
            some bad) ∧
    (let cell : Nat := 3;
      let w := one;
      let s := (laneOne 0x180000).run runUps3;
      let bad : Nat := 0x180000;
      s.cellReady cell = true ∧
        s.running = true ∧
          List.findSome? (fun p => firstBeyond p.snd 4) (activeLanes (s.mReg cell w.msk.toNat) (gatherAddrs cell w s)) =
            some bad) ∧
    (let cell : Nat := 3;
      let w := one;
      let s := (laneOne 0x180000).run runUps3;
      let bad : Nat := 0x180000;
      s.cellReady cell = true ∧ s.running = true ∧ firstBeyond (effAddr cell w 8 s) 8 = some bad) := by
  refine ⟨?_, ?_, ?_⟩ <;> decide +kernel
theorem witness_QueueInstructions :
    (let cell : Nat := 3;
      let w := word 0;
      let s := routed 1 0 [] dropUps;
      let r := (s.route cell 0 (w.im 0 5)).get!;
      let supp := (routeQueue r).snd && s.dropped cell;
      s.cellReady cell = true ∧ s.route cell 0 (w.im 0 5) = some r ∧ supp = true) ∧
    (let cell : Nat := 3;
      let w := word 0;
      let s := routed 0 2 [5];
      let r := (s.route cell 0 (w.im 0 5)).get!;
      let q := (routeQueue r).fst;
      let supp := (routeQueue r).snd && s.dropped cell;
      s.cellReady cell = true ∧
        s.route cell 0 (w.im 0 5) = some r ∧ supp = false ∧ s.maySend q = true ∧ s.consKind q ≠ 5) ∧
    (let cell : Nat := 3;
      let w := word 0;
      let s := routedOut 2;
      let r := (s.route cell 0 (w.im 0 5)).get!;
      let q := (routeQueue r).fst;
      let supp := (routeQueue r).snd && s.dropped cell;
      s.cellReady cell = true ∧
        s.route cell 0 (w.im 0 5) = some r ∧ supp = false ∧ s.maySend q = true ∧ s.consKind q = 5) ∧
    (let cell : Nat := 3;
      let w := word 32;
      let s := routed 0 0 [];
      let nb := w.imm.toNat.testBit 5;
      let r := (s.route cell 0 (w.im 0 5)).get!;
      let q := (routeQueue r).fst;
      let supp := (routeQueue r).snd && s.dropped cell;
      s.cellReady cell = true ∧
        s.route cell 0 (w.im 0 5) = some r ∧ supp = false ∧ s.maySend q = false ∧ nb = true) ∧
    (let cell : Nat := 3;
      let w := word 0;
      let s := routed 0 0 [];
      let nb := w.imm.toNat.testBit 5;
      let r := (s.route cell 0 (w.im 0 5)).get!;
      let q := (routeQueue r).fst;
      let supp := (routeQueue r).snd && s.dropped cell;
      s.cellReady cell = true ∧
        s.route cell 0 (w.im 0 5) = some r ∧ supp = false ∧ s.maySend q = false ∧ nb = false) ∧
    (let cell : Nat := 3;
      let w := word 0;
      let s := routed 1 0 [] dropUps;
      let r := (s.route cell 1 (w.im 0 5)).get!;
      let supp := (routeQueue r).snd && s.dropped cell;
      s.cellReady cell = true ∧ s.route cell 1 (w.im 0 5) = some r ∧ supp = true) ∧
    (let cell : Nat := 3;
      let w := word 0;
      let s := routed 0 2 [5];
      let r := (s.route cell 1 (w.im 0 5)).get!;
      let q := (routeQueue r).fst;
      let supp := (routeQueue r).snd && s.dropped cell;
      s.cellReady cell = true ∧
        s.route cell 1 (w.im 0 5) = some r ∧
          (s.queue q).buf = (s.queue q).buf.head! :: (s.queue q).buf.tail ∧ supp = false) ∧
    (let cell : Nat := 3;
      let w := word 32;
      let s := routed 0 0 [];
      let nb := w.imm.toNat.testBit 5;
      let r := (s.route cell 1 (w.im 0 5)).get!;
      let q := (routeQueue r).fst;
      let supp := (routeQueue r).snd && s.dropped cell;
      s.cellReady cell = true ∧
        s.route cell 1 (w.im 0 5) = some r ∧ supp = false ∧ (s.queue q).buf = [] ∧ nb = true) ∧
    (let cell : Nat := 3;
      let w := word 0;
      let s := routed 0 0 [];
      let nb := w.imm.toNat.testBit 5;
      let r := (s.route cell 1 (w.im 0 5)).get!;
      let q := (routeQueue r).fst;
      let supp := (routeQueue r).snd && s.dropped cell;
      s.cellReady cell = true ∧
        s.route cell 1 (w.im 0 5) = some r ∧ supp = false ∧ (s.queue q).buf = [] ∧ nb = false) ∧
    (let cell : Nat := 3;
      let w := word 0;
      let s := routed 0 0 [];
      let nb := w.imm.toNat.testBit 5;
      let r := (s.route cell (b2n nb) (w.im 0 5)).get!;
      s.cellReady cell = true ∧ s.route cell (b2n nb) (w.im 0 5) = some r) ∧
    (let cell : Nat := 3;
      let w := word 0;
      let s := (cellState []).run runUps3;
      s.cellReady cell = true ∧ s.route cell 0 (w.im 0 5) = none ∧ s.running = true) ∧
    (let cell : Nat := 3;
      let w := word 0;
      let s := (cellState []).run runUps3;
      s.cellReady cell = true ∧ s.route cell 1 (w.im 0 5) = none ∧ s.running = true) ∧
    (let cell : Nat := 3;
      let w := word 0;
      let s := (cellState []).run runUps3;
      let nb := w.imm.toNat.testBit 5;
      s.cellReady cell = true ∧ s.route cell (b2n nb) (w.im 0 5) = none ∧ s.running = true) := by
  refine ⟨?_, ?_, ?_, ?_, ?_, ?_, ?_, ?_, ?_, ?_, ?_, ?_, ?_⟩ <;> decide +kernel
theorem witness_HoldingInstructions :
    (let cell : Nat := 3;
      let w := one;
      let s := streamOne [];
      let m := s.streamsHeld cell (laneRuns cell w s (vecOffs w cell s));
      s.cellReady cell = true ∧ lanesInside cell w s (vecOffs w cell s) = true ∧ m ≠ 0) ∧
    (let cell : Nat := 3;
      let w := one;
      let s := streamOne [];
      let m := s.streamsHeld cell (laneRuns cell w s (gatherAddrs cell w s));
      s.cellReady cell = true ∧ lanesInside cell w s (gatherAddrs cell w s) = true ∧ m ≠ 0) ∧
    (let cell : Nat := 3;
      let w := one;
      let s := streamOne [];
      let m := s.streamsHeld cell [(effAddr cell w 8 s, 8)];
      s.cellReady cell = true ∧ effAddr cell w 8 s + 8 ≤ 1572864 ∧ m ≠ 0) ∧
    (let cell : Nat := 3;
      let w := word 0;
      let s : State := { aopAt (4 + 4 * 65536 + 4 * 2 ^ 32) with clay := (streaming []).clay };
      let off := wrapInt 48 (↑(s.aReg cell w.sa.toNat) + w.simm 23) / 64 * 64;
      let d := s.clampDesc cell (rawDesc (s.leAt (cellTarn cell off) 64));
      let m := s.streamsHeld cell d.reads;
      s.cellReady cell = true ∧
        beyondTarn (off, 64) = false ∧
          s.lineBad (cellTarn cell off) = false ∧
            (d.reads ++ d.writes).any beyondTarn = false ∧ m ≠ 0) ∧
    (let cell : Nat := 3;
      let s := cellState [.cells (fun c => { c with aops := [(3, [⟨0, 0, false, false, false⟩])] })];
      s.cellReady cell = true ∧ s.aopsOf cell ≠ []) ∧
    (let cell : Nat := 3;
      let w := word 2;
      let s := streaming [setF .TIER_STREAM_READY 1 2];
      let k := w.im 0 4;
      let j := w.im 4 3;
      let r := (s.streamRec k).get!;
      s.cellReady cell = true ∧
        s.streamRec k = some r ∧
          j < recGet r 1 1 ∧ (s.slotState k j = 2 ∨ s.slotState k j = 1 ∧ s.sReg cell w.sa.toNat = 0)) ∧
    (let cell : Nat := 3;
      let w := word 2;
      let s : State := { (streaming []).run [.cells (fun c => { c with s := [(99, 64#64)] })] with coll := { fetches := [⟨0, 77, 0, 0, 0, false, 0, 8, 0⟩] } };
      let k := w.im 0 4;
      let j := w.im 4 3;
      let r := (s.streamRec k).get!;
      s.cellReady cell = true ∧
        s.streamRec k = some r ∧
          j < recGet r 1 1 ∧
            s.slotState k j = 0 ∧
              s.fillBlocked r ((s.img.layersOf r).getD (layerOfFill (recGet r 4 2) (s.var Var.streamPos k)) 0)
                  (s.sReg cell w.sa.toNat) (s.sReg cell w.sb.toNat) =
                true) ∧
    (let cell : Nat := 3;
      let w := word 6;
      let s := cellState [stash true];
      let b := { cell := 3, slot := 0, tag := 6, age := 1, spilled := true, frame := 2 : StashBlk };
      s.cellReady cell = true ∧
        s.stashBlk cell (s.curSlot cell) (w.im 0 16) = some b ∧ b.spilled = true) ∧
    (let cell : Nat := 3;
      let w := word 6;
      let s := cellState (stashBad ++ [setF .TIER_CLASS_REGION_SIZE 1 256]);
      let h := (s.freeH (cellDie cell)).get!;
      let b := { cell := 3, slot := 0, tag := 9, age := 0, spilled := false, frame := 0 : StashBlk };
      s.cellReady cell = true ∧
        s.freeH (cellDie cell) = some h ∧
          s.oldestBlk cell = some b ∧
            s.stashBlk cell (s.curSlot cell) (w.im 0 16) = none ∧
              s.var Var.mbRecompute (cell * 16 + s.curSlot cell) = 0 ∧ s.freeT cell = none) ∧
    (let cell : Nat := 3;
      let s := cellState [.cells (fun c => { c with fills := [⟨3, 2, 0, 0, 0, 0, false⟩] })];
      let f := { cell := 3, stream := 2, slot := 0, lo := 0, len := 0, src := 0, bad := false : Fill };
      s.cellReady cell = true ∧ f.cell = cell) ∧
    (let cell : Nat := 3;
      let w := word 2;
      let s := streaming [setF .TIER_STREAM_READY 1 2];
      s.cellReady cell = true ∧ s.get Fld.BEAT_STATUS_PHASE < w.im 0 13) := by
  refine ⟨?_, ?_, ?_, ?_, ?_, ?_, ?_, ?_, ?_, ?_, ?_⟩ <;> decide +kernel
theorem witness_ArrayInstructions :
    (let cell : Nat := 3;
      let w := word 0;
      let s := cellState [];
      let off := wrapInt 48 (↑(s.aReg cell w.sa.toNat) + w.simm 23) / 64 * 64;
      let raw := s.leAt (cellTarn cell off) 64;
      let d := s.clampDesc cell (rawDesc raw);
      let lost := s.lineBad (cellTarn cell off);
      s.cellReady cell = true ∧
        beyondTarn (off, 64) = false ∧
          lost = false ∧
            (d.reads ++ d.writes).any beyondTarn = false ∧ s.streamsHeld cell d.reads = 0) ∧
    (let cell : Nat := 3;
      let w := word 0;
      let s := (aopAt (4 + 4 * 65536)).run [.unitErr (cellTarn 3 0) 2];
      let off := wrapInt 48 (↑(s.aReg cell w.sa.toNat) + w.simm 23) / 64 * 64;
      let lost := s.lineBad (cellTarn cell off);
      s.cellReady cell = true ∧ beyondTarn (off, 64) = false ∧ lost = true) ∧
    (let cell : Nat := 3;
      let w := word 0;
      let s := (edge 0x180000).run runUps3;
      let off := wrapInt 48 (↑(s.aReg cell w.sa.toNat) + w.simm 23) / 64 * 64;
      let raw := s.leAt (cellTarn cell off) 64;
      let d := s.clampDesc cell (rawDesc raw);
      let lost := s.lineBad (cellTarn cell off);
      s.cellReady cell = true ∧
        (beyondTarn (off, 64) = true ∨ lost = false ∧ (d.reads ++ d.writes).any beyondTarn = true)) ∧
    (let cell : Nat := 3;
      let s := cellState [];
      s.cellReady cell = true ∧ s.aopsOf cell = []) := by
  refine ⟨?_, ?_, ?_, ?_⟩ <;> decide +kernel
theorem witness_StreamInstructions :
    (let cell : Nat := 3;
      let w := word 2;
      let s := streaming [];
      let k := w.im 0 4;
      let j := w.im 4 3;
      let lo := s.sReg cell w.sa.toNat;
      let len := s.sReg cell w.sb.toNat;
      let r := (s.streamRec k).get!;
      let n := layerOfFill (recGet r 4 2) (s.var Var.streamPos k);
      s.cellReady cell = true ∧
        s.streamRec k = some r ∧
          j < recGet r 1 1 ∧
            s.slotState k j = 0 ∧ s.fillBlocked r ((s.img.layersOf r).getD n 0) lo len = false) ∧
    (let cell : Nat := 3;
      let w := word 2;
      let s := (streaming [setF .TIER_STREAM_FILLING 1 2]).run full;
      let k := w.im 0 4;
      let j := w.im 4 3;
      let lo := s.sReg cell w.sa.toNat;
      let len := s.sReg cell w.sb.toNat;
      let r := (s.streamRec k).get!;
      s.cellReady cell = true ∧
        s.streamRec k = some r ∧
          j < recGet r 1 1 ∧
            s.slotState k j = 1 ∧
              0 < lo ∧
                s.fillBlocked r ((s.img.layersOf r).getD (s.var Var.slotLayer (k * 8 + j)) 0) lo len =
                  false) ∧
    (let cell : Nat := 3;
      let w := word 0x72;
      let s := streaming [];
      let k := w.im 0 4;
      let j := w.im 4 3;
      let r := (s.streamRec k).get!;
      s.cellReady cell = true ∧ s.streamRec k = some r ∧ recGet r 1 1 ≤ j) ∧
    (let cell : Nat := 3;
      let w := word 0;
      let s := streaming [];
      let k := w.im 0 4;
      s.cellReady cell = true ∧ s.streamRec k = none) ∧
    (let cell : Nat := 3;
      let w := word 2;
      let s := streaming [];
      let k := w.im 0 4;
      s.cellReady cell = true ∧ (s.streamRec k).isSome = true) := by
  refine ⟨?_, ?_, ?_, ?_, ?_⟩ <;> decide +kernel
theorem witness_StashInstructions :
    (let cell : Nat := 3;
      let w := word 6;
      let s := cellState [];
      let tag := w.im 0 16;
      let slot := s.curSlot cell;
      s.cellReady cell = true ∧ s.stashBlk cell slot tag = none) ∧
    (let cell : Nat := 3;
      let w := word 6;
      let s := cellState [stash false];
      let tag := w.im 0 16;
      let slot := s.curSlot cell;
      let b := { cell := 3, slot := 0, tag := 6, age := 1, spilled := false, frame := 2 : StashBlk };
      s.cellReady cell = true ∧ s.stashBlk cell slot tag = some b ∧ b.spilled = false) ∧
    (let cell : Nat := 3;
      let w := word 6;
      let s := stashState [];
      let tag := w.im 0 16;
      let slot := s.curSlot cell;
      let f := (s.freeT cell).get!;
      s.cellReady cell = true ∧
        s.freeT cell = some f ∧
          s.stashBlk cell slot tag = none ∧ s.var Var.mbRecompute (cell * 16 + slot) = 0) ∧
    (let cell : Nat := 3;
      let w := word 6;
      let s := cellState [.var .mbRecompute (3 * 16) 1];
      let tag := w.im 0 16;
      let slot := s.curSlot cell;
      s.cellReady cell = true ∧
        s.stashBlk cell slot tag = none ∧
          s.var Var.mbRecompute (cell * 16 + slot) = 1 ∧ tag.testBit 15 = false) ∧
    (let cell : Nat := 3;
      let w := word 0x8006;
      let s := cellState [];
      let tag := w.im 0 16;
      let slot := s.curSlot cell;
      s.cellReady cell = true ∧
        s.stashBlk cell slot tag = none ∧
          s.freeT cell = none ∧ s.freeH (cellDie cell) = none ∧ tag.testBit 15 = true ∧ slot < 8) ∧
    (let cell : Nat := 3;
      let s := cellState [];
      s.cellReady cell = true) := by
  refine ⟨?_, ?_, ?_, ?_, ?_, ?_⟩ <;> decide +kernel

/-! Control flow, traps and slices. -/

def loops (n : Nat) : Upd := .cells (fun c => { c with loops := [(3, List.replicate n ⟨2, 2, 4, 0⟩)] })
def sreg (v : Nat) : Upd := .cells (fun c => { c with s := [(3 * 32 + 2, BitVec.ofNat 64 v)] })
/-- An immediate with a condition code of a branch. -/
def brc (c : Nat) : CellWord := word (c * 2 ^ 19 + 7)
def brm (c : Nat) : CellWord := word (c * 2 ^ 21 + 7)
def runUps : List Upd := [setF .BEAT_STATUS_STATE 1]
def pastState : State := cellState (runUps ++ [setF .CELL_SEQ_STATUS_PC 100 3])
def sliceState (st slot : Nat) : State := cellState [.slices (fun _ => [⟨0, 3, 0, slot, st, 0⟩])]
def heldState (opc : Nat) (w : CellWord) (img : Image := {}) : State :=
  cellImg img [setF .CELL_SEQ_STATUS_STATE 2 3, .cells (fun c => { c with held := [(3, some (opc, w))] })]
/-- Queue 9 comes from another module with a deadline. -/
def deadImg : Image := { secs := [(2, [3 + 32 * 256 + 9 * 65536]), (3, [9 + 5 * 2 ^ 32 + 2 ^ 96])] }
def opDesc (m n : Nat) : Nat := m + n * 65536
def arrayState (d : Nat) : State := cellState [.cells (fun c => { c with aops := [(3, [⟨0, d, false, false, false⟩])] })]
def filling : State := streaming [.cells (fun c => { c with fills := [⟨3, 2, 1, 0, 0, 0, false⟩] })]
def arrayOps (us : List Upd) : State := cellState us
def opWith (d : Nat) (f : ArrOp → ArrOp) : ArrOp := f ⟨0, d, false, false, false⟩
def opState (d : Nat) (f : ArrOp → ArrOp) : State := cellState [.cells (fun c => { c with aops := [(3, [opWith d f])] })]
def trapped : State := cellState [setF .CELL_SEQ_STATUS_STATE 3 3, setF .BEAT_STATUS_STATE 2]
def phased (p : Nat) (s : State) : State := s.run [setF .BEAT_STATUS_PHASE p]

theorem witness_ControlFlow :
    (let cell : Nat := 3;
      let s := cellState [];
      s.cellReady cell = true) ∧
    (let cell : Nat := 3;
      let s := cellState [];
      s.cellReady cell = true ∧ s.cells.fills = []) ∧
    (let cell : Nat := 3;
      let w := word 0;
      let s := cellState [];
      s.cellReady cell = true ∧ w.im 0 13 ≤ s.get Fld.BEAT_STATUS_PHASE) ∧
    (let cell : Nat := 3;
      let w := word 0;
      let s := cellState [];
      let pc := s.get Fld.CELL_SEQ_STATUS_PC cell;
      s.cellReady cell = true ∧
        0 ≤ ↑pc + w.simm 23 ∧
          ↑pc + w.simm 23 < ↑(s.get Fld.CELL_SEQ_PROG_LENGTH cell) ∧ ↑pc + w.simm 23 < 32768) ∧
    (let cell : Nat := 3;
      let w := word 0;
      let s := cellState [];
      let pc := s.get Fld.CELL_SEQ_STATUS_PC cell;
      let v := s.sReg cell w.sa.toNat;
      let cond := (legalCode (w.im 19 4) 4 0).fst;
      let taken := cond = 0 ∧ v = 0 ∨ cond = 1 ∧ v ≠ 0 ∨ cond = 2 ∧ sext 64 v < 0 ∨ cond = 3 ∧ 0 ≤ sext 64 v;
      s.cellReady cell = true ∧
        taken ∧
          0 ≤ ↑pc + w.simm 19 ∧
            ↑pc + w.simm 19 < ↑(s.get Fld.CELL_SEQ_PROG_LENGTH cell) ∧ ↑pc + w.simm 19 < 32768) ∧
    (let cell : Nat := 3;
      let w := brc 1;
      let s := cellState [];
      let v := s.sReg cell w.sa.toNat;
      let cond := (legalCode (w.im 19 4) 4 0).fst;
      let taken := cond = 0 ∧ v = 0 ∨ cond = 1 ∧ v ≠ 0 ∨ cond = 2 ∧ sext 64 v < 0 ∨ cond = 3 ∧ 0 ≤ sext 64 v;
      s.cellReady cell = true ∧ ¬taken) ∧
    (let cell : Nat := 3;
      let w := brm 1;
      let s := cellState [];
      let pc := s.get Fld.CELL_SEQ_STATUS_PC cell;
      let m := s.mReg cell w.sa.toNat;
      let mtaken :=
        w.im 21 2 = 0 ∧ m ≠ 0 ∨ w.im 21 2 = 1 ∧ m = 0 ∨ w.im 21 2 = 2 ∧ m = 2 ^ 64 - 1 ∨ w.im 21 2 = 3 ∧ m ≠ 2 ^ 64 - 1;
      s.cellReady cell = true ∧
        mtaken ∧
          0 ≤ ↑pc + w.simm 21 ∧
            ↑pc + w.simm 21 < ↑(s.get Fld.CELL_SEQ_PROG_LENGTH cell) ∧ ↑pc + w.simm 21 < 32768) ∧
    (let cell : Nat := 3;
      let w := word 0;
      let s := cellState [];
      let m := s.mReg cell w.sa.toNat;
      let mtaken :=
        w.im 21 2 = 0 ∧ m ≠ 0 ∨ w.im 21 2 = 1 ∧ m = 0 ∨ w.im 21 2 = 2 ∧ m = 2 ^ 64 - 1 ∨ w.im 21 2 = 3 ∧ m ≠ 2 ^ 64 - 1;
      s.cellReady cell = true ∧ ¬mtaken) ∧
    (let cell : Nat := 3;
      let w := word 7;
      let s := cellState [sreg 9];
      let pc := s.get Fld.CELL_SEQ_STATUS_PC cell;
      let v := s.sReg cell w.sa.toNat;
      let n := if w.sa.toNat % 32 = 0 then w.im 12 11 else v;
      s.cellReady cell = true ∧ n ≠ 0 ∧ (s.loopsOf cell).length < 4 ∧ pc + 1 < 32768) := by
  refine ⟨?_, ?_, ?_, ?_, ?_, ?_, ?_, ?_, ?_⟩ <;> decide +kernel
theorem witness_TrappingInstructions :
    (let cell : Nat := 3;
      let s := cellState runUps;
      let opc := 0;
      s.cellReady cell = true ∧ s.running = true ∧ definedOpc opc = false) ∧
    (let cell : Nat := 3;
      let s := cellState runUps;
      s.cellReady cell = true ∧ s.running = true) ∧
    (let cell : Nat := 3;
      let s := cellState (runUps ++ [loops 4]);
      s.cellReady cell = true ∧ s.running = true ∧ 4 ≤ (s.loopsOf cell).length) ∧
    (let cell : Nat := 3;
      let w := word 500;
      let s := cellState runUps;
      let pc := s.get Fld.CELL_SEQ_STATUS_PC cell;
      let target := ↑pc + w.simm 23;
      s.cellReady cell = true ∧
        s.running = true ∧ (target < 0 ∨ ↑(s.get Fld.CELL_SEQ_PROG_LENGTH cell) ≤ target)) := by
  refine ⟨?_, ?_, ?_, ?_⟩ <;> decide +kernel
theorem witness_PastProgramTraps :
    (let cell : Nat := 3;
      let s := pastState;
      cell < 144 ∧
        s.get Fld.CELL_SEQ_STATUS_STATE cell = 1 ∧
          s.get Fld.CELL_SEQ_PROG_LENGTH cell ≤ s.get Fld.CELL_SEQ_STATUS_PC cell ∧ s.running = true) := by decide +kernel
theorem witness_SliceEnds :
    (let cell : Nat := 3;
      let s := sliceState 1 0;
      s.cellReady cell = true ∧ s.nextSlice 0 cell = none) ∧
    (let cell : Nat := 3;
      let s := (sliceState 1 0).run [.slices (fun _ => [⟨0, 3, 0, 0, 1, 0⟩, ⟨0, 3, 4, 1, 0, 0⟩]), setF .BEAT_STATUS_STATE 1];
      let x := { kind := 0, index := 3, target := 4, slot := 1 : Slice };
      s.cellReady cell = true ∧
        s.nextSlice 0 cell = some x ∧
          x.target < s.get Fld.CELL_SEQ_PROG_LENGTH cell ∧
            x.target < 32768 ∧ x.slot < 16 ∧ Sparse.get 0 s.clay.planeBad cell = 0) := by
  refine ⟨?_, ?_⟩ <;> decide +kernel
theorem witness_SlicesRetireAndHoldsEnd :
    (let s := (sliceState 2 0).run [.slices (fun _ => [⟨0, 3, 0, 0, 2, 1⟩])];
      let kind := 0;
      let index := 3;
      let done := fun y => y.kind == kind && y.index == index && y.st == 2;
      let x := { kind := 0, index := 3, target := 0, slot := 0, st := 2, ops := 1 : Slice };
      List.find? done s.slices = some x ∧ x.ops ≠ 0) ∧
    (let s := sliceState 2 15;
      let kind := 0;
      let index := 3;
      let done := fun y => y.kind == kind && y.index == index && y.st == 2;
      let x := { kind := 0, index := 3, target := 0, slot := 15, st := 2 : Slice };
      List.find? done s.slices = some x ∧
        x.ops = 0 ∧ (kind = 2 → (Sparse.get [] s.spring.link index).any LinkItem.isRecord = false)) ∧
    (let s := (heldState 0x77 (word 9)).run [setF .CELL_SEQ_STATUS_HOLD_REASON 7 3];
      let cell := 3;
      Sparse.get none s.cells.held cell =
          some
            (119,
              (119,
                  { dst := 1#6, sa := 2#6, sb := 3#6, sc := 4#6, msk := 0#4, mmode := false, fmt := 0#4, imm := 9#23 :
                    CellWord }).snd) ∧
        s.get Fld.CELL_SEQ_STATUS_STATE cell = 2 ∧
          s.get Fld.CELL_SEQ_STATUS_HOLD_REASON cell = 7 ∧
            s.get Fld.BEAT_STATUS_PHASE <
              (119,
                      { dst := 1#6, sa := 2#6, sb := 3#6, sc := 4#6, msk := 0#4, mmode := false, fmt := 0#4, imm := 9#23 :
                        CellWord }).snd.im
                0 13) ∧
    (let s := (heldState 0x77 (word 0)).run [setF .CELL_SEQ_STATUS_HOLD_REASON 7 3];
      let cell := 3;
      Sparse.get none s.cells.held cell =
          some
            (119,
              (119,
                  { dst := 1#6, sa := 2#6, sb := 3#6, sc := 4#6, msk := 0#4, mmode := false, fmt := 0#4, imm := 0#23 :
                    CellWord }).snd) ∧
        s.get Fld.CELL_SEQ_STATUS_STATE cell = 2 ∧
          s.get Fld.CELL_SEQ_STATUS_HOLD_REASON cell = 7 ∧
            (119,
                        { dst := 1#6, sa := 2#6, sb := 3#6, sc := 4#6, msk := 0#4, mmode := false, fmt := 0#4,
                          imm := 0#23 : CellWord }).snd.im
                  0 13 ≤
                s.get Fld.BEAT_STATUS_PHASE ∧
              (settle (s.get Fld.CELL_SEQ_STATUS_PC cell + 1) (s.loopsOf cell)).fst < 32768) ∧
    (let s := sliceState 2 15;
      let cell := 3;
      Sparse.get none s.cells.held cell = none ∧ s.get Fld.CELL_SEQ_STATUS_STATE cell = 1) := by
  refine ⟨?_, ?_, ?_, ?_, ?_⟩ <;> decide +kernel
theorem witness_SequencerEvents :
    (let cell : Nat := 3;
      let s := heldState 0x61 (word 0) deadImg;
      let r :=
        (s.route cell 1
            ((97,
                    { dst := 1#6, sa := 2#6, sb := 3#6, sc := 4#6, msk := 0#4, mmode := false, fmt := 0#4, imm := 0#23 :
                      CellWord }).snd.im
              0 5)).get!;
      cell < 144 ∧
        Sparse.get none s.cells.held cell =
            some
              (97,
                (97,
                    { dst := 1#6, sa := 2#6, sb := 3#6, sc := 4#6, msk := 0#4, mmode := false, fmt := 0#4, imm := 0#23 :
                      CellWord }).snd) ∧
          s.route cell 1
                ((97,
                        { dst := 1#6, sa := 2#6, sb := 3#6, sc := 4#6, msk := 0#4, mmode := false, fmt := 0#4,
                          imm := 0#23 : CellWord }).snd.im
                  0 5) =
              some r ∧
            s.get Fld.CELL_SEQ_STATUS_STATE cell = 2 ∧
              s.get Fld.CELL_SEQ_STATUS_HOLD_REASON cell ≠ 4 ∧
                s.prodKind (routeQueue r).fst = 5 ∧
                  recGet ((s.img.queueRec (routeQueue r).fst).getD 0) 12 1 = 1 ∧
                    (settle (s.get Fld.CELL_SEQ_STATUS_PC cell + 1) (s.loopsOf cell)).fst < 32768) ∧
    (let cell : Nat := 3;
      let s := trapped;
      cell < 144 ∧ s.get Fld.CELL_SEQ_STATUS_STATE cell = 3 ∧ s.inHold = true) ∧
    (let cell : Nat := 3;
      let s := heldState 0x61 (word 0) deadImg;
      cell < 144 ∧ (s.get Fld.CELL_SEQ_STATUS_STATE cell ≠ 3 ∨ s.inHold = false)) ∧
    (let cell : Nat := 3;
      let s := cellState runUps;
      cell < 144 ∧ s.get Fld.CELL_SEQ_STATUS_STATE cell = 1 ∧ s.running = true) := by
  refine ⟨?_, ?_, ?_, ?_⟩ <;> decide +kernel
theorem witness_ArrayOperationsRetire :
    (let cell : Nat := 3;
      let s := arrayState (opDesc 4 4);
      let o : ArrOp := ⟨0, opDesc 4 4, false, false, false⟩;
      let rest : List ArrOp := [];
      cell < 144 ∧
        s.aopsOf cell = o :: rest ∧
          o.tile = false ∧ o.empty = false ∧ (rest.any fun x => x.tile) = false) ∧
    (let cell : Nat := 3;
      let s := opState (opDesc 4 4) (fun o => { o with lost := true });
      let o := opWith (opDesc 4 4) (fun o => { o with lost := true });
      let rest : List ArrOp := [];
      cell < 144 ∧ s.aopsOf cell = o :: rest ∧ o.lost = true) ∧
    (let cell : Nat := 3;
      let s := arrayState (opDesc 0 4);
      let o : ArrOp := ⟨0, opDesc 0 4, false, false, false⟩;
      let rest : List ArrOp := [];
      let d := s.clampDesc cell (rawDesc o.desc);
      cell < 144 ∧ s.aopsOf cell = o :: rest ∧ o.lost = false ∧ (d.m = 0 ∨ d.n = 0)) ∧
    (let cell : Nat := 3;
      let s := opState (opDesc 4 4) (fun o => { o with tile := true });
      let o := opWith (opDesc 4 4) (fun o => { o with tile := true });
      let rest : List ArrOp := [];
      let d := s.clampDesc cell (rawDesc o.desc);
      cell < 144 ∧
        s.aopsOf cell = o :: rest ∧
          o.lost = false ∧ d.m ≠ 0 ∧ d.n ≠ 0 ∧ o.tile = true ∧ o.drop = false ∧ d.keep = false) ∧
    (let cell : Nat := 3;
      let s := opState (opDesc 4 4 + 2 ^ 84) (fun o => { o with tile := true });
      let o := opWith (opDesc 4 4 + 2 ^ 84) (fun o => { o with tile := true });
      let rest : List ArrOp := [];
      let d := s.clampDesc cell (rawDesc o.desc);
      cell < 144 ∧
        s.aopsOf cell = o :: rest ∧
          o.lost = false ∧ d.m ≠ 0 ∧ d.n ≠ 0 ∧ o.tile = true ∧ d.keep = true) := by
  refine ⟨?_, ?_, ?_, ?_, ?_⟩ <;> decide +kernel
theorem witness_TarnAndStreamEvents :
    (let tarn := 0;
      let asks := 1;
      tarnOk tarn = true ∧ asks % 64 ≠ 0) ∧
    (let s := mk [.var .slotRelease (2 * 8 + 1) 1];
      let k := 2;
      let j := 1;
      k < 16 ∧ j < 8 ∧ s.var Var.slotRelease (k * 8 + j) = 1) ∧
    (let s := filling;
      let k := 2;
      let j := 1;
      s.cells.fills = [{ cell := 3, stream := 2, slot := 1, lo := 0, len := 0, src := 0, bad := false : Fill }] ∧
        { cell := 3, stream := 2, slot := 1, lo := 0, len := 0, src := 0, bad := false : Fill }.stream = k ∧
          { cell := 3, stream := 2, slot := 1, lo := 0, len := 0, src := 0, bad := false : Fill }.slot = j ∧
            k < 16 ∧ j < 8) ∧
    (let s := mk [.var .mbDropNext 5 3, .var .mbDropNext 0 1];
      let k := 0;
      let cause := 1;
      k < 8 ∧ s.var Var.mbDropNext k = cause ∧ cause ≠ 0) := by
  refine ⟨?_, ?_, ?_, ?_⟩ <;> decide +kernel

/-! The beat, HOLD and the image. -/

def beatState (us : List Upd := []) : State := mk ([setF .BEAT_STATUS_STATE 1] ++ us)
def unretired : Upd := .slices (fun _ => [⟨0, 3, 0, 0, 1, 0⟩])
def dueState (us : List Upd := []) : State := beatState ([.var .boundaryDue 0 1] ++ us)
def flipState : State :=
  dueState [setF .CLAY_STATUS_ARMED 1, setF .CLAY_FLIP_BEAT_BEAT 1, .clay (fun c => { c with shadow := some {} })]
def imaged (us : List Upd) : State := mk ([.clay (fun c => { c with active := some {} })] ++ us)
def pausing (cause : Nat) : State := imaged [setF .BEAT_STATUS_STATE 2, setF .BEAT_STATUS_HOLD_CAUSE cause]
def passing : State := { State.reset with queues := [(7, { depth := 4, gen := 3, flight := [(5, 3), (6, 2)], back := [3, 2] })] }
def readyState : State :=
  beatState [setF .CLAY_STATUS_LOAD_STATE 4, setF .CLAY_FLIP_BEAT_BEAT 9]
/-- Queue 7 feeds cell 3, whose QUEUE region holds its buffer. -/
def tarnQueue (fl : List (Token × Nat)) : State :=
  { mk [] with
    clay := { active := some { secs := [(3, [7 + 4 * 2 ^ 16 + 3 * 2 ^ 64])] } }
    queues := [(7, { depth := 4, gen := 3, flight := fl })] }
def moving (fl : List (Token × Nat)) (bk : List Nat) : State :=
  { State.reset with queues := [(7, { depth := 4, gen := 3, flight := fl, back := bk })] }

theorem witness_RetireCheck :
    (let s := beatState [];
      s.running = true ∧
        s.var Var.boundaryDue = 0 ∧
          s.var Var.stretchNow = 0 ∧ s.var Var.holdDue = 0 ∧ s.allRetired = true) ∧
    (let s := beatState [unretired, setF .BEAT_STRETCH_LIMIT 5];
      s.running = true ∧
        s.var Var.boundaryDue = 0 ∧
          s.var Var.stretchNow = 0 ∧
            s.var Var.holdDue = 0 ∧ s.allRetired = false ∧ s.get Fld.BEAT_STRETCH_LIMIT ≠ 0) ∧
    (let s := beatState [unretired];
      s.running = true ∧
        s.var Var.boundaryDue = 0 ∧
          s.var Var.stretchNow = 0 ∧
            s.var Var.holdDue = 0 ∧ s.allRetired = false ∧ s.get Fld.BEAT_STRETCH_LIMIT = 0) := by
  refine ⟨?_, ?_, ?_⟩ <;> decide +kernel
theorem witness_StretchSamples :
    (let s := beatState [.var .stretchNow 0 4, setF .BEAT_STRETCH_LIMIT 5];
      let x : Nat := 3;
      let n : Nat := 1;
      s.running = true ∧
        s.var Var.boundaryDue = 0 ∧
          s.var Var.stretchNow = x + 1 ∧
            n ≠ 0 ∧ x + n ≤ s.get Fld.BEAT_STRETCH_LIMIT ∧ x + n ≤ 4096 ∧ s.allRetired = true) ∧
    (let s := beatState [unretired, .var .stretchNow 0 4, setF .BEAT_STRETCH_LIMIT 5];
      let x : Nat := 3;
      let n : Nat := 1;
      s.running = true ∧
        s.var Var.boundaryDue = 0 ∧
          s.var Var.stretchNow = x + 1 ∧
            n ≠ 0 ∧
              x + n ≤ s.get Fld.BEAT_STRETCH_LIMIT ∧
                x + n ≤ 4096 ∧ s.allRetired = false ∧ x + n < s.get Fld.BEAT_STRETCH_LIMIT) ∧
    (let s := beatState [unretired, .var .stretchNow 0 4, setF .BEAT_STRETCH_LIMIT 4];
      let x : Nat := 3;
      let n : Nat := 1;
      s.running = true ∧
        s.var Var.boundaryDue = 0 ∧
          s.var Var.stretchNow = x + 1 ∧
            n ≠ 0 ∧
              x + n ≤ s.get Fld.BEAT_STRETCH_LIMIT ∧
                x + n ≤ 4096 ∧ s.allRetired = false ∧ x + n = s.get Fld.BEAT_STRETCH_LIMIT) := by
  refine ⟨?_, ?_, ?_⟩ <;> decide +kernel
theorem witness_BoundaryCountsAndCommits :
    (let s := dueState [];
      s.running = true ∧ s.var Var.boundaryDue ≠ 0 ∧ s.fmp.lateFor = none) ∧
    (let s := beatState [];
      s.running = true ∧ s.var Var.boundaryDue = 0) ∧
    (let s := flipState;
      let n := { : Image };
      let ahead := 1;
      s.running = true ∧
        s.clay.shadow = some n ∧
          s.get Fld.CLAY_STATUS_ARMED = 1 ∧
            s.flipBeat = s.beatAhead ahead ∧
              (s.var Var.boundaryDue = 1 ∧ ahead = 1 ∨ s.var Var.boundaryDue = 3 ∧ ahead = 0)) ∧
    (let s := dueState [setF .PWR_STATUS_COMMIT_PENDING 1, .shadow .PWR_CFG_PAD_FLOOR 0 300];
      let block := 11;
      let unit := 0;
      s.running = true ∧ s.var Var.boundaryDue = 1 ∧ commitFlag block unit s = true) ∧
    (let s := dueState [setF .PWR_STATUS_COMMIT_PENDING 1, .shadow .PWR_CFG_PAD_FLOOR 0 300];
      let v := 300;
      s.running = true ∧
        s.var Var.boundaryDue = 1 ∧
          s.get Fld.PWR_STATUS_COMMIT_PENDING = 1 ∧ s.shadowOf Fld.PWR_CFG_PAD_FLOOR = v ∧ v ≤ 4096) ∧
    (let s := dueState [.var .boundaryDue 0 2];
      s.running = true ∧ s.var Var.boundaryDue ≠ 1) := by
  refine ⟨?_, ?_, ?_, ?_, ?_, ?_⟩ <;> decide +kernel
theorem witness_StartOpensBeatZero :
    (let s := imaged [];
      s.stopped = true ∧ s.clay.active.isSome = true ∧ s.cellsOk = true) ∧
    (let s := mk [];
      s.stopped = false ∨ s.clay.active = none ∨ s.cellsOk = false) ∧
    (let s := imaged [.var .startAt 0 1];
      s.stopped = true ∧ s.var Var.startAt ≠ 0) ∧
    (let s := imaged [];
      s.stopped = false ∨ s.var Var.startAt = 0) := by
  refine ⟨?_, ?_, ?_, ?_⟩ <;> decide +kernel
theorem witness_HoldIsEntered :
    (let s := beatState [.var .holdDue 0 1];
      s.running = true ∧ s.var Var.holdDue = 1) ∧
    (let s := beatState [.var .faultPending 0 1];
      s.running = false ∨ s.var Var.holdDue ≠ 1) ∧
    (let s := beatState [.var .holdDue 0 1, .var .faultPending 0 1];
      s.running = true ∧ s.var Var.faultPending = 1 ∧ s.var Var.boundaryDue = 0) ∧
    (let s := dueState [.var .faultPending 0 1];
      s.running = true ∧ s.var Var.faultPending = 1 ∧ s.var Var.boundaryDue ≠ 0) ∧
    (let s := beatState [.var .holdDue 0 1];
      s.running = false ∨ s.var Var.faultPending ≠ 1) := by
  refine ⟨?_, ?_, ?_, ?_, ?_⟩ <;> decide +kernel
theorem witness_ResumeLeavesHold :
    (let s := pausing 1;
      s.inHold = true ∧ s.mayResume = true ∧ s.var Var.boundaryDue ≠ 1) ∧
    (let s := (pausing 1).run [.var .boundaryDue 0 1];
      s.inHold = true ∧ s.mayResume = true ∧ s.var Var.boundaryDue = 1) ∧
    (let s := pausing 2;
      s.inHold = true ∧ s.mayResume = false) ∧
    (let s := mk [];
      s.inHold = false) := by
  refine ⟨?_, ?_, ?_, ?_⟩ <;> decide +kernel
theorem witness_TokensAndCreditsArrive :
    (let q : Nat := 7;
      let s := moving [] [];
      (∀ h ∈ s.coll.roots, h.issued = false ∨ h.own.isSome = true) ∧
        (s.queue q).flight = []) ∧
    (let q : Nat := 7;
      let s := moving [(6, 2)] [2];
      (∀ h ∈ s.coll.roots, h.issued = false ∨ h.own.isSome = true) ∧
        (s.queue q).flight = ((s.queue q).flight.head!.fst, (s.queue q).flight.head!.snd) :: (s.queue q).flight.tail ∧
          (s.queue q).flight.head!.snd ≠ (s.queue q).gen) ∧
    (let q : Nat := 7;
      let s := passing;
      (∀ h ∈ s.coll.roots, h.issued = false ∨ h.own.isSome = true) ∧
        (s.queue q).flight = ((s.queue q).flight.head!.fst, (s.queue q).flight.head!.snd) :: (s.queue q).flight.tail ∧
          (s.queue q).flight.head!.snd = (s.queue q).gen ∧ s.tokenAddr q (s.var Var.qPlace q) = none) ∧
    (let q : Nat := 7;
      let s := tarnQueue [(5, 3)];
      let a := (s.tokenAddr q (s.var Var.qPlace q)).get!;
      (∀ h ∈ s.coll.roots, h.issued = false ∨ h.own.isSome = true) ∧
        (s.queue q).flight = ((s.queue q).flight.head!.fst, (s.queue q).flight.head!.snd) :: (s.queue q).flight.tail ∧
          s.tokenAddr q (s.var Var.qPlace q) = some a ∧
            (s.queue q).flight.head!.snd = (s.queue q).gen) ∧
    (let q : Nat := 7;
      let s := moving [] [];
      Sparse.get [] s.xport.outbox q = [] ∧
        s.var Var.qHeldAt q = 0 ∧
          s.prodKind q ≠ 6 ∧
            (∀ p ∈ s.xport.conns, p.snd.ready = []) ∧ (s.queue q).back = []) ∧
    (let q : Nat := 7;
      let s := passing;
      Sparse.get [] s.xport.outbox q = [] ∧
        s.var Var.qHeldAt q = 0 ∧
          s.prodKind q ≠ 6 ∧
            (∀ p ∈ s.xport.conns, p.snd.ready = []) ∧
              (s.queue q).back = (s.queue q).back.head! :: (s.queue q).back.tail) := by
  refine ⟨?_, ?_, ?_, ?_, ?_, ?_⟩ <;> decide +kernel
theorem witness_LoadAndCancel :
    (let s := mk [];
      let busy := s.loading = true ∨ s.running = true ∧ s.get Fld.CLAY_STATUS_ARMED = 1;
      ¬busy) ∧
    (let s := mk [setF .CLAY_STATUS_LOAD_STATE 2];
      let busy := s.loading = true ∨ s.running = true ∧ s.get Fld.CLAY_STATUS_ARMED = 1;
      busy) ∧
    (let s := mk [setF .CLAY_STATUS_LOAD_STATE 2];
      s.loading = true) ∧
    (let s := beatState [setF .CLAY_STATUS_ARMED 1, setF .CLAY_FLIP_BEAT_BEAT 9];
      s.loading = false ∧ s.get Fld.CLAY_STATUS_ARMED = 1 ∧ s.flipBeat ≠ s.beatAhead 0) ∧
    (let s := mk [];
      s.loading = false ∧ (s.get Fld.CLAY_STATUS_ARMED ≠ 1 ∨ s.flipBeat = s.beatAhead 0)) := by
  refine ⟨?_, ?_, ?_, ?_, ?_⟩ <;> decide +kernel
theorem witness_LoadPasses :
    (let s := mk [setF .CLAY_STATUS_LOAD_STATE 1];
      s.get Fld.CLAY_STATUS_LOAD_STATE = 1) ∧
    (let s := mk [setF .CLAY_STATUS_LOAD_STATE 2];
      s.get Fld.CLAY_STATUS_LOAD_STATE = 2) ∧
    (let s := mk [setF .CLAY_STATUS_LOAD_STATE 3];
      s.get Fld.CLAY_STATUS_LOAD_STATE = 3 ∧ s.changedError ≠ 0) ∧
    (let s := beatState [setF .CLAY_STATUS_LOAD_STATE 3, .clay (fun c => { c with staged := List.replicate 128 0 })];
      s.get Fld.CLAY_STATUS_LOAD_STATE = 3 ∧ s.changedError = 0 ∧ s.running = true) ∧
    (let s := mk [setF .CLAY_STATUS_LOAD_STATE 3, .clay (fun c => { c with staged := List.replicate 128 0 })];
      s.get Fld.CLAY_STATUS_LOAD_STATE = 3 ∧ s.changedError = 0 ∧ s.running = false) := by
  refine ⟨?_, ?_, ?_, ?_, ?_⟩ <;> decide +kernel
theorem witness_ArmAndQuiesce :
    (let s := beatState [.var .quiesce 0 1, unretired];
      s.running = true ∧ s.var Var.quiesce = 1 ∧ s.slices ≠ []) ∧
    (let s := readyState;
      s.running = false ∨ s.var Var.quiesce ≠ 1 ∨ s.slices = []) := by
  refine ⟨?_, ?_⟩ <;> decide +kernel
theorem witness_CommitsAndFlushes :
    (let s := beatState [setF .CLAY_COMMIT_GROUP_MASK 0x11];
      s.running = true) ∧
    (let s := mk [setF .TIER_STATUS_HOT_FLUSH_BUSY 1];
      s.running = false) ∧
    (let s := mk [setF .TIER_STATUS_HOT_FLUSH_BUSY 1];
      s.get Fld.TIER_STATUS_HOT_FLUSH_BUSY = 1 ∧ (s.var Var.flushWait ≠ 1 ∨ s.rows.log = [])) ∧
    (let s := beatState [setF .CLAY_COMMIT_GROUP_MASK 0x11];
      s.get Fld.TIER_STATUS_HOT_FLUSH_BUSY = 0 ∨ s.var Var.flushWait = 1 ∧ s.rows.log ≠ []) := by
  refine ⟨?_, ?_, ?_, ?_⟩ <;> decide +kernel

/-! Rows, embedding units, Silt and Drift. -/

/-- The key of row 7 of table 1, its home stack, and the table: 4 FP32 elements, 1 bucket, 4 Drift-area slots. -/
def rKey : Nat := 2 ^ 48 + 7
def rStack : Nat := homeStack rKey
def rTab : Nat :=
  1 + 4 * 2 ^ 16 + 2 ^ 57 + 100 * 2 ^ 64 + 2 ^ 128 + 4 * 2 ^ 160 + 0x10000 * 2 ^ 192 + 32 * 2 ^ 256
def noPrev : Nat := 0xFFFF * 2 ^ 656
def rowState (us : List Upd) (hdr : Nat := noPrev) : State :=
  { mk (.bytes (rStack * 0x1000000000 + 0x10000) (leBytes 8 (2 ^ 48 + 7)) :: us) with
    clay := { active := some { hdr := hdr, secs := [(9, [rTab])] } } }
def runs : List Upd := [setF .BEAT_STATUS_STATE 1, setF .BEAT_STEP_STEP 5, setF .BEAT_COUNT_COUNT 90]
def inDrift : Upd := .rows (fun r => { r with dmap := [((rStack * 2 ^ 18 + dmSet rKey) * 8, (rKey, 1))] })

/-- A slice of an embedding unit with a work item. -/
def embState (item : Nat) (us : List Upd := []) : State :=
  rowState (runs ++ [setF .EMB_WORK_ITEM item 0, .slices (fun _ => [⟨1, 0, 0, 0, 0, 0⟩]),
    .emb (fun e => { e with subs := [⟨0, 0, 5, 0, 0, true, [(rKey, 0)], false, 1⟩, ⟨0, 0, 5, 1, 0, true, [], false, 0⟩] })] ++ us)
def rComb : Comb := ⟨rStack, 4, rKey, 1, [0, 0, 0, 0], false, false, 0⟩
def siltState (item : Nat) (us : List Upd := []) : State :=
  rowState (runs ++ [setF .SILT_WORK_ITEM item (rStack * 64), .slices (fun _ => [⟨2, rStack, 0, 0, 0, 0⟩]),
    .silt (fun x => { x with norms := [(4, 2), (5, 2)], combs := [rComb] })] ++ us)
def laneState : State := siltState 1 [.silt (fun x => { x with quota := [(rStack, 3)] })]
def logState : State := siltState 1 [.rows (fun r => { r with log := [⟨rStack, 0, rKey, 4096, 4, 0, false⟩] })]
def driftState (stage beat free : Nat) : State :=
  rowState (runs ++ [inDrift, setF .DRIFT_CMD_KEY_KEY rKey rStack,
    .rows (fun r => { r with drifts := if stage = 99 then [] else
      [{ stack := rStack, key := rKey, rank := 0, dest := (rStack + 1) % 16, place := 16, stage := stage, beat := beat, free := free }] })])
def awayState : State :=
  rowState (runs ++ [inDrift, .rows (fun r => { r with drifts :=
    [{ stack := rStack, key := rKey, rank := 3, dest := 0, place := 16, stage := 2 }] })])
def arriveState : State :=
  rowState (runs ++ [.rows (fun r => { r with arrivals :=
    [{ stack := rStack, key := rKey, rank := 3, src := 0, slot := 0, parts := 1, got := [[]], acked := true, switch := true }] })])
def eSlice : Slice := ⟨1, 0, 0, 0, 0, 0⟩
/-- The micro-batch of the slice with one sample that names row 7 of table 1 twice. -/
def eMb (last : Bool) : Upd :=
  .emb (fun e => { e with mbs := [{ die := 0, slot := 0, step := 5, recs := [{ sample := 0, secs := [(1, 1, [7, 7], [])] }], last := last }] })
def noSubs : Upd := .emb (fun e => { e with subs := [] })
def sSlice : Slice := ⟨2, rStack, 0, 0, 0, 0⟩
def sweepUps : List Upd := [setF .SILT_TORN_SWEEP_BUSY 1 rStack]
def stampRow (h : Nat) : Upd := .bytes (placeDpa rStack rTab rKey 0) (leBytes 8 h)
def goState (us : List Upd) (hdr : Nat := noPrev) : State :=
  rowState (runs ++ [inDrift, setF .DRIFT_CMD_KEY_KEY rKey rStack] ++ us) hdr
def waitsE : Upd := .emb (fun e => { e with fetched := [⟨0, 0, 5, 0, rKey, 9, 255, []⟩] })

theorem witness_CoalesceAndFetch :
    (let s := embState 0 [eMb true, noSubs];
      let die : Nat := 0;
      let x := eSlice;
      let item := s.embWork die x;
      die < 2 ∧ unitNext s 1 die x ∧ bits item 0 4 = 0) ∧
    (let s := embState 1 [eMb true];
      let die : Nat := 0;
      let x := eSlice;
      let item := s.embWork die x;
      let step := s.get Fld.BEAT_STEP_STEP;
      let sub := bits item 36 4;
      let b :=
        { die := 0, slot := 0, step := 5, sub := 0, done := true, keys := [(281474976710663, 0)], counted := 1 :
          SubBatch };
      die < 2 ∧
        unitNext s 1 die x ∧
          bits item 0 4 = 1 ∧
            s.storesRoom = true ∧
              s.noSub die x item = false ∧
                s.hasSub die x item = true ∧ s.subBatch die x.slot step sub = some b) ∧
    (let s := embState 1 [eMb true, noSubs];
      let die : Nat := 0;
      let x := eSlice;
      let item := s.embWork die x;
      die < 2 ∧
        unitNext s 1 die x ∧
          bits item 0 4 = 1 ∧
            s.storesRoom = true ∧ s.noSub die x item = false ∧ s.hasSub die x item = false) ∧
    (let s := embState 5;
      let die : Nat := 0;
      let x := eSlice;
      let item := s.embWork die x;
      die < 2 ∧
        unitNext s 1 die x ∧
          (5 ≤ bits item 0 4 ∨ 1 ≤ bits item 0 4 ∧ bits item 0 4 ≤ 3 ∧ s.noSub die x item = true)) := by
  refine ⟨?_, ?_, ?_, ?_⟩ <;> decide +kernel
theorem witness_PoolGradAndPush :
    (let s : State := { embState (2 + 7 * 256) [eMb true, .emb (fun e => { e with subs := [⟨0, 0, 5, 0, 0, true, [(rKey, 2)], false, 1⟩] })] with queues := [(7, { depth := 4, credits := 4 })] };
      let die : Nat := 0;
      let x := eSlice;
      let item := s.embWork die x;
      let step := s.get Fld.BEAT_STEP_STEP;
      let sub := bits item 36 4;
      let q := bits item 8 13;
      let bags := s.bags die x.slot step (bits item 4 4);
      let tokens :=
        (List.map
            (fun b =>
              match s.table b.table with
              | none => []
              | some t => vecTokens t (poolBag t (s.included die x.slot step t b)))
            bags).flatten;
      die < 2 ∧
        unitNext s 1 die x ∧
          bits item 0 4 = 2 ∧
            s.hasSub die x item = true ∧
              s.emb.fetched.any (s.unanswered die x item) = false ∧
                s.topSub die x.slot step ≤ sub ∧
                  Sparse.get [] s.xport.outbox q = [] ∧
                    s.consKind q ≠ 5 ∧ tokens.length ≤ (s.queue q).credits) ∧
    (let s := embState 3 [eMb true, .var .mbDropped 0 1];
      let die : Nat := 0;
      let x := eSlice;
      let item := s.embWork die x;
      die < 2 ∧
        unitNext s 1 die x ∧
          bits item 0 4 = 3 ∧
            s.hasSub die x item = true ∧ x.slot < 8 ∧ s.var Var.mbDropped x.slot = 1) ∧
    (let s := embState 3 [eMb true, .emb (fun e => { e with bag := [(0, 1)] })];
      let die : Nat := 0;
      let x := eSlice;
      let item := s.embWork die x;
      let step := s.get Fld.BEAT_STEP_STEP;
      let sub := bits item 36 4;
      let bags := s.bags die x.slot step (bits item 4 4);
      let b :=
        { die := 0, slot := 0, step := 5, sub := 0, done := true, keys := [(281474976710663, 0)], counted := 1 :
          SubBatch };
      die < 2 ∧
        unitNext s 1 die x ∧
          bits item 0 4 = 3 ∧
            s.hasSub die x item = true ∧
              s.subBatch die x.slot step sub = some b ∧
                (8 ≤ x.slot ∨ s.var Var.mbDropped x.slot ≠ 1) ∧
                  bags.length ≤ Sparse.get 0 s.emb.bag die ∧ (List.map Prod.fst b.keys).Nodup) ∧
    (let s := embState 4 [.emb (fun e => { e with basin := [{ die := 0, step := 5, key := rKey, count := 1, pairs := [] }] })];
      let die : Nat := 0;
      let x := eSlice;
      let item := s.embWork die x;
      die < 2 ∧ unitNext s 1 die x ∧ bits item 0 4 = 4 ∧ s.storesRoom = true) := by
  refine ⟨?_, ?_, ?_, ?_⟩ <;> decide +kernel
theorem witness_EmbeddingControls :
    (let die : Nat := 0;
      die < 2) ∧
    (let s := embState 2 [setF .EMB_HOT_CFG_DECAY_BEATS 45, .rows (fun r => { r with sketch := [(5, 9)] })];
      let die : Nat := 0;
      die < 2 ∧
        s.running = true ∧
          s.get Fld.EMB_HOT_CFG_DECAY_BEATS die ≠ 0 ∧
            s.get Fld.BEAT_COUNT_COUNT % s.get Fld.EMB_HOT_CFG_DECAY_BEATS die = 0 ∧
              s.var Var.decayAt die ≠ s.get Fld.BEAT_COUNT_COUNT + 1 ∧
                Sparse.wf 0 s.rows.sketch = true) ∧
    (let s := mk [];
      let die : Nat := 0;
      die < 2 ∧
        (s.running = false ∨
          s.get Fld.EMB_HOT_CFG_DECAY_BEATS die = 0 ∨
            s.var Var.decayAt die = s.get Fld.BEAT_COUNT_COUNT + 1)) ∧
    (let s := embState 2 [setF .EMB_HOT_CFG_DECAY_BEATS 45, .rows (fun r => { r with sketch := [(5, 9)] })];
      let die : Nat := 0;
      die < 2 ∧
        s.embSlice die =
            some
              (({ kind := 1, index := 0, target := 0, slot := 0 : Slice }, 2).fst,
                ({ kind := 1, index := 0, target := 0, slot := 0 : Slice }, 2).snd) ∧
          bits ({ kind := 1, index := 0, target := 0, slot := 0 : Slice }, 2).snd 0 4 = 2) := by
  refine ⟨?_, ?_, ?_, ?_⟩ <;> decide +kernel
theorem witness_SiltSlices :
    (let s := siltState 0;
      let stack := rStack;
      let x := sSlice;
      let item := s.get Fld.SILT_WORK_ITEM (stack * 64 + x.target % 64);
      let step := s.get Fld.BEAT_STEP_STEP;
      stack < 16 ∧
        unitNext s 2 stack x ∧
          bits item 0 4 = 0 ∧
            s.isClosed stack step = false ∧
              s.skipped step = false ∧
                ∀ h ∈ s.coll.roots, h.issued = false ∨ h.own.isSome = true) ∧
    (let s := siltState 1;
      let stack := rStack;
      let x := sSlice;
      let item := s.get Fld.SILT_WORK_ITEM (stack * 64 + x.target % 64);
      let step := s.get Fld.BEAT_STEP_STEP;
      let last := item.testBit 4;
      stack < 16 ∧
        unitNext s 2 stack x ∧
          bits item 0 4 = 1 ∧
            ((s.normOf step).isSome = true ∨ s.skipped step = true) ∧
              (last = true → s.hasLast stack step = false ∧ s.rowsLeft stack step = true) ∧
                (last = false → Sparse.get 0 s.silt.lastAt stack ≤ Sparse.get 0 s.silt.ended stack)) ∧
    (let s := siltState 2;
      let stack := rStack;
      let x := sSlice;
      let item := s.get Fld.SILT_WORK_ITEM (stack * 64 + x.target % 64);
      let step := s.get Fld.BEAT_STEP_STEP;
      let last := item.testBit 4;
      stack < 16 ∧
        unitNext s 2 stack x ∧
          (2 ≤ bits item 0 4 ∨
            bits item 0 4 = 0 ∧ s.isClosed stack step = true ∨
              bits item 0 4 = 1 ∧ last = true ∧ s.hasLast stack step = true)) := by
  refine ⟨?_, ?_, ?_⟩ <;> decide +kernel
theorem witness_SiltLanes :
    (let s := laneState;
      let stack := rStack;
      let lane := 0;
      let key := rKey;
      let c := rComb;
      let t0 := rTab;
      let p := 0;
      let stale :=
        hdrUpdated (slotHdr s (placeDpa stack t0 key p)) = true ∧ c.step ≤ hdrStamp (slotHdr s (placeDpa stack t0 key p));
      stack < 16 ∧
        lane < 32 ∧
          s.issuing = true ∧
            s.applying stack = true ∧
              (List.filter (fun l => l.stack == stack && l.lane == lane) s.rows.log).length < 16 ∧
                (s.rows.log.any fun l => l.stack == stack && l.key == key) = false ∧
                  Sparse.get 0 s.spring.stuck stack ≠ 1 ∧
                    List.find? (fun y => y.stack == stack && y.key == key && y.st == 0) s.silt.combs = some c ∧
                      (s.normOf c.step).isSome = true ∧
                        s.table (keyTable key) = some t0 ∧
                          (s.get Fld.ERR_STATUS_STATE_LOST).testBit stack = false ∧
                            s.tornRow stack key = false ∧
                              Sparse.get 0 s.rows.listBad (2 * stack) ≠ 2 ∧
                                s.resolve stack t0 key true = Resolved.at p ∧
                                  (∀ k ∈ s.hotFind (stackDie stack) key, s.hotBad (stackDie stack) k = false) ∧
                                    (linesOf (placeDpa stack t0 key p) (tblSlot t0)).any s.lineBad = false ∧
                                      s.sweepTears stack (placeDpa stack t0 key p) = false ∧ ¬stale) ∧
    (let s := laneState.run [stampRow (2 ^ 47 + 2 ^ 44 + 5)];
      let stack := rStack;
      let lane := 0;
      let key := rKey;
      let c := rComb;
      let t0 := rTab;
      let p := 0;
      let stale :=
        hdrUpdated (slotHdr s (placeDpa stack t0 key p)) = true ∧ c.step ≤ hdrStamp (slotHdr s (placeDpa stack t0 key p));
      stack < 16 ∧
        lane < 32 ∧
          s.issuing = true ∧
            s.applying stack = true ∧
              (List.filter (fun l => l.stack == stack && l.lane == lane) s.rows.log).length < 16 ∧
                (s.rows.log.any fun l => l.stack == stack && l.key == key) = false ∧
                  Sparse.get 0 s.spring.stuck stack ≠ 1 ∧
                    List.find? (fun y => y.stack == stack && y.key == key && y.st == 0) s.silt.combs = some c ∧
                      (s.normOf c.step).isSome = true ∧
                        s.table (keyTable key) = some t0 ∧
                          (s.get Fld.ERR_STATUS_STATE_LOST).testBit stack = false ∧
                            s.tornRow stack key = false ∧
                              Sparse.get 0 s.rows.listBad (2 * stack) ≠ 2 ∧
                                s.resolve stack t0 key true = Resolved.at p ∧
                                  (∀ k ∈ s.hotFind (stackDie stack) key, s.hotBad (stackDie stack) k = false) ∧
                                    (linesOf (placeDpa stack t0 key p) (tblSlot t0)).any s.lineBad = false ∧
                                      s.sweepTears stack (placeDpa stack t0 key p) = false ∧ stale) ∧
    (let s := logState;
      let stack := rStack;
      let key := rKey;
      let l :=
        { stack := 0, lane := 0, key := 281474976710663, dpa := 4096, step := 4, place := 0, create := false : LogEnt };
      let t0 := (s.table (keyTable key)).get!;
      stack < 16 ∧
        List.find? (fun l => l.stack == stack && l.key == key) s.rows.log = some l ∧
          s.table (keyTable key) = some t0) ∧
    (let s := laneState.run sweepUps;
      let stack := rStack;
      stack < 16 ∧ s.get Fld.SILT_TORN_SWEEP_BUSY stack = 1) ∧
    (let s := laneState;
      let stack := rStack;
      stack < 16 ∧ s.get Fld.SILT_TORN_SWEEP_BUSY stack = 0) ∧
    (let stack := rStack;
      stack < 16) := by
  refine ⟨?_, ?_, ?_, ?_, ?_, ?_⟩ <;> decide +kernel
theorem witness_DriftGoes :
    (let s := goState [];
      let stack := rStack;
      let rank : Nat := 0;
      let dest := (rStack + 1) % 16;
      let key := s.get Fld.DRIFT_CMD_KEY_KEY stack;
      let there := min rank (s.jobN - 1);
      let home := homeModule key s.jobN;
      let may := fun t0 p =>
        s.prevN = none ∧
          s.table (keyTable key) = some t0 ∧
            s.resolve stack t0 key true = Resolved.at p ∧
              tblDrift t0 = true ∧
                ¬(there = s.rank ∧ dest % 16 = stack) ∧
                  (s.rank = home ∨ there = home) ∧
                    locLeaving (s.dmLoc stack key) = false ∧ s.rows.drifts.any (isDrift stack key) = false;
      let t0 := rTab;
      let p := 16;
      stack < 16 ∧
        may t0 p ∧
          s.tornRow stack key = false ∧
            (List.filter (fun d => d.stack == stack && d.cause == 0) s.rows.drifts).length < 64 ∧
              (16 ≤ p ∨ (s.dmWayFor stack key).isSome = true)) ∧
    (let s := goState [] 0;
      let stack := rStack;
      stack < 16 ∧ s.prevN.isSome = true) ∧
    (let s := goState [setF .DRIFT_CMD_KEY_KEY 5 rStack];
      let stack := rStack;
      let key := s.get Fld.DRIFT_CMD_KEY_KEY stack;
      stack < 16 ∧ s.prevN = none ∧ s.table (keyTable key) = none) ∧
    (let s := goState [.rows (fun r => { r with torn := [⟨rStack, rKey, 4096⟩] })];
      let stack := rStack;
      let rank : Nat := 0;
      let dest := (rStack + 1) % 16;
      let key := s.get Fld.DRIFT_CMD_KEY_KEY stack;
      let there := min rank (s.jobN - 1);
      let home := homeModule key s.jobN;
      let may := fun t0 p =>
        s.prevN = none ∧
          s.table (keyTable key) = some t0 ∧
            s.resolve stack t0 key true = Resolved.at p ∧
              tblDrift t0 = true ∧
                ¬(there = s.rank ∧ dest % 16 = stack) ∧
                  (s.rank = home ∨ there = home) ∧
                    locLeaving (s.dmLoc stack key) = false ∧ s.rows.drifts.any (isDrift stack key) = false;
      let t0 := rTab;
      let p := 16;
      stack < 16 ∧ may t0 p ∧ s.tornRow stack key = true) := by
  refine ⟨?_, ?_, ?_, ?_⟩ <;> decide +kernel
theorem witness_DriftMoves :
    (let s := (driftState 0 0 0).run [.rows (fun r => { r with log := [⟨rStack, 0, rKey, 4096, 4, 0, false⟩] })];
      let stack := rStack;
      let key := rKey;
      let s1 := clkOne s;
      let d := { stack := 0, key := 281474976710663, rank := 0, dest := 1, place := 16, stage := 0 : DriftSrc };
      let t0 := (s1.table (keyTable key)).get!;
      let busy := s1.rows.log.any fun l => l.stack == stack && l.key == key;
      stack < 16 ∧
        List.find? (isDrift stack key) s1.rows.drifts = some d ∧
          s1.table (keyTable key) = some t0 ∧ d.stage = 0 ∧ busy = true ∧ d.met = false) ∧
    (let s := driftState 0 0 0;
      let stack := rStack;
      let key := rKey;
      let s1 := clkOne s;
      let d := { stack := 0, key := 281474976710663, rank := 0, dest := 1, place := 16, stage := 0 : DriftSrc };
      let t0 := (s1.table (keyTable key)).get!;
      let dpa := placeDpa stack t0 key d.place;
      let busy := s1.rows.log.any fun l => l.stack == stack && l.key == key;
      stack < 16 ∧
        List.find? (isDrift stack key) s1.rows.drifts = some d ∧
          s1.table (keyTable key) = some t0 ∧
            d.stage = 0 ∧
              busy = false ∧
                (16 ≤ d.place ∨ (s1.dmWayFor stack key).isSome = true) ∧
                  s1.hotFind (stackDie stack) key = none ∧
                    s1.sweepTears stack dpa = false ∧
                      (linesOf dpa (tblSlot t0)).any s1.lineBad = false) ∧
    (let s := awayState;
      let stack := rStack;
      let key := rKey;
      let s1 := clkOne s;
      let d := { stack := 0, key := 281474976710663, rank := 3, dest := 0, place := 16, stage := 2 : DriftSrc };
      stack < 16 ∧ List.find? (isDrift stack key) s1.rows.drifts = some d ∧ d.stage = 2) ∧
    (let s := arriveState;
      let stack := rStack;
      let key := rKey;
      let s1 := clkOne s;
      let a :=
        { stack := 0, key := 281474976710663, rank := 3, src := 0, slot := 0, parts := 1, got := [[]], acked := true,
          switch := true : DriftDst };
      let t0 := (s1.table (keyTable key)).get!;
      stack < 16 ∧
        List.find? (fun a => isArrival stack key a && a.switch) s1.rows.arrivals = some a ∧
          s1.table (keyTable key) = some t0) ∧
    (let s := driftState 4 0 90;
      let stack := rStack;
      let key := rKey;
      let s1 := clkOne s;
      let beat := s1.get Fld.BEAT_COUNT_COUNT;
      let d :=
        { stack := 0, key := 281474976710663, rank := 0, dest := 1, place := 16, stage := 4, free := 90 : DriftSrc };
      let t0 := (s1.table (keyTable key)).get!;
      stack < 16 ∧
        List.find? (isDrift stack key) s1.rows.drifts = some d ∧
          s1.table (keyTable key) = some t0 ∧ d.stage = 4 ∧ d.free ≤ beat) ∧
    (let s := driftState 1 26 0;
      let stack := rStack;
      let key := rKey;
      let d :=
        { stack := 0, key := 281474976710663, rank := 0, dest := 1, place := 16, stage := 1, beat := 26 : DriftSrc };
      stack < 16 ∧
        List.find? (isDrift stack key) s.rows.drifts = some d ∧
          d.stage = 1 ∧ d.beat + 64 ≤ s.get Fld.BEAT_COUNT_COUNT) ∧
    (let s := driftState 1 27 0;
      let stack := rStack;
      let key := rKey;
      let d :=
        { stack := 0, key := 281474976710663, rank := 0, dest := 1, place := 16, stage := 1, beat := 27 : DriftSrc };
      stack < 16 ∧
        List.find? (isDrift stack key) s.rows.drifts = some d ∧
          d.stage = 1 ∧ s.get Fld.BEAT_COUNT_COUNT < d.beat + 64) := by
  refine ⟨?_, ?_, ?_, ?_, ?_, ?_, ?_⟩ <;> decide +kernel

/-! A micro-batch of more than 2^20 keys: the sub-batch of rank 0 is not its highest. -/

def manyState (os : List Nat) : State :=
  { embState 2 [.emb (fun e => { e with
      mbs := [{ die := 0, slot := 0, step := 5, recs := [{ sample := 0, secs := [(1, 1, os, [])] }], last := true }]
      subs := [⟨0, 0, 5, 0, 0, true, [], false, 0⟩, ⟨0, 0, 5, 1, 0, true, [], false, 0⟩] })] with
    clay := { active := some { hdr := noPrev, secs := [(9, [rTab + 2 ^ 24 * 2 ^ 64])] } } }
theorem manyState_occ (os : List Nat) (i : Nat) (h : i < 2 ^ 24) : (manyState os).occ 0 (1, i) = .key (1 * 2 ^ 48 + i) := by
  have ht : (manyState os).table 1 = some (rTab + 2 ^ 24 * 2 ^ 64) := by rfl
  have hd : tblDie (rTab + 2 ^ 24 * 2 ^ 64) = 0 := by decide +kernel
  have hr : 2 ^ 24 ≤ tblRows (rTab + 2 ^ 24 * 2 ^ 64) := by decide +kernel
  rw [State.occ, ht]
  simp only [hd]
  rw [if_neg (by simp), if_neg (by omega)]
theorem manyState_keys (os : List Nat) (n : Nat) (h : n ≤ 2 ^ 24) :
    (manyState os).keyCounts 0 ((List.range n).map (fun i => (1, i))) = (List.range n).map (fun i => (1 * 2 ^ 48 + i, 1)) := by
  induction n with
  | zero => rfl
  | succ n ih =>
    have above : ∀ p ∈ (List.range n).map (fun i => (1 * 2 ^ 48 + i, 1)), p.1 < 1 * 2 ^ 48 + n := by
      intro p hp
      obtain ⟨i, hi, rfl⟩ := List.mem_map.mp hp
      exact Nat.add_lt_add_left (List.mem_range.mp hi) _
    have hk := ih (by omega)
    rw [State.keyCounts] at hk ⊢
    rw [List.range_succ, List.map_append, List.foldl_append, hk, List.map_append, List.map_singleton, List.foldl_cons,
      List.foldl_nil]
    simp only [manyState_occ os n (by omega)]
    rw [Sparse.get_above above, Sparse.set_above (by decide) above]
    rfl
theorem manyState_len (n : Nat) (h : n ≤ 2 ^ 24) : ((manyState (List.range n)).mbKeys 0 0 5).length = n := by
  have ho : occurrences ((manyState (List.range n)).embMb 0 0 5).recs = (List.range n).map (fun i => (1, i)) := by
    show occurrences [(⟨0, [(1, 1, List.range n, [])]⟩ : GsrRec)] = _
    simp [occurrences]
  rw [State.mbKeys, ho, manyState_keys _ n h, List.length_map, List.length_range]
theorem manyState_lower (os : List Nat) (n : Nat) (hl : ((manyState os).mbKeys 0 0 5).length = n) (hn : 2 ^ 20 < n) :
    unitNext (manyState os) 1 0 eSlice ∧ (manyState os).embWork 0 eSlice = 2 ∧ (manyState os).hasSub 0 eSlice 2 = true ∧
    (manyState os).emb.fetched = [] ∧ 0 < (manyState os).topSub 0 0 5 := by
  refine ⟨⟨rfl, rfl⟩, Eq.trans (b := (embState 2 []).embWork 0 eSlice) rfl (by decide +kernel), ?_, rfl, ?_⟩
  · show (true && subOf ((manyState os).mbKeys 0 0 5).length 0) = true
    rfl
  · have ht : (manyState os).topSub 0 0 5 = List.foldl max 0 (([] ++ [0, 1]).filter (fun j =>
        subOf ((manyState os).mbKeys 0 0 5).length j && !false)) := rfl
    rw [ht, hl]
    have h1 : 1048576 < n := hn
    simp [subOf, h1]
theorem witness_PoolGradAndPush_lower :
    ∃ s, unitNext s 1 0 eSlice ∧ s.embWork 0 eSlice = 2 ∧ s.hasSub 0 eSlice 2 = true ∧ s.emb.fetched = [] ∧ 0 < s.topSub 0 0 5 :=
  ⟨_, manyState_lower _ _ (manyState_len (2 ^ 20 + 1) (by omega)) (by omega)⟩

/-! Spring. -/

/-- Spring's regions: a ring of 64 KiB at 0x10000 and a coalescing buffer of 64 KiB. -/
def ringUps : List Upd :=
  [setF .TIER_CLASS_REGION_BASE 1 (7 * 256), setF .TIER_CLASS_REGION_SIZE 1 (7 * 256),
   setF .TIER_CLASS_REGION_BASE 2 (8 * 256), setF .TIER_CLASS_REGION_SIZE 1 (8 * 256)]
def rowRec : LinkItem := .record 48 (ofLe (recHeader 1 0 0 48 5 ++ leBytes 8 77 ++ leBytes 8 9))
def linkState (i : LinkItem) (w : Nat) : State :=
  mk (ringUps ++ [setF .SPRING_COALESCE_W w, .spring (fun x => { x with link := [(3, [i])] })])
def markState (w : Nat) : State :=
  mk (ringUps ++ [setF .SPRING_COALESCE_W w, setF .BEAT_STEP_STEP 6,
    .spring (fun x => { x with markNext := 5, cuts := [(5, { notes := 16, skips := 16 })] })])
/-- A GT sink on service endpoint 65,540, active, with a record to send; a frame from it. -/
def sinkUps : List Upd :=
  [setF .SPRING_SINK_STATE_STATE 2 1, setF .SPRING_SINK_STATE_PAIR 255 1, setF .XPORT_EP_CFG_KIND 2 65540,
   setF .XPORT_EP_STATE_CONN 2 (65540 * 4), setF .XPORT_SVC_ADDR_HI_ADDR 5 65540, setF .SPRING_SEQ_NEXT_SEQ 9,
   setF .XPORT_EP_STATE_PEER_INC 3 (65540 * 4), setConn 65540 0 { win := 16, rcv := 7, credit := 100 },
   setSink 1 (fun x => { x with decl := 5 * 2 ^ 64, next := 8, sent := 9, inc := 5 }),
   .spring (fun x => { x with ring := [⟨8, 65536, 48, 1, 5⟩], head := 65584 })]
def sinkState : State := mk (ringUps ++ sinkUps)
def sinkFrame (op : Nat) (bs : List Nat) : GtFrame := ⟨0, 65540, 0, 4, 3, 7, 0, 0, { op := op, payload := bs }, 0⟩
def ackFrame (q : Nat) : GtFrame := sinkFrame 0x41 (leBytes 8 q ++ leBytes 8 4)
/-- A RoCEv2 sink with a packet outstanding. -/
def roceState (st : Nat) (tries : Nat := 0) : State :=
  mk [setF .SPRING_SINK_STATE_STATE 2 1, setF .SPRING_SINK_STATE_PAIR 255 1, setF .SPRING_SINK_STATE_PROTOCOL 1 1,
    setF .SPRING_SINK_SEL_SINK 1, setF .XPORT_ROCE_SEL_SINK 1, setF .XPORT_ROCE_QP_STATE st 1,
    setF .XPORT_ROCE_QP_START_PSN 70 1, setSink 1 (fun x => { x with sent := 9 }),
    setQp 1 (fun q => { q with out := [⟨30, 10, 0, 0, [1, 2], 0⟩, ⟨31, 10, 0, 0, [3], 0⟩], tries := tries })]
def failState (due second : Nat) : State :=
  (mk (ringUps ++ sinkUps)).run [setF .SPRING_CFG_ACK_TIMEOUT 4, setF .BEAT_COUNT_COUNT 9, setSink 1 (fun x => { x with due := due }),
    setF .SPRING_SINK_STATE_PAIR 2 1, setF .SPRING_SINK_STATE_PAIR 1 2, setF .SPRING_SINK_STATE_STATE second 2,
    setF .SPRING_SINK_STATE_PROTOCOL 1 2, setF .XPORT_ROCE_QP_STATE 1 2]
def ctlState (k : Nat) : State := (failState 0 3).run [setF .SPRING_SINK_SEL_SINK k]
def coldSink : State := (roceState 0).run [setF .SPRING_SINK_STATE_STATE 4 1]
def gaspState (n : Nat) : State := { mk [setF .BEAT_STATUS_STATE 1, .var .lgPhase 0 n] with boot := { phase := 3 } }
def rearmState : State := sinkState.run [setF .XPORT_ROCE_QP_STATE 3 1]
/-- A LOCATION record of a key whose home is module 0 of 1, with its HCRC right or wrong by `x`. -/
def locRec (x key : Nat) : List Nat :=
  let h := (recHeader 4 0 0 48 (homeStack key * 2 ^ 44)).take 28
  h ++ leBytes 4 (crc32c h + x) ++ leBytes 8 key ++ List.replicate 8 0
def linkWith (i : LinkItem) (us : List Upd) : State :=
  mk (ringUps ++ [.spring (fun x => { x with link := [(3, [i])] })] ++ us)
def noRing (i : LinkItem) : State :=
  mk [setF .SPRING_COALESCE_W 1, .spring (fun x => { x with link := [(3, [i])] })]
def leftRec : LinkItem := .record 48 (ofLe (recHeader 3 0 0 48 5 ++ leBytes 8 78 ++ leBytes 8 9))
/-- Queue 20 brings DENSE records to Spring, and its first token is an END record of step 5. -/
def denseState : State :=
  { mk ringUps with
    clay := { active := some { secs := [(3, [20 + 3 * 2 ^ 40])] } }
    queues := [(20, { depth := 4, buf := [BitVec.ofNat 2048 (ofLe (recHeader 0x0E 0 0 32 5))] })] }
def badRing : State := sinkState.run [.unitErr 65536 2]
def sinkAnew (inc : Nat) (us : List Upd := []) : State := sinkState.run (setSink 1 (fun x => { x with inc := inc }) :: us)
def homeRec (kind : Nat) (rank key : Nat) : List Nat :=
  let h := (recHeader 4 0 0 48 (homeStack key * 2 ^ 44)).take 28
  h ++ leBytes 4 (crc32c h) ++ leBytes 8 key ++ leBytes 2 rank ++ [3, kind] ++ List.replicate 4 0

theorem witness_SpringTakesLinkItems :
    (let s := mk [];
      let e : Nat := 3;
      e < 16 ∧ Sparse.get [] s.spring.link 16 = [] ∧ Sparse.get [] s.spring.link e = []) ∧
    (let s := linkState rowRec 1;
      let e : Nat := 3;
      let bs :=
        leBytes 48 19223883323288190750471186226799316079039306546878843834226864701488905655381315791853334764191745;
      let window := decide (1 < s.get Fld.SPRING_COALESCE_W ∧ s.var Var.lgPhase < 2);
      e < 16 ∧
        Sparse.get [] s.spring.link 16 = [] ∧
          Sparse.get [] s.spring.link e =
              LinkItem.record 48
                  19223883323288190750471186226799316079039306546878843834226864701488905655381315791853334764191745 ::
                (Sparse.get [] s.spring.link e).tail ∧
            48 ≤ 48 ∧
              s.ringPlace 48 = some (0, (s.ringPlace 48).get!.snd) ∧ bs.getD 0 0 = 1 ∧ window = false) ∧
    (let s := linkWith rowRec [setF .SPRING_COALESCE_W 8, .spring (fun x => { x with held := [⟨77, 0, false, 48, ofLe (recHeader 1 0 0 48 5 ++ leBytes 8 77 ++ leBytes 8 9)⟩] })];
      let e : Nat := 3;
      let bs :=
        leBytes 48 19223883323288190750471186226799316079039306546878843834226864701488905655381315791853334764191745;
      let step := fieldOf bs 16 8 % 2 ^ 44;
      let window := decide (1 < s.get Fld.SPRING_COALESCE_W ∧ s.var Var.lgPhase < 2);
      let same := s.sameHeld (fieldOf bs 32 8) 0 step;
      e < 16 ∧
        Sparse.get [] s.spring.link 16 = [] ∧
          Sparse.get [] s.spring.link e =
              LinkItem.record 48
                  19223883323288190750471186226799316079039306546878843834226864701488905655381315791853334764191745 ::
                (Sparse.get [] s.spring.link e).tail ∧
            48 ≤ 48 ∧ bs.getD 0 0 = 1 ∧ window = true ∧ s.spring.held.any same = true) ∧
    (let s := linkState rowRec 8;
      let e : Nat := 3;
      let bs :=
        leBytes 48 19223883323288190750471186226799316079039306546878843834226864701488905655381315791853334764191745;
      let step := fieldOf bs 16 8 % 2 ^ 44;
      let window := decide (1 < s.get Fld.SPRING_COALESCE_W ∧ s.var Var.lgPhase < 2);
      let same := s.sameHeld (fieldOf bs 32 8) 0 step;
      e < 16 ∧
        Sparse.get [] s.spring.link 16 = [] ∧
          Sparse.get [] s.spring.link e =
              LinkItem.record 48
                  19223883323288190750471186226799316079039306546878843834226864701488905655381315791853334764191745 ::
                (Sparse.get [] s.spring.link e).tail ∧
            48 ≤ 48 ∧
              bs.getD 0 0 = 1 ∧
                window = true ∧ s.spring.held.any same = false ∧ s.heldBytes + 48 ≤ s.coalSize) ∧
    (let s := linkWith rowRec [setF .SPRING_COALESCE_W 8, setF .TIER_CLASS_REGION_SIZE 0 (8 * 256)];
      let e : Nat := 3;
      let bs :=
        leBytes 48 19223883323288190750471186226799316079039306546878843834226864701488905655381315791853334764191745;
      let step := fieldOf bs 16 8 % 2 ^ 44;
      let window := decide (1 < s.get Fld.SPRING_COALESCE_W ∧ s.var Var.lgPhase < 2);
      let same := s.sameHeld (fieldOf bs 32 8) 0 step;
      e < 16 ∧
        Sparse.get [] s.spring.link 16 = [] ∧
          Sparse.get [] s.spring.link e =
              LinkItem.record 48
                  19223883323288190750471186226799316079039306546878843834226864701488905655381315791853334764191745 ::
                (Sparse.get [] s.spring.link e).tail ∧
            48 ≤ 48 ∧
              s.ringPlace 48 = some (0, (s.ringPlace 48).get!.snd) ∧
                bs.getD 0 0 = 1 ∧
                  window = true ∧ s.spring.held.any same = false ∧ s.coalSize < s.heldBytes + 48) ∧
    (let s := linkState leftRec 8;
      let e : Nat := 3;
      let bs :=
        leBytes 48 19223883323288190750586978316036632274462877531887531742080134686154546219420773375861247893831683;
      e < 16 ∧
        Sparse.get [] s.spring.link 16 = [] ∧
          Sparse.get [] s.spring.link e =
              LinkItem.record 48
                  19223883323288190750586978316036632274462877531887531742080134686154546219420773375861247893831683 ::
                (Sparse.get [] s.spring.link e).tail ∧
            48 ≤ 48 ∧
              s.ringPlace 48 = some (0, (s.ringPlace 48).get!.snd) ∧
                2 ≤ bs.getD 0 0 ∧
                  bs.getD 0 0 ≤ 4 ∧
                    (s.spring.held.any fun h => h.key == fieldOf bs 32 8 && h.first == 0) = false) ∧
    (let s := noRing rowRec;
      let e : Nat := 3;
      let bs :=
        leBytes 48 19223883323288190750471186226799316079039306546878843834226864701488905655381315791853334764191745;
      let window := decide (1 < s.get Fld.SPRING_COALESCE_W ∧ s.var Var.lgPhase < 2);
      e < 16 ∧
        Sparse.get [] s.spring.link 16 = [] ∧
          Sparse.get [] s.spring.link e =
              LinkItem.record 48
                  19223883323288190750471186226799316079039306546878843834226864701488905655381315791853334764191745 ::
                (Sparse.get [] s.spring.link e).tail ∧
            48 ≤ 48 ∧ bs.getD 0 0 = 1 ∧ window = false ∧ s.ringPlace 48 = none) ∧
    (let s := denseState;
      let e : Nat := 3;
      let q := 20;
      e < 16 ∧
        Sparse.get [] s.spring.link 16 = [] ∧
          (s.queue q).buf = (s.queue q).buf.head! :: (s.queue q).buf.tail ∧
            s.consKind q = 3 ∧
              Sparse.get { : DenseIn } s.spring.dense q = { : DenseIn } ∧
                (leBytes 256 (BitVec.toNat (s.queue q).buf.head!)).getD 0 0 = 14 ∧
                  fieldOf (leBytes 256 (BitVec.toNat (s.queue q).buf.head!)) 4 4 = 32) := by
  refine ⟨?_, ?_, ?_, ?_, ?_, ?_, ?_, ?_⟩ <;> decide +kernel
theorem witness_SpringMarksSteps :
    (let s := mk [];
      let step := s.spring.markNext;
      s.cutDone step = false) ∧
    (let s := markState 2;
      let step := s.spring.markNext;
      let n := s.get Fld.SPRING_COALESCE_POSITION + 1;
      let w := s.get Fld.SPRING_COALESCE_W;
      let asked := s.spring.closeAt ≠ 0 ∧ s.spring.closeAt ≤ step + 1;
      s.cutDone step = true ∧ n < 64 ∧ n < w ∧ ¬asked) ∧
    (let s := markState 1;
      let step := s.spring.markNext;
      let n := s.get Fld.SPRING_COALESCE_POSITION + 1;
      let w := s.get Fld.SPRING_COALESCE_W;
      let asked := s.spring.closeAt ≠ 0 ∧ s.spring.closeAt ≤ step + 1;
      s.cutDone step = true ∧
        (w ≤ n ∨ asked) ∧
          s.heldOrder step = [] ∧ s.ringPlace 96 = some (0, (s.ringPlace 96).get!.snd)) ∧
    (let s := mk [setF .SPRING_COALESCE_W 1, setF .BEAT_STEP_STEP 6, .spring (fun x => { x with markNext := 5, cuts := [(5, { notes := 16, skips := 3 })] })];
      let step := s.spring.markNext;
      let n := s.get Fld.SPRING_COALESCE_POSITION + 1;
      let w := s.get Fld.SPRING_COALESCE_W;
      let asked := s.spring.closeAt ≠ 0 ∧ s.spring.closeAt ≤ step + 1;
      s.cutDone step = true ∧ (w ≤ n ∨ asked) ∧ s.heldOrder step = [] ∧ s.ringPlace 96 = none) := by
  refine ⟨?_, ?_, ?_, ?_⟩ <;> decide +kernel
theorem witness_SpringStreamsRecords :
    (let s := sinkState;
      let k : Nat := 1;
      let r := { seq := 8, addr := 65536, len := 48, type := 1, step := 5 : RingRec };
      s.nextRecord k = some r ∧
        s.canStream k r = true ∧ List.find? s.lineBad (linesOf r.addr r.len) = none) ∧
    (let s := badRing;
      let k : Nat := 1;
      let r := { seq := 8, addr := 65536, len := 48, type := 1, step := 5 : RingRec };
      let l := (List.find? s.lineBad (linesOf r.addr r.len)).get!;
      s.nextRecord k = some r ∧
        s.canStream k r = true ∧ List.find? s.lineBad (linesOf r.addr r.len) = some l) ∧
    (let s := mk [];
      let k : Nat := 1;
      Option.all (fun r => !s.canStream k r) (s.nextRecord k) = true) := by
  refine ⟨?_, ?_, ?_⟩ <;> decide +kernel
theorem witness_SinkAcknowledgements :
    (let s := sinkState;
      let k : Nat := 1;
      let q : Nat := 9;
      let f := ackFrame 9;
      inOrderFrame s f ∧
        f.body.op = 65 ∧
          s.epSink f.ep = some k ∧ fieldOf f.body.payload 0 8 = q ∧ q < u64max ∧ (s.sink k).sent ≤ q) ∧
    (let s := sinkState;
      let k : Nat := 1;
      let q : Nat := 8;
      let f := ackFrame 8;
      let inc := fieldOf f.body.payload 8 8;
      inOrderFrame s f ∧
        f.body.op = 65 ∧
          s.epSink f.ep = some k ∧
            fieldOf f.body.payload 0 8 = q ∧
              q < u64max ∧
                q < (s.sink k).sent ∧ ((s.sink k).inc ≠ inc + 1 ∨ (s.sink k).incAck ≤ q + 1)) ∧
    (let s := sinkState.run [setSink 1 (fun x => { x with incAck := 20 })];
      let k : Nat := 1;
      let q : Nat := 8;
      let f := ackFrame 8;
      let inc := fieldOf f.body.payload 8 8;
      inOrderFrame s f ∧
        f.body.op = 65 ∧
          s.epSink f.ep = some k ∧
            fieldOf f.body.payload 0 8 = q ∧
              q < u64max ∧ q < (s.sink k).sent ∧ (s.sink k).inc = inc + 1 ∧ q + 1 < (s.sink k).incAck) ∧
    (let s := mk [];
      let k : Nat := 0;
      let q : Nat := 9;
      s.get Fld.SPRING_SINK_SEL_SINK = k ∧ q < u64max ∧ (s.sinkRoce k = false ∨ s.sinkSt k = 0)) ∧
    (let s := roceState 1;
      let k : Nat := 1;
      let q : Nat := 9;
      s.get Fld.SPRING_SINK_SEL_SINK = k ∧
        q < u64max ∧ s.sinkRoce k = true ∧ s.sinkSt k ≠ 0 ∧ (s.sink k).sent ≤ q) ∧
    (let s := roceState 1;
      let k : Nat := 1;
      let q : Nat := 8;
      s.get Fld.SPRING_SINK_SEL_SINK = k ∧
        q < u64max ∧
          s.sinkRoce k = true ∧ s.sinkSt k ≠ 0 ∧ q < (s.sink k).sent ∧ (s.sink k).incAck ≤ q + 1) := by
  refine ⟨?_, ?_, ?_, ?_, ?_, ?_⟩ <;> decide +kernel
theorem witness_SinkFailure :
    (let s := failState 0 3;
      let k : Nat := 1;
      let p := s.pairId k;
      let late :=
        k < 8 ∧
          s.sinkSt k = 2 ∧
            s.get Fld.SPRING_CFG_ACK_TIMEOUT ≠ 0 ∧
              s.pairAck p < (s.sink k).next ∧
                (s.sink k).beat + s.get Fld.SPRING_CFG_ACK_TIMEOUT ≤ s.get Fld.BEAT_COUNT_COUNT;
      late) ∧
    (let s := mk [];
      let k : Nat := 1;
      let p := s.pairId k;
      let late :=
        k < 8 ∧
          s.sinkSt k = 2 ∧
            s.get Fld.SPRING_CFG_ACK_TIMEOUT ≠ 0 ∧
              s.pairAck p < (s.sink k).next ∧
                (s.sink k).beat + s.get Fld.SPRING_CFG_ACK_TIMEOUT ≤ s.get Fld.BEAT_COUNT_COUNT;
      ¬late) ∧
    (let s := failState 1 3;
      let k : Nat := 1;
      let p := s.pairId k;
      let other := List.find? (fun j => s.sinkSt j == 3 && s.sinkUp j) (s.members p);
      let j := other.get!;
      (s.sink k).due = 1 ∧ (s.sinkSt k = 1 ∨ s.sinkSt k = 2) ∧ other = some j) ∧
    (let s := failState 1 4;
      let k : Nat := 1;
      let p := s.pairId k;
      let other := List.find? (fun j => s.sinkSt j == 3 && s.sinkUp j) (s.members p);
      (s.sink k).due = 1 ∧ (s.sinkSt k = 1 ∨ s.sinkSt k = 2) ∧ other = none) ∧
    (let s := failState 0 3;
      let k : Nat := 1;
      (s.sink k).due ≠ 1) := by
  refine ⟨?_, ?_, ?_, ?_, ?_⟩ <;> decide +kernel
theorem witness_SpringControls :
    (let s := mk [];
      s.spring.closeAt = 0) ∧
    (let s := mk [.spring (fun x => { x with closeAt := 5 })];
      s.spring.closeAt ≠ 0) ∧
    (let s := ctlState 2;
      let k := s.get Fld.SPRING_SINK_SEL_SINK;
      (s.sinkSt k = 3 ∨ s.sinkSt k = 4) ∧ s.sinkUp k = true) ∧
    (let s := mk [];
      let k := s.get Fld.SPRING_SINK_SEL_SINK;
      s.sinkSt k ≠ 3 ∧ s.sinkSt k ≠ 4 ∨ s.sinkUp k = false) ∧
    (let s := ctlState 2;
      let k := s.get Fld.SPRING_SINK_SEL_SINK;
      let p := s.pairId k;
      s.sinkSt p ≠ 0) ∧
    (let s := mk [];
      let k := s.get Fld.SPRING_SINK_SEL_SINK;
      let p := s.pairId k;
      s.sinkSt p = 0) ∧
    (let s := (roceState 1).run [.spring (fun x => { x with off := [(1, 1)] })];
      let k := s.get Fld.SPRING_SINK_SEL_SINK;
      let p := s.pairId k;
      s.sinkSt p ≠ 0 ∧ s.enabledPairs ≠ [p]) ∧
    (let s := mk [];
      let k := s.get Fld.SPRING_SINK_SEL_SINK;
      let p := s.pairId k;
      s.sinkSt p = 0 ∨ s.enabledPairs = [p]) ∧
    (let s := ctlState 2;
      ((List.range 8).any fun j => s.sinkSt j != 0 && (s.sinkUp j || s.sinkSt j == 1)) = true) ∧
    (let s := coldSink;
      List.filter (fun i => s.sinkSt i != 0) (List.range 8) =
          [(List.filter (fun i => s.sinkSt i != 0) (List.range 8)).head!] ∧
        s.sinkRoce (List.filter (fun i => s.sinkSt i != 0) (List.range 8)).head! = true ∧
          s.get Fld.XPORT_ROCE_QP_STATE (List.filter (fun i => s.sinkSt i != 0) (List.range 8)).head! = 0 ∧
            s.get Fld.SPRING_SINK_STATE_PAIR (List.filter (fun i => s.sinkSt i != 0) (List.range 8)).head! = 255 ∧
              s.pairOn (List.filter (fun i => s.sinkSt i != 0) (List.range 8)).head! = true ∧
                s.sinkSt (List.filter (fun i => s.sinkSt i != 0) (List.range 8)).head! ≠ 1) ∧
    (let s := mk [];
      s.stopped = true) ∧
    (let s := (failState 0 3).run [setF .BEAT_STATUS_STATE 1];
      s.stopped = false) := by
  refine ⟨?_, ?_, ?_, ?_, ?_, ?_, ?_, ?_, ?_, ?_, ?_, ?_⟩ <;> decide +kernel
theorem witness_LastGasp :
    (let s := gaspState 0;
      s.var Var.unpowered ≠ 1 ∧ s.var Var.lgPhase = 0 ∧ s.var Var.railsOff ≠ 1) ∧
    (let s := gaspState 1;
      s.var Var.unpowered = 1 ∨ s.var Var.lgPhase ≠ 0 ∨ s.var Var.railsOff = 1) ∧
    (let s := gaspState 1;
      s.var Var.lgPhase = 1) ∧
    (let s := gaspState 0;
      s.var Var.lgPhase ≠ 1) ∧
    (let s := gaspState 2;
      s.var Var.lgPhase = 2) ∧
    (let s := gaspState 0;
      s.var Var.lgPhase ≠ 2) ∧
    (let s := gaspState 3;
      let clk := 0;
      s.var Var.lgPhase = 3 ∧ (s.gaspDone = true ∨ 1440000 ≤ clk)) ∧
    (let s := gaspState 0;
      let clk := 0;
      s.var Var.lgPhase ≠ 3 ∨ s.gaspDone = false ∧ clk < 1440000) := by
  refine ⟨?_, ?_, ?_, ?_, ?_, ?_, ?_, ?_⟩ <;> decide +kernel
theorem witness_RoceQueuePairs :
    (let k : Nat := 1;
      let kind := 4;
      k < 8 ∧ 4 ≤ kind) ∧
    (let s := roceState 1;
      let k : Nat := 1;
      let kind := 0;
      let psn := 0;
      k < 8 ∧
        kind ≤ 3 ∧
          (s.get Fld.XPORT_ROCE_QP_STATE k ≠ 1 ∨ ((s.qp k).out.any fun p => p.psn == psn) = false)) ∧
    (let s := roceState 1;
      let k : Nat := 1;
      let psn := 30;
      k < 8 ∧ s.get Fld.XPORT_ROCE_QP_STATE k = 1 ∧ ((s.qp k).out.any fun p => p.psn == psn) = true) ∧
    (let s := roceState 1;
      let k : Nat := 1;
      let psn := 30;
      k < 8 ∧
        s.get Fld.XPORT_ROCE_QP_STATE k = 1 ∧
          ((s.qp k).out.any fun p => p.psn == psn) = true ∧ (s.qp k).rnr < 7) ∧
    (let s := (roceState 1).run [setQp 1 (fun q => { q with rnr := 7, wait := true })];
      let k : Nat := 1;
      let psn := 30;
      k < 8 ∧
        s.get Fld.XPORT_ROCE_QP_STATE k = 1 ∧
          ((s.qp k).out.any fun p => p.psn == psn) = true ∧ 7 ≤ (s.qp k).rnr) ∧
    (let s := roceState 1;
      let k : Nat := 1;
      let psn := 30;
      k < 8 ∧
        s.get Fld.XPORT_ROCE_QP_STATE k = 1 ∧
          ((s.qp k).out.any fun p => p.psn == psn) = true ∧ (s.qp k).tries < 7) ∧
    (let s := roceState 1 7;
      let k : Nat := 1;
      let psn := 30;
      k < 8 ∧
        s.get Fld.XPORT_ROCE_QP_STATE k = 1 ∧
          ((s.qp k).out.any fun p => p.psn == psn) = true ∧ 7 ≤ (s.qp k).tries) ∧
    (let s := (roceState 1).run [setQp 1 (fun q => { q with rnr := 7, wait := true })];
      let k : Nat := 1;
      k < 8 ∧
        (s.qp k).out =
            { psn := 30, op := 10, va := 0, imm := 0, data := [1, 2], dma := 0 : RocePkt } :: (s.qp k).out.tail ∧
          s.get Fld.XPORT_ROCE_QP_STATE k = 1 ∧ (s.qp k).wait = true) ∧
    (let s := roceState 1;
      let k : Nat := 1;
      k < 8 ∧
        (s.qp k).out =
            { psn := 30, op := 10, va := 0, imm := 0, data := [1, 2], dma := 0 : RocePkt } :: (s.qp k).out.tail ∧
          s.get Fld.XPORT_ROCE_QP_STATE k = 1 ∧ (s.qp k).wait = false ∧ (s.qp k).tries < 7) ∧
    (let s := roceState 1 7;
      let k : Nat := 1;
      k < 8 ∧
        (s.qp k).out =
            { psn := 30, op := 10, va := 0, imm := 0, data := [1, 2], dma := 0 : RocePkt } :: (s.qp k).out.tail ∧
          s.get Fld.XPORT_ROCE_QP_STATE k = 1 ∧ (s.qp k).wait = false ∧ 7 ≤ (s.qp k).tries) ∧
    (let s := roceState 3;
      let k : Nat := 1;
      k < 8 ∧ (s.get Fld.XPORT_ROCE_QP_STATE k ≠ 1 ∨ (s.qp k).out = [])) ∧
    (let s := rearmState;
      let k : Nat := 1;
      let f := sinkFrame 67 (leBytes 4 50 ++ leBytes 4 60);
      k < 8 ∧
        inOrderFrame s f ∧
          f.body.op = 67 ∧ s.epSink f.ep = some k ∧ s.get Fld.XPORT_ROCE_QP_STATE k = 3) ∧
    (let s := sinkState;
      let k : Nat := 1;
      let f := sinkFrame 67 (leBytes 4 50 ++ leBytes 4 60);
      k < 8 ∧
        inOrderFrame s f ∧
          f.body.op = 67 ∧ s.epSink f.ep = some k ∧ s.get Fld.XPORT_ROCE_QP_STATE k ≠ 3) ∧
    (let s := roceState 3;
      let k : Nat := 1;
      k < 8 ∧ s.get Fld.XPORT_ROCE_SEL_SINK = k ∧ s.get Fld.XPORT_ROCE_QP_STATE k = 3) ∧
    (let s := roceState 1;
      let k : Nat := 1;
      k < 8 ∧ s.get Fld.XPORT_ROCE_SEL_SINK = k ∧ s.get Fld.XPORT_ROCE_QP_STATE k ≠ 3) := by
  refine ⟨?_, ?_, ?_, ?_, ?_, ?_, ?_, ?_, ?_, ?_, ?_, ?_, ?_, ?_, ?_⟩ <;> decide +kernel
theorem witness_RefillRecords :
    (let s := sinkState;
      let f := sinkFrame 0x42 (locRec 1 77);
      let bs := f.body.payload;
      let i := connIdx f.ep f.ch;
      let r := Sparse.get { : RefillIn } s.spring.refill i;
      inOrderFrame s f ∧
        f.body.op = 66 ∧
          bs.length = 48 ∧
            fieldOf bs 4 4 = 48 ∧
              f.body.arg1 = 0 ∧
                r.bytes = [] ∧ r.number = f.body.arg0 ∧ crc32c (List.take 28 bs) ≠ fieldOf bs 28 4) ∧
    (let s : State := { sinkState with clay := { active := some { hdr := 65535 * 2 ^ 640 } } };
      let f := sinkFrame 0x42 (homeRec 1 5 77);
      let bs := f.body.payload;
      let i := connIdx f.ep f.ch;
      let r := Sparse.get { : RefillIn } s.spring.refill i;
      let key := fieldOf bs 32 8;
      let stack := bits (fieldOf bs 16 8) 44 4;
      let home := homeStack key = stack ∧ homeModule key s.jobN = s.rank;
      inOrderFrame s f ∧
        f.body.op = 66 ∧
          bs.length = 48 ∧
            fieldOf bs 4 4 = 48 ∧
              f.body.arg1 = 0 ∧
                r.bytes = [] ∧
                  r.number = f.body.arg0 ∧
                    crc32c (List.take 28 bs) = fieldOf bs 28 4 ∧
                      bs.getD 0 0 = 4 ∧ ¬home ∧ fieldOf bs 43 1 ≤ 1) ∧
    (let s := sinkState;
      let f := sinkFrame 0x42 (locRec 0 77);
      let bs := f.body.payload;
      let i := connIdx f.ep f.ch;
      let r := Sparse.get { : RefillIn } s.spring.refill i;
      let key := fieldOf bs 32 8;
      let stack := bits (fieldOf bs 16 8) 44 4;
      let home := homeStack key = stack ∧ homeModule key s.jobN = s.rank;
      inOrderFrame s f ∧
        f.body.op = 66 ∧
          bs.length = 48 ∧
            fieldOf bs 4 4 = 48 ∧
              f.body.arg1 = 0 ∧
                r.bytes = [] ∧
                  r.number = f.body.arg0 ∧
                    crc32c (List.take 28 bs) = fieldOf bs 28 4 ∧
                      bs.getD 0 0 = 4 ∧ home ∧ fieldOf bs 43 1 = 0) ∧
    (let s := sinkState;
      let f := sinkFrame 0x42 (homeRec 1 5 77);
      let bs := f.body.payload;
      let i := connIdx f.ep f.ch;
      let r := Sparse.get { : RefillIn } s.spring.refill i;
      let key := fieldOf bs 32 8;
      let stack := bits (fieldOf bs 16 8) 44 4;
      let home := homeStack key = stack ∧ homeModule key s.jobN = s.rank;
      inOrderFrame s f ∧
        f.body.op = 66 ∧
          bs.length = 48 ∧
            fieldOf bs 4 4 = 48 ∧
              f.body.arg1 = 0 ∧
                r.bytes = [] ∧
                  r.number = f.body.arg0 ∧
                    crc32c (List.take 28 bs) = fieldOf bs 28 4 ∧
                      bs.getD 0 0 = 4 ∧ home ∧ fieldOf bs 43 1 = 1) := by
  refine ⟨?_, ?_, ?_, ?_⟩ <;> decide +kernel

theorem witness_SpringTakesLinkItems_notice :
    Sparse.get [] (linkState (.notice 5 true 0) 1).spring.link 3 = [.notice 5 true 0] := by decide +kernel

/-! The history units. -/

/-- Die 0's store: 64 channels in FP8, inputs in BF16, 20 KV_T frames; queue 1 brings requests, queue 2 takes replies. -/
def kvUps : List Upd :=
  [setF .SEQ_CFG_WIDTH 1, setF .SEQ_CFG_KEY_FMT 4, setF .SEQ_CFG_VAL_FMT 4, setF .SEQ_CFG_MUL_FMT 4, setF .SEQ_CFG_IN_FMT 2,
   setF .SEQ_STATUS_ENABLED 1, setF .TIER_CLASS_REGION_SIZE 360 (5 * 256), setF .TIER_CLASS_REGION_BASE 16 (6 * 256),
   setF .TIER_CLASS_REGION_SIZE 16 (6 * 256), setF .BEAT_COUNT_COUNT 9]
def kvImg : Image := { secs := [(3, [1 + 2 ^ 40, 2 + 2 ^ 32])] }
def kvReq (op hist count src : Nat) : Nat :=
  op + hist * 2 ^ 8 + 2 * 2 ^ 32 + count * 2 ^ 64 + 32 * 2 ^ 96 + src * 2 ^ 112 + 5 * 2 ^ 128
def kvState (toks : List Nat) (us : List Upd := []) : State :=
  { mk (kvUps ++ us) with
    clay := { active := some kvImg }
    queues := [(1, { depth := 8, buf := toks.map (BitVec.ofNat 2048) }), (2, { depth := 20, credits := 20 })] }
def kvWrite (a : Nat) (bs : List Nat) : Upd := .bytes a bs
/-- A page 0 in frame 0 of KV_H, the first of history 3. -/
def kvPage : List Upd :=
  [setLen 3 0 1, kvWrite (sharedTarn 0 (3 * 8 * 256)) (leBytes 2 0),
   kvWrite (sharedTarn 0 0x40000) (leBytes 2 1 ++ [1, 1] ++ leBytes 4 (2 ^ 31)),
   .kv (fun k => { k with used := [(0, 0, 0)], frames := [(0, 1, 0)] })]
def kvApp : KvApp := { hdr := kvReq 1 3 1 0, left := 1, events := 1 }
def cowState : State := kvState [] (kvPage ++ [.kv (fun k => { k with pend := [⟨3, 0, 0, 1, 8⟩] })])
def zeroState (beat st : Nat) : State :=
  kvState [] (kvPage ++ [.kv (fun k => { k with zeros := [⟨0, 0, beat⟩] }), kvWrite (sharedTarn 0 0x40002) [st]])
def moveState : State := kvState [] (kvPage ++ [.kv (fun k => { k with moves := [⟨0, 0, 0, 0⟩] })])
def spillState : State :=
  kvState [] (kvPage ++ [kvWrite (sharedTarn 0 0x40004) (leBytes 4 0),
    .kv (fun k => { k with frames := (List.range 20).map (fun i => (0, 0, i)) })])
def kvShut (toks : List Nat) : State := kvState toks [setF .SEQ_STATUS_ENABLED 0]
def appended (us : List Upd) : State := kvState [7] ([.kv (fun k => { k with apps := [(1, kvApp)] })] ++ us)

theorem witness_HistoryReads :
    (let s := kvState [kvReq 2 3 2 0];
      let q : Nat := 1;
      let die := 0;
      let t := kvReq 2 3 2 0;
      let rest := [];
      kvFront s q die t 2 rest) ∧
    (let s := kvState [kvReq 2 3 2 0];
      let q : Nat := 1;
      let die := 0;
      let t := kvReq 2 3 2 0;
      let rest := [];
      let r := reqReply t;
      let layer := s.reqLayer die t;
      let n := min (reqFirst t + reqCount t) 8192 - reqFirst t;
      let c := s.reqChans die t;
      let xs :=
        (List.map
            (fun i =>
              List.map (fun k => s.readElem die (reqHist t) layer (reqFlags t % 2) (reqFirst t + i) (c.fst + k))
                (List.range c.snd))
            (List.range n)).flatten;
      let toks := elemTokens (fmtWidth (s.outFmt die (reqFlags t % 2))) xs ++ [s.statusToken die t 0];
      kvFront s q die t 2 rest ∧ s.kvEnabled die = true ∧ s.unitErr = [] ∧ takesAll s r toks) ∧
    (let s := kvShut [kvReq 2 3 2 0];
      let q : Nat := 1;
      let die := 0;
      let t := kvReq 2 3 2 0;
      let rest := [];
      let r := reqReply t;
      let zeros := s.zeroRead die t ++ [s.statusToken die t 4];
      kvFront s q die t 2 rest ∧ s.kvEnabled die = false ∧ takesAll s r zeros) ∧
    (let s := kvState [];
      let q : Nat := 1;
      kvNone s q 2) := by
  refine ⟨?_, ?_, ?_, ?_⟩ <;> decide +kernel
theorem witness_HistoryAppends :
    (let s := kvState [kvReq 1 3 1 0];
      let q : Nat := 1;
      let die : Nat := 0;
      let t := kvReq 1 3 1 0;
      kvFront s q die t 1 [] ∧ 0 < reqCount t ∧ 0 < s.eventBytes die) ∧
    (let s := appended [];
      let q : Nat := 1;
      let die : Nat := 0;
      let a := kvApp;
      let h := reqHist a.hdr;
      let layer := s.reqLayer die a.hdr;
      s.kvDie q = some die ∧
        (q, a) ∈ s.kv.apps ∧
          Sparse.get { : KvApp } s.kv.apps q = a ∧
            a.events = 1 ∧
              a.status = 0 ∧
                a.ue = false ∧
                  (s.queue q).buf.length = a.left ∧
                    s.unitErr = [] ∧
                      s.kvLen h layer < 8192 ∧
                        s.kvLen h layer % 64 = 0 ∧ (s.newPage die).isSome = true) ∧
    (let s := appended [setLen 3 0 8192];
      let q : Nat := 1;
      let die : Nat := 0;
      let a := kvApp;
      let h := reqHist a.hdr;
      let layer := s.reqLayer die a.hdr;
      s.kvDie q = some die ∧
        (q, a) ∈ s.kv.apps ∧
          Sparse.get { : KvApp } s.kv.apps q = a ∧
            a.events = 1 ∧
              a.status = 0 ∧
                a.ue = false ∧
                  (s.queue q).buf.length = a.left ∧ s.unitErr = [] ∧ 8192 ≤ s.kvLen h layer) ∧
    (let s := appended [setF .TIER_CLASS_REGION_SIZE 0 (5 * 256), setF .TIER_CLASS_REGION_SIZE 0 (6 * 256)];
      let q : Nat := 1;
      let die : Nat := 0;
      let a := kvApp;
      let h := reqHist a.hdr;
      let layer := s.reqLayer die a.hdr;
      s.kvDie q = some die ∧
        (q, a) ∈ s.kv.apps ∧
          Sparse.get { : KvApp } s.kv.apps q = a ∧
            a.events = 1 ∧
              a.status = 0 ∧
                a.ue = false ∧
                  (s.queue q).buf.length = a.left ∧
                    s.unitErr = [] ∧
                      s.kvLen h layer < 8192 ∧ s.kvLen h layer % 64 = 0 ∧ s.newPage die = none) ∧
    (let s := kvState [];
      let q : Nat := 1;
      s.kvDie q = none ∨ (List.any s.kv.apps fun a => a.fst == q) = false ∧ kvNone s q 1) := by
  refine ⟨?_, ?_, ?_, ?_, ?_⟩ <;> decide +kernel
theorem witness_HistoryRequests :
    (let s := kvState [kvReq 3 3 1 4] [setLen 4 0 1];
      let q : Nat := 1;
      let die : Nat := 0;
      let t := kvReq 3 3 1 4;
      let rest : List Token := [];
      kvFront s q die t 3 rest ∧
        s.kvEnabled die = true ∧ s.unitErr = [] ∧ ∀ (l : Nat), l < 8 → s.kvLen (reqHist t) l = 0) ∧
    (let s := kvState [kvReq 3 3 1 4] (setLen 4 0 1 :: kvPage);
      let q : Nat := 1;
      let die : Nat := 0;
      let t := kvReq 3 3 1 4;
      let rest : List Token := [];
      kvFront s q die t 3 rest ∧
        s.kvEnabled die = true ∧ s.unitErr = [] ∧ ¬∀ (l : Nat), l < 8 → s.kvLen (reqHist t) l = 0) ∧
    (let s := kvState [kvReq 4 3 1 4] kvPage;
      let q : Nat := 1;
      let die : Nat := 0;
      let t := kvReq 4 3 1 4;
      let rest : List Token := [];
      kvFront s q die t 4 rest ∧ s.kvEnabled die = true ∧ s.unitErr = []) ∧
    (let s := kvState [kvReq 5 3 1 4] kvPage;
      let q : Nat := 1;
      let die : Nat := 0;
      let t := kvReq 5 3 1 4;
      let rest : List Token := [];
      let p := s.kvOwn (reqHist t) (s.reqLayer die t) (reqFirst t);
      let f := (s.freeFrame die 0).get!;
      kvFront s q die t 5 rest ∧
        s.kvEnabled die = true ∧
          s.unitErr = [] ∧
            reqCount t = 1 ∧
              reqFirst t < kvPages (s.kvLen (reqHist t) (s.reqLayer die t)) ∧
                s.kvTier die p = 1 ∧ s.kv.moves = [] ∧ s.freeFrame die 0 = some f) ∧
    (let s := kvState [kvReq 5 3 1 4] (kvPage ++ [.kv (fun k => { k with frames := (List.range 20).map (fun i => (0, 0, i)) })]);
      let q : Nat := 1;
      let die : Nat := 0;
      let t := kvReq 5 3 1 4;
      let rest : List Token := [];
      let p := s.kvOwn (reqHist t) (s.reqLayer die t) (reqFirst t);
      kvFront s q die t 5 rest ∧
        s.kvEnabled die = true ∧
          s.unitErr = [] ∧
            reqCount t = 1 ∧
              reqFirst t < kvPages (s.kvLen (reqHist t) (s.reqLayer die t)) ∧
                s.kvTier die p = 1 ∧ s.kv.moves = [] ∧ s.freeFrame die 0 = none) ∧
    (let s := kvShut [kvReq 3 3 1 4];
      let q : Nat := 1;
      let die : Nat := 0;
      let t := kvReq 3 3 1 4;
      let rest : List Token := [];
      let oc := (3, Instr.kvShare q);
      kvFront s q die t oc.fst rest ∧ s.kvEnabled die = false) ∧
    (let s := kvState [kvReq 3 3 1 4] [setLen 4 0 1];
      let q : Nat := 1;
      let oc := (4, Instr.kvFree q);
      kvNone s q oc.fst) ∧
    (let s := kvState [kvReq 6 3 1 4];
      let q : Nat := 1;
      let die : Nat := 0;
      let t := kvReq 6 3 1 4;
      let rest : List Token := [];
      s.nextReq q = some (die, t) ∧
        (s.queue q).buf = BitVec.ofNat 2048 t :: rest ∧ s.reqBad die t = true ∧ reqOp t ≠ 1) ∧
    (let s := kvState [kvReq 1 (128 * 3) 1 4];
      let q : Nat := 1;
      let die : Nat := 0;
      let t := kvReq 1 (128 * 3) 1 4;
      let rest : List Token := [];
      s.nextReq q = some (die, t) ∧
        (s.queue q).buf = BitVec.ofNat 2048 t :: rest ∧
          s.reqBad die t = true ∧ reqOp t = 1 ∧ rest = [] ∧ 0 < reqCount t ∧ 0 < s.eventBytes die) ∧
    (let s := kvState [kvReq 3 3 1 4] [setLen 4 0 1];
      let q : Nat := 1;
      let die : Nat := 0;
      let t := kvReq 3 3 1 4;
      let rest : List Token := [];
      s.nextReq q = some (die, t) ∧
        (s.queue q).buf = BitVec.ofNat 2048 t :: rest ∧ s.reqBad die t = false) ∧
    (let s := kvState [];
      let q : Nat := 1;
      s.nextReq q = none) := by
  refine ⟨?_, ?_, ?_, ?_, ?_, ?_, ?_, ?_, ?_, ?_, ?_⟩ <;> decide +kernel
theorem witness_HistoryBoundaries :
    (let s := cowState;
      let s1 := clkOne s;
      let beat := s1.get Fld.BEAT_COUNT_COUNT;
      let h := 3;
      let layer := 0;
      let c := { hist := 3, layer := 0, idx := 0, page := 1, beat := 8 : KvPend };
      s1.kvPend h layer = some c ∧ c.beat < beat) ∧
    (let s := cowState;
      let s1 := clkOne s;
      let beat := s1.get Fld.BEAT_COUNT_COUNT;
      let h := 0;
      let layer := 0;
      ∀ c ∈ s1.kvPend h layer, beat ≤ c.beat) ∧
    (let s := zeroState 8 1;
      let die : Nat := 0;
      let p : Nat := 0;
      let s1 := clkOne s;
      let beat := s1.get Fld.BEAT_COUNT_COUNT;
      let z := { die := 0, page := 0, beat := 8 : KvZero };
      s1.kvZero die p = some z ∧ beat ≠ z.beat ∧ s1.kvState die p = 1) ∧
    (let s := cowState;
      let die : Nat := 0;
      let p : Nat := 0;
      let s1 := clkOne s;
      let beat := s1.get Fld.BEAT_COUNT_COUNT;
      ∀ z ∈ s1.kvZero die p, beat = z.beat ∨ s1.kvState die p ≠ 1) ∧
    (let s := zeroState 7 2;
      let die : Nat := 0;
      let p : Nat := 0;
      let s1 := clkOne s;
      let beat := s1.get Fld.BEAT_COUNT_COUNT;
      let z := { die := 0, page := 0, beat := 7 : KvZero };
      s1.kvZero die p = some z ∧ z.beat + 2 ≤ beat ∧ s1.kvState die p = 2) ∧
    (let s := cowState;
      let die : Nat := 0;
      let p : Nat := 0;
      let s1 := clkOne s;
      let beat := s1.get Fld.BEAT_COUNT_COUNT;
      ∀ z ∈ s1.kvZero die p, beat < z.beat + 2 ∨ s1.kvState die p ≠ 2) ∧
    (let s := cowState;
      let die : Nat := 0;
      let p : Nat := 0;
      let s1 := clkOne s;
      let isMove := fun m => m.die == die && m.page == p;
      List.find? isMove s1.kv.moves = none) := by
  refine ⟨?_, ?_, ?_, ?_, ?_, ?_, ?_⟩ <;> decide +kernel
theorem witness_HistorySpills :
    (let s := spillState;
      let die : Nat := 0;
      let now := s.get Fld.BEAT_COUNT_COUNT % 2 ^ 32;
      let may := fun u =>
        u.fst = die ∧ s.kvState die u.snd.fst = 1 ∧ s.kvTier die u.snd.fst = 0 ∧ s.kvUse die u.snd.fst ≠ now;
      let few :=
        die < 2 ∧
          s.kvEnabled die = true ∧
            s.kvFrames die 0 < (List.filter (fun t => t.fst == die && t.snd.fst == 0) s.takenFrames).length + 16;
      let f := (s.freeFrame die 1).get!;
      s.freeFrame die 1 = some f ∧ few ∧ s.kv.moves = [] ∧ ∃ u ∈ s.kv.used, may u) ∧
    (let s := kvState [];
      let die : Nat := 0;
      let now := s.get Fld.BEAT_COUNT_COUNT % 2 ^ 32;
      let may := fun u =>
        u.fst = die ∧ s.kvState die u.snd.fst = 1 ∧ s.kvTier die u.snd.fst = 0 ∧ s.kvUse die u.snd.fst ≠ now;
      let few :=
        die < 2 ∧
          s.kvEnabled die = true ∧
            s.kvFrames die 0 < (List.filter (fun t => t.fst == die && t.snd.fst == 0) s.takenFrames).length + 16;
      ¬few ∨
        (s.kv.moves.any fun m => m.die == die && m.tier == 1) = true ∨
          s.freeFrame die 1 = none ∨ ∀ u ∈ s.kv.used, ¬may u) ∧
    (let die : Nat := 0;
      die < 2) ∧
    (let die : Nat := 2;
      2 ≤ die) := by
  refine ⟨?_, ?_, ?_, ?_⟩ <;> decide +kernel

theorem witness_HistoryRequests_shut :
    (kvFront (kvShut [kvReq 3 3 1 4]) 1 0 (kvReq 3 3 1 4) 3 [] ∧ (kvShut [kvReq 3 3 1 4]).kvEnabled 0 = false ∧
      kvFront (kvShut [kvReq 4 3 1 4]) 1 0 (kvReq 4 3 1 4) 4 [] ∧ kvFront (kvShut [kvReq 5 3 1 4]) 1 0 (kvReq 5 3 1 4) 5 []) ∧
    (kvNone (kvState []) 1 3 ∧ kvNone (kvState []) 1 4 ∧ kvNone (kvState [kvReq 3 3 1 4]) 1 5) := by decide +kernel

/-! The collective engines. -/

/-- Rank 1 of 2 with a directory of one entry in WORK_H: 4 BF16 elements of shard 77, of an owner. -/
def dirEntry (owner : Nat) : List Nat :=
  leBytes 8 77 ++ leBytes 4 4 ++ leBytes 2 owner ++ leBytes 2 0 ++ leBytes 2 1 ++ [3, 2] ++ leBytes 4 0 ++
    leBytes 8 (33 * 65536) ++ leBytes 8 0 ++ leBytes 8 (34 * 65536)
def collState (owner w : Nat) (us : List Upd := []) : State :=
  { mk ([setF .BEAT_STATUS_STATE 1, setF .BEAT_STEP_STEP 5, setF .BEAT_COUNT_COUNT 90, setF .COLL_WORK_ITEM w 0,
      setF .TIER_CLASS_REGION_BASE 32 (3 * 256), setF .TIER_CLASS_REGION_SIZE 16 (3 * 256), setF .COLL_DIR_BASE 32,
      setF .COLL_DIR_COUNT 1, .bytes (32 * 65536) (dirEntry owner), .slices (fun _ => [⟨4, 0, 0, 0, 0, 0⟩])] ++ us) with
    clay := { active := some { hdr := 2 ^ 624 + 2 ^ 640, secs := [(3, [1 + 4 * 2 ^ 40])] } }
    queues := [(1, { depth := 4, buf := [9#2048] })] }
def chainItem : Nat := 2 ^ 32
def rootItem (qin : Nat) : Nat := 1 + 2 * 2 ^ 4 + qin * 2 ^ 16 + 0x1FFF * 2 ^ 29
def gatherItem : Nat := 2 + 2 ^ 32
def accTok (entry n : Nat) : Token := BitVec.ofNat 2048 (entry + n * 2 ^ 16 + 1 * 2 ^ 32 + 0x3F800000 * 2 ^ 64)
def accState (tok : Token) : State := { collState 1 0 with queues := [(1, { depth := 4, buf := [tok] })] }
def nocState (b : GtBody) (us : List Upd := []) : State := collState 1 0 (.xport (fun x => { x with noc := [b] }) :: us)
def segBody : GtBody := { op := 0x30, step := 5, arg0 := 77, arg1 := 0, payload := (List.replicate 4 (leBytes 4 0x3F800000 ++ leBytes 4 0)).flatten }
def segHop : ChainHop := ⟨0, 77, 0, 5, 0, 99, false, false⟩
def addHop : Upd := .coll (fun c => { c with chains := [segHop] })
def conBody : GtBody := { op := 0x31, step := 5, arg0 := 0, arg1 := 2, payload := leBytes 8 6 }
def rootOpen (due : Nat) : Upd := .coll (fun c => { c with roots := [⟨0, 5, 2, 1, true, due, [], none, [], false, false⟩] })
def lone : Upd := setF .COLL_PEER_STATE 1 0
def resBody (func : Nat) : GtBody :=
  { op := 0x32, step := 5, arg0 := 0, arg1 := func, payload := leBytes 4 0x40800000 ++ leBytes 4 0 ++ leBytes 8 1 }
/-- Shard 77 in the master region at 48 x 64 KiB: its header in the next line, two elements. -/
def shardUps : List Upd :=
  [setF .TIER_CLASS_REGION_BASE 48 (14 * 256), setF .TIER_CLASS_REGION_SIZE 4 (14 * 256),
   .bytes (48 * 65536) (leBytes 8 1 ++ leBytes 8 0 ++ leBytes 8 77 ++ leBytes 8 (48 * 65536 + 64)),
   .bytes (48 * 65536 + 64) (leBytes 8 77 ++ leBytes 4 2 ++ leBytes 4 0 ++ leBytes 8 (2 ^ 63 + 4))]
def fetBody (op : Nat) (payload : List Nat) (step := 0) : GtBody := { op := op, step := step, arg0 := 77, payload := payload }
/-- Rank 0 as a peer, and a frame of it. -/
def peerUps : List Upd :=
  [setF .XPORT_EP_CFG_KIND 1 0, setF .XPORT_EP_STATE_CONN 2 0, setF .XPORT_EP_STATE_PEER_INC 3 0, setConn 0 0 { win := 16 }]
def peerFrame (b : GtBody) : GtFrame := ⟨0, 0, 0, 4, 3, 0, 0, 0, b, 0⟩
def fet : Fetch := ⟨0, 77, 0, 0, 0, false, 34 * 65536, 8, 0⟩
def fetState (b : GtBody) (us : List Upd := []) : State :=
  nocState b (peerUps ++ us ++ [setF .COLL_CFG_LEASE_BEATS 10, .coll (fun c => { c with fetches := [fet], old := [(77, 4, 80)], lent := [⟨0, 77, 4⟩] })])
def relBody : GtBody := { op := 0x36, arg0 := 1, payload := leBytes 8 77 ++ leBytes 8 4 }
def lostState : State := fetState relBody [setF .XPORT_EP_CFG_WATCH 1 0, setF .XPORT_EP_STATE_SILENCE 6 0]
def rejoinState : State := collState 1 0 [setF .COLL_PEER_STATE 2 0, setF .COLL_PEER_JOIN_STEP 5 0]
/-- A resharding image under which the row of `rKey` belongs to another of 65,536 modules. -/
def permState (st : Nat) : State :=
  rowState (runs ++ [setF .COLL_STATUS_PERM_STATE st, setF .COLL_CFG_PERM_WINDOW 4,
    .coll (fun c => { c with walks := List.replicate 16 {} })]) (65535 * 2 ^ 640)
def slice9 : Slice := ⟨4, 0, 0, 0, 0, 0⟩
/-- The engine's state where its peer of rank 0 is lost, and one where every stack has closed. -/
def loneState (owner w : Nat) (us : List Upd := []) : State := collState owner w (lone :: us)
def closedAll : Upd := .silt (fun x => { x with closed := (List.range 16).map (fun k => (k, 6)) })
def rootWith (h : RootHop → RootHop) : Upd :=
  .coll (fun c => { c with roots := [h { item := 0, step := 5, func := 2, words := 1, issued := true, due := 99 }] })
def nanBody : GtBody := { resBody 0 with payload := leBytes 4 fNaN ++ leBytes 12 0 }

def sinkLost : State :=
  { lostState with mem := lostState.mem }.run [setF .XPORT_EP_CFG_KIND 2 0, setF .SPRING_SINK_STATE_STATE 1 1, setSink 1 (fun x => { x with decl := 5 * 2 ^ 64 })]
/-- The row is torn, and the walk has come to what it put off. -/
def walkState (st phase : Nat) (us : List Upd := []) : State :=
  permState st |>.run ([.coll (fun c => { c with walks := List.replicate 16 { phase := phase, again := if phase = 1 then [rKey] else [] } })] ++ us)
def tornP : Upd := .rows (fun r => { r with torn := [⟨rStack, rKey, 4096⟩] })

theorem witness_ChainSlices :
    (let s := collState 1 chainItem;
      let die : Nat := 0;
      let x := slice9;
      let w := chainItem;
      let step := s.get Fld.BEAT_STEP_STEP;
      let d := (s.dirAt (itemFirst w)).get!;
      let prev := s.chainPrev d (chainPos d s.rank);
      collNext s die x w ∧
        s.dirAt (itemFirst w) = some d ∧
          itemOp w = 0 ∧
            itemCount w = 1 ∧
              dirDie d = die ∧
                s.hasBasin d = true ∧
                  chainMember d s.rank = true ∧
                    chainMember d (dirOwner d) = true ∧
                      (∀ h ∈ s.coll.chains, ¬(h.key = dirKey d ∧ h.step = step)) ∧
                        (∀ e ∈ s.coll.early, ¬(e.key = dirKey d ∧ e.step = step)) ∧
                          prev.isSome = true) ∧
    (let s := loneState 1 chainItem;
      let die : Nat := 0;
      let x := slice9;
      let w := chainItem;
      let step := s.get Fld.BEAT_STEP_STEP;
      let d := (s.dirAt (itemFirst w)).get!;
      let prev := s.chainPrev d (chainPos d s.rank);
      collNext s die x w ∧
        s.dirAt (itemFirst w) = some d ∧
          itemOp w = 0 ∧
            itemCount w = 1 ∧
              dirDie d = die ∧
                s.hasBasin d = true ∧
                  chainMember d s.rank = true ∧
                    chainMember d (dirOwner d) = true ∧
                      (∀ h ∈ s.coll.chains, ¬(h.key = dirKey d ∧ h.step = step)) ∧
                        (∀ e ∈ s.coll.early, ¬(e.key = dirKey d ∧ e.step = step)) ∧
                          prev = none ∧ 1 ≤ dirElems d ∧ dirElems d ≤ 1024 ∧ s.coll.late = []) ∧
    (let s := collState 1 15;
      let die : Nat := 0;
      let x := slice9;
      let w := 15;
      collNext s die x w ∧ (3 ≤ itemOp w ∨ itemOp w = 1 ∧ itemFunc w = 0 ∧ die = 1)) ∧
    (let s := collState 1 chainItem;
      let die : Nat := 0;
      let x := slice9;
      let w := chainItem;
      let oc := (1, Instr.collRoot die);
      collNext s die x w ∧ itemOp w ≠ oc.fst) ∧
    (let s := collState 1 chainItem;
      let die : Nat := 0;
      let x := slice9;
      let w := chainItem;
      collNext s die x w ∧ itemOp w < 3 ∧ ¬(itemOp w = 1 ∧ itemFunc w = 0 ∧ die = 1)) ∧
    (let s := collState 1 15 [.slices (fun _ => [])];
      let die : Nat := 0;
      s.nextSlice 4 die = none) := by
  refine ⟨?_, ?_, ?_, ?_, ?_, ?_⟩ <;> decide +kernel
theorem witness_RootAndGatherSlices :
    (let s := collState 1 (rootItem 1) [rootWith id];
      let die : Nat := 0;
      let x := slice9;
      let w := rootItem 1;
      let step := s.get Fld.BEAT_STEP_STEP;
      let item := 128 * die + x.target % 128;
      collNext s die x w ∧
        itemOp w = 1 ∧ ¬(itemFunc w = 0 ∧ die = 1) ∧ (s.rootHop item step).issued = true) ∧
    (let s := collState 1 (rootItem 2);
      let die : Nat := 0;
      let x := slice9;
      let w := rootItem 2;
      let step := s.get Fld.BEAT_STEP_STEP;
      let item := 128 * die + x.target % 128;
      let new := s.coll.roots.any (isRoot item step) = false;
      collNext s die x w ∧
        itemOp w = 1 ∧ 1 ≤ itemFunc w ∧ new ∧ (itemQin w = 8191 ∨ (s.queue (itemQin w)).buf = [])) ∧
    (let s := collState 1 (rootItem 1);
      let die : Nat := 0;
      let x := slice9;
      let w := rootItem 1;
      let step := s.get Fld.BEAT_STEP_STEP;
      let item := 128 * die + x.target % 128;
      let new := s.coll.roots.any (isRoot item step) = false;
      collNext s die x w ∧
        itemOp w = 1 ∧
          1 ≤ itemFunc w ∧
            new ∧
              (s.queue (itemQin w)).buf = (s.queue (itemQin w)).buf.head! :: (s.queue (itemQin w)).buf.tail ∧
                itemQin w ≠ 8191) ∧
    (let s := collState 1 (1 + 0x1FFF * 2 ^ 16 + 0x1FFF * 2 ^ 29);
      let die : Nat := 0;
      let x := slice9;
      let w : Nat := 1 + 0x1FFF * 2 ^ 16 + 0x1FFF * 2 ^ 29;
      let step := s.get Fld.BEAT_STEP_STEP;
      let item := 128 * die + x.target % 128;
      let new := s.coll.roots.any (isRoot item step) = false;
      collNext s die x w ∧
        itemOp w = 1 ∧
          itemFunc w = 0 ∧
            die = 0 ∧
              new ∧
                itemQin w = 8191 ∧
                  s.coll.borrowed = [] ∧ ((List.range 16).all fun st => s.isClosed st step) = false) ∧
    (let s := collState 0 (1 + 0x1FFF * 2 ^ 16 + 0x1FFF * 2 ^ 29) [closedAll];
      let die : Nat := 0;
      let x := slice9;
      let w : Nat := 1 + 0x1FFF * 2 ^ 16 + 0x1FFF * 2 ^ 29;
      let step := s.get Fld.BEAT_STEP_STEP;
      let item := 128 * die + x.target % 128;
      let new := s.coll.roots.any (isRoot item step) = false;
      collNext s die x w ∧
        itemOp w = 1 ∧
          itemFunc w = 0 ∧
            die = 0 ∧
              new ∧
                itemQin w = 8191 ∧
                  s.coll.borrowed = [] ∧
                    ((List.range 16).all fun st => s.isClosed st step) = true ∧ s.ownedShards = []) ∧
    (let s := collState 0 gatherItem;
      let die : Nat := 0;
      let x := slice9;
      let w := gatherItem;
      let d := (s.dirAt (itemFirst w)).get!;
      let len := dirElems d * (fmtWidth (dirFmt d) / 8);
      collNext s die x w ∧
        s.dirAt (itemFirst w) = some d ∧
          itemOp w = 2 ∧
            itemCount w = 1 ∧
              dirDie d = die ∧
                dirFlag d 1 = true ∧
                  dirOwner d ≠ s.rank ∧
                    s.inRegion 3 0 (dirFetch d) len = true ∧ s.live (dirOwner d) = true) ∧
    (let s := loneState 0 gatherItem;
      let die : Nat := 0;
      let x := slice9;
      let w := gatherItem;
      let d := (s.dirAt (itemFirst w)).get!;
      let len := dirElems d * (fmtWidth (dirFmt d) / 8);
      collNext s die x w ∧
        s.dirAt (itemFirst w) = some d ∧
          itemOp w = 2 ∧
            itemCount w = 1 ∧
              dirDie d = die ∧
                dirFlag d 1 = true ∧
                  dirOwner d ≠ s.rank ∧
                    s.inRegion 3 0 (dirFetch d) len = true ∧
                      s.live (dirOwner d) = false ∧ x.slot < 8 ∧ s.var Var.mbDropNext x.slot = 0) := by
  refine ⟨?_, ?_, ?_, ?_, ?_, ?_, ?_⟩ <;> decide +kernel
theorem witness_AccumulationTokens :
    (let s := accState (accTok 1 2);
      let q : Nat := 1;
      let x := BitVec.toNat (s.queue q).buf.head!;
      (s.queue q).buf = (s.queue q).buf.head! :: (s.queue q).buf.tail ∧
        s.consKind q = 4 ∧ s.dirAt (accEntry x) = none) ∧
    (let s := accState (accTok 0 4);
      let q : Nat := 1;
      let x := BitVec.toNat (s.queue q).buf.head!;
      let n := accCount x;
      let d := (s.dirAt (accEntry x)).get!;
      let bad := s.hasBasin d = false ∨ n = 0 ∨ 31 < n ∨ dirElems d < accFirst x + n;
      (s.queue q).buf = (s.queue q).buf.head! :: (s.queue q).buf.tail ∧
        s.consKind q = 4 ∧ s.dirAt (accEntry x) = some d ∧ bad) ∧
    (let s := (accState (accTok 0 2)).run [.coll (fun c => { c with stale := [(0, 0)] })];
      let q : Nat := 1;
      let x := BitVec.toNat (s.queue q).buf.head!;
      let n := accCount x;
      let d := (s.dirAt (accEntry x)).get!;
      let bad := s.hasBasin d = false ∨ n = 0 ∨ 31 < n ∨ dirElems d < accFirst x + n;
      (s.queue q).buf = (s.queue q).buf.head! :: (s.queue q).buf.tail ∧
        s.consKind q = 4 ∧
          s.dirAt (accEntry x) = some d ∧ ¬bad ∧ s.coll.stale.contains (accSlot x, accEntry x) = true) ∧
    (let s := (accState (accTok 0 2)).run [addHop];
      let q : Nat := 1;
      let x := BitVec.toNat (s.queue q).buf.head!;
      let n := accCount x;
      let d := (s.dirAt (accEntry x)).get!;
      let bad := s.hasBasin d = false ∨ n = 0 ∨ 31 < n ∨ dirElems d < accFirst x + n;
      (s.queue q).buf = (s.queue q).buf.head! :: (s.queue q).buf.tail ∧
        s.consKind q = 4 ∧
          s.dirAt (accEntry x) = some d ∧
            ¬bad ∧
              s.coll.stale.contains (accSlot x, accEntry x) = false ∧
                s.accHeld (accEntry x) d (accFirst x) n = true) ∧
    (let s := accState (accTok 0 2);
      let q : Nat := 1;
      let x := BitVec.toNat (s.queue q).buf.head!;
      let n := accCount x;
      let d := (s.dirAt (accEntry x)).get!;
      let bad := s.hasBasin d = false ∨ n = 0 ∨ 31 < n ∨ dirElems d < accFirst x + n;
      (s.queue q).buf = (s.queue q).buf.head! :: (s.queue q).buf.tail ∧
        s.consKind q = 4 ∧
          s.dirAt (accEntry x) = some d ∧
            ¬bad ∧
              s.coll.stale.contains (accSlot x, accEntry x) = false ∧
                s.accHeld (accEntry x) d (accFirst x) n = false ∧ s.unitErr = []) ∧
    (let s := accState (accTok 1 2);
      let q : Nat := 2;
      s.consKind q ≠ 4 ∨ (s.queue q).buf = []) := by
  refine ⟨?_, ?_, ?_, ?_, ?_, ?_⟩ <;> decide +kernel
theorem witness_ChainArrivals :
    (let s := nocState { segBody with arg0 := 78 };
      let rank : Nat := 1;
      let b : GtBody := { segBody with arg0 := 78 };
      let m : Via := .noc 0;
      comes s 48 rank b m ∧ (s.dirOf b.arg0 = none ∨ s.get Fld.BEAT_STEP_STEP + 1 < b.step)) ∧
    (let s := nocState segBody;
      let rank : Nat := 1;
      let b := segBody;
      let m : Via := .noc 0;
      let hop := List.find? (fun h => h.key == b.arg0 && h.first == b.arg1 && h.step == b.step) s.coll.chains;
      comes s 48 rank b m ∧
        s.dirOf b.arg0 = some ((s.dirOf b.arg0).get!.fst, (s.dirOf b.arg0).get!.snd) ∧
          s.hasBasin (s.dirOf b.arg0).get!.snd = true ∧
            b.arg1 < dirElems (s.dirOf b.arg0).get!.snd ∧
              b.arg1 % 1024 = 0 ∧
                b.step ≤ s.get Fld.BEAT_STEP_STEP + 1 ∧
                  hop = none ∧ s.get Fld.BEAT_STEP_STEP ≤ b.step) ∧
    (let s := nocState segBody [addHop];
      let rank : Nat := 1;
      let b := segBody;
      let m : Via := .noc 0;
      let hop := List.find? (fun h => h.key == b.arg0 && h.first == b.arg1 && h.step == b.step) s.coll.chains;
      let h := { entry := 0, key := 77, first := 0, step := 5, cls := 0, due := 99 : ChainHop };
      let e := (s.dirAt h.entry).get!;
      comes s 48 rank b m ∧
        s.dirOf b.arg0 = some ((s.dirOf b.arg0).get!.fst, (s.dirOf b.arg0).get!.snd) ∧
          s.hasBasin (s.dirOf b.arg0).get!.snd = true ∧
            b.arg1 < dirElems (s.dirOf b.arg0).get!.snd ∧
              b.arg1 % 1024 = 0 ∧
                b.step ≤ s.get Fld.BEAT_STEP_STEP + 1 ∧
                  hop = some h ∧
                    s.dirAt h.entry = some e ∧
                      h.done = false ∧ s.coll.late.contains (h.entry, h.first, h.step) = false) ∧
    (let s := nocState segBody [.coll (fun c => { c with chains := [{ segHop with done := true }] })];
      let rank : Nat := 1;
      let b := segBody;
      let m : Via := .noc 0;
      let hop := List.find? (fun h => h.key == b.arg0 && h.first == b.arg1 && h.step == b.step) s.coll.chains;
      comes s 48 rank b m ∧
        s.dirOf b.arg0 = some ((s.dirOf b.arg0).get!.fst, (s.dirOf b.arg0).get!.snd) ∧
          s.hasBasin (s.dirOf b.arg0).get!.snd = true ∧
            b.arg1 < dirElems (s.dirOf b.arg0).get!.snd ∧
              b.arg1 % 1024 = 0 ∧
                b.step ≤ s.get Fld.BEAT_STEP_STEP + 1 ∧
                  (Option.any (fun x => x.done) hop = true ∨ hop = none ∧ b.step < s.get Fld.BEAT_STEP_STEP) ∧
                    (s.policy 2 (s.chainClass (s.dirOf b.arg0).get!.fst) 1 ≠ 0 ∨
                      s.hasLate (s.dirOf b.arg0).get!.snd = false)) := by
  refine ⟨?_, ?_, ?_, ?_⟩ <;> decide +kernel
theorem witness_RootArrivals :
    (let s := nocState conBody [rootWith id, lone];
      let rank : Nat := 1;
      let b := conBody;
      let m : Via := .noc 0;
      let h := s.rootHop b.arg0 b.step;
      b.arg0 < 256 ∧
        comes s 49 rank b m ∧
          b.arg1.testBit 15 = false ∧
            s.root = s.rank ∧
              h.closed = false ∧ h.issued = true ∧ (h.got.any fun g => g.fst == rank) = false) ∧
    (let s := nocState conBody [rootWith (fun h => { h with got := [(1, [4])] }), lone];
      let rank : Nat := 1;
      let b := conBody;
      let m : Via := .noc 0;
      let h := s.rootHop b.arg0 b.step;
      b.arg0 < 256 ∧
        comes s 49 rank b m ∧
          b.arg1.testBit 15 = false ∧
            s.root = s.rank ∧
              h.closed = false ∧ h.issued = true ∧ (h.got.any fun g => g.fst == rank) = true) ∧
    (let s := nocState conBody [rootWith (fun h => { h with closed := true }), lone];
      let rank : Nat := 1;
      let b := conBody;
      let m : Via := .noc 0;
      let h := s.rootHop b.arg0 b.step;
      b.arg0 < 256 ∧
        comes s 49 rank b m ∧ b.arg1.testBit 15 = false ∧ s.root = s.rank ∧ h.closed = true) ∧
    (let s := nocState conBody [rootWith id];
      let rank : Nat := 1;
      let b := conBody;
      let m : Via := .noc 0;
      b.arg0 < 256 ∧ comes s 49 rank b m ∧ b.arg1.testBit 15 = false ∧ s.root ≠ s.rank) ∧
    (let s := nocState (resBody 0) [rootWith (fun h => { h with used := true })];
      let rank : Nat := 1;
      let b := resBody 0;
      let m : Via := .noc 0;
      let h := s.rootHop b.arg0 b.step;
      b.arg0 < 256 ∧ comes s 50 rank b m ∧ h.used = true) ∧
    (let s := nocState (resBody 2);
      let rank : Nat := 1;
      let b := resBody 2;
      let m : Via := .noc 0;
      let h := s.rootHop b.arg0 b.step;
      b.arg0 < 256 ∧ comes s 50 rank b m ∧ h.used = false ∧ 1 ≤ bits b.arg1 0 4) ∧
    (let s := nocState (resBody 0);
      let rank : Nat := 1;
      let b := resBody 0;
      let m : Via := .noc 0;
      let h := s.rootHop b.arg0 b.step;
      b.arg0 < 256 ∧
        comes s 50 rank b m ∧
          h.used = false ∧ bits b.arg1 0 4 = 0 ∧ ∀ f ∈ s.rows.fwds, f.step ≠ b.step) := by
  refine ⟨?_, ?_, ?_, ?_, ?_, ?_, ?_⟩ <;> decide +kernel
theorem witness_HopDeadlines :
    (let s := collState 1 0 [rootWith (fun h => { h with due := 90 }), lone];
      let beat := s.get Fld.BEAT_COUNT_COUNT;
      let waits := fun h => h.done = false ∧ h.due ≤ beat;
      let open' := fun h =>
        h.issued = true ∧ h.closed = false ∧ (h.used = false ∨ h.got ≠ []) ∧ h.due ≤ beat ∧ s.root = s.rank;
      s.coll.roots = [{ item := 0, step := 5, func := 2, issued := true, due := 90 : RootHop }] ∧
        (∀ x ∈ s.coll.chains, ¬waits x) ∧
          open' { item := 0, step := 5, func := 2, issued := true, due := 90 : RootHop }) ∧
    (let s := collState 1 0;
      let beat := s.get Fld.BEAT_COUNT_COUNT;
      let waits := fun h => h.done = false ∧ h.due ≤ beat;
      let open' := fun h =>
        h.issued = true ∧ h.closed = false ∧ (h.used = false ∨ h.got ≠ []) ∧ h.due ≤ beat ∧ s.root = s.rank;
      (∀ x ∈ s.coll.chains, ¬waits x) ∧ ∀ h ∈ s.coll.roots, ¬open' h) := by
  refine ⟨?_, ?_⟩ <;> decide +kernel
theorem witness_LeasesAtTheOwner :
    (let s := nocState (fetBody 0x33 []) peerUps;
      let rank := 0;
      let b := fetBody 51 [];
      let m := Via.gt (peerFrame (fetBody 51 []));
      let named := if b.arg1.testBit 0 = true then some b.step else none;
      comes s 51 rank b m ∧
        s.coll.ended = [] ∧ ((s.shardHeader b.arg0).bind fun h => s.serveBank b.arg0 h named) = none) ∧
    (let s := nocState (fetBody 0x33 []) (shardUps ++ [.coll (fun c => { c with lent := [⟨1, 77, 4⟩] })]);
      let rank := 1;
      let b := fetBody 51 [];
      let m := Via.noc 0;
      let named := if b.arg1.testBit 0 = true then some b.step else none;
      let h := (s.shardHeader b.arg0).get!;
      let bank := (s.serveBank b.arg0 h named).get!;
      let lease := { rank := rank, key := b.arg0, version := s.bankVersion h bank : Lease };
      comes s 51 rank b m ∧
        s.coll.ended = [] ∧
          s.shardHeader b.arg0 = some h ∧
            s.serveBank b.arg0 h named = some bank ∧ s.coll.lent.contains lease = true) ∧
    (let s := nocState (fetBody 0x33 []) shardUps;
      let rank := 1;
      let b := fetBody 51 [];
      let m := Via.noc 0;
      let named := if b.arg1.testBit 0 = true then some b.step else none;
      let h := (s.shardHeader b.arg0).get!;
      let bank := (s.serveBank b.arg0 h named).get!;
      let lease := { rank := rank, key := b.arg0, version := s.bankVersion h bank : Lease };
      comes s 51 rank b m ∧
        s.coll.ended = [] ∧
          s.shardHeader b.arg0 = some h ∧
            s.serveBank b.arg0 h named = some bank ∧
              s.coll.lent.contains lease = false ∧ s.coll.lent.length < 16384) ∧
    (let s := nocState (fetBody 0x33 []) peerUps;
      let rank := 0;
      let b := relBody;
      let m := Via.gt (peerFrame relBody);
      comes s 54 rank b m) ∧
    (let s := fetState relBody;
      let key := 77;
      let v := 4;
      let o := List.find? (fun o => o.fst == key && o.snd.fst == v) s.coll.old;
      let spent :=
        Option.any (fun x => decide (x.snd.snd + s.get Fld.COLL_CFG_LEASE_BEATS ≤ s.get Fld.BEAT_COUNT_COUNT)) o = true;
      spent) ∧
    (let s := nocState (fetBody 0x33 []) peerUps;
      let key := 0;
      let v := 0;
      let o := List.find? (fun o => o.fst == key && o.snd.fst == v) s.coll.old;
      let spent :=
        Option.any (fun x => decide (x.snd.snd + s.get Fld.COLL_CFG_LEASE_BEATS ≤ s.get Fld.BEAT_COUNT_COUNT)) o = true;
      ¬spent) := by
  refine ⟨?_, ?_, ?_, ?_, ?_, ?_⟩ <;> decide +kernel
theorem witness_FetchReplies :
    (let s := fetState relBody;
      let rank : Nat := 0;
      let b := fetBody 0x34 (leBytes 8 5) 4;
      let m : Via := .gt (peerFrame (fetBody 0x34 (leBytes 8 5) 4));
      let fetch := List.find? (fun f => f.key == b.arg0 && f.owner == rank) s.coll.fetches;
      let f := { entry := 0, key := 77, owner := 0, slot := 0, cls := 0, bwd := false, dpa := 2228224, len := 8 : Fetch };
      let d := (s.dirAt f.entry).get!;
      fetch = some f ∧ s.dirAt f.entry = some d ∧ comes s 52 rank b m) ∧
    (let s := fetState relBody;
      let rank : Nat := 0;
      let b := fetBody 0x35 [];
      let m : Via := .gt (peerFrame (fetBody 0x35 []));
      let fetch := List.find? (fun f => f.key == b.arg0 && f.owner == rank) s.coll.fetches;
      let f := { entry := 0, key := 77, owner := 0, slot := 0, cls := 0, bwd := false, dpa := 2228224, len := 8 : Fetch };
      fetch = some f ∧ comes s 53 rank b m) ∧
    (let s := (fetState relBody).run [.coll (fun c => { c with fetches := [] })];
      let rank : Nat := 0;
      let b := fetBody 0x34 (leBytes 8 5) 4;
      let m : Via := .gt (peerFrame (fetBody 0x34 (leBytes 8 5) 4));
      let fetch := List.find? (fun f => f.key == b.arg0 && f.owner == rank) s.coll.fetches;
      fetch = none ∧ comes s 52 rank b m) ∧
    (let s := (fetState relBody).run [.coll (fun c => { c with fetches := [] })];
      let rank : Nat := 0;
      let b := fetBody 0x35 [];
      let m : Via := .gt (peerFrame (fetBody 0x35 []));
      let fetch := List.find? (fun f => f.key == b.arg0 && f.owner == rank) s.coll.fetches;
      fetch = none ∧ comes s 53 rank b m) := by
  refine ⟨?_, ?_, ?_, ?_⟩ <;> decide +kernel
theorem witness_TheView :
    (let s := lostState;
      let ep : Nat := 0;
      s.lostDue ep = true) ∧
    (let s := rejoinState;
      let ep : Nat := 0;
      s.lostDue ep = false) ∧
    (let s := rejoinState;
      let ep : Nat := 0;
      s.get Fld.COLL_PEER_STATE ep = 2 ∧ s.get Fld.COLL_PEER_JOIN_STEP ep ≤ s.get Fld.BEAT_STEP_STEP) ∧
    (let s := lostState;
      let ep : Nat := 0;
      s.get Fld.COLL_PEER_STATE ep ≠ 2 ∨ s.get Fld.BEAT_STEP_STEP < s.get Fld.COLL_PEER_JOIN_STEP ep) := by
  refine ⟨?_, ?_, ?_, ?_⟩ <;> decide +kernel
theorem witness_Permutation :
    (let s := permState 0;
      let st := s.get Fld.COLL_STATUS_PERM_STATE;
      let starts := s.prevN.isSome = true ∧ st ≠ 1 ∧ st ≠ 2;
      starts) ∧
    (let s := permState 1;
      let st := s.get Fld.COLL_STATUS_PERM_STATE;
      let starts := s.prevN.isSome = true ∧ st ≠ 1 ∧ st ≠ 2;
      ¬starts) ∧
    (let s := permState 1;
      let st := s.get Fld.COLL_STATUS_PERM_STATE;
      st = 1) ∧
    (let s := permState 0;
      let st := s.get Fld.COLL_STATUS_PERM_STATE;
      st ≠ 1) ∧
    (let s := permState 0;
      let st := s.get Fld.COLL_STATUS_PERM_STATE;
      let stack := 0;
      let w := s.walk stack;
      let goes := stack < 16 ∧ st = 1 ∧ w.phase ≠ 2 ∧ s.permMoves stack < s.get Fld.COLL_CFG_PERM_WINDOW;
      ¬goes) ∧
    (let s := (permState 1).run [tornP];
      let st := s.get Fld.COLL_STATUS_PERM_STATE;
      let stack := 0;
      let w := s.walk stack;
      let goes := stack < 16 ∧ st = 1 ∧ w.phase ≠ 2 ∧ s.permMoves stack < s.get Fld.COLL_CFG_PERM_WINDOW;
      s.permNext stack w =
          some ((s.permNext stack w).get!.fst, (s.permNext stack w).get!.snd.fst, (s.permNext stack w).get!.snd.snd) ∧
        goes ∧ w.phase = 0 ∧ s.permBlocked stack (s.permNext stack w).get!.fst = true) ∧
    (let s := permState 1;
      let st := s.get Fld.COLL_STATUS_PERM_STATE;
      let stack := 0;
      let w := s.walk stack;
      let goes := stack < 16 ∧ st = 1 ∧ w.phase ≠ 2 ∧ s.permMoves stack < s.get Fld.COLL_CFG_PERM_WINDOW;
      let t0 := (s.table (keyTable (s.permNext stack w).get!.fst)).get!;
      s.permNext stack w =
          some ((s.permNext stack w).get!.fst, (s.permNext stack w).get!.snd.fst, (s.permNext stack w).get!.snd.snd) ∧
        goes ∧
          w.phase = 0 ∧
            s.table (keyTable (s.permNext stack w).get!.fst) = some t0 ∧
              s.resolve stack t0 (s.permNext stack w).get!.fst true = Resolved.at 0 ∧
                s.permBlocked stack (s.permNext stack w).get!.fst = false) ∧
    (let s := permState 1;
      let st := s.get Fld.COLL_STATUS_PERM_STATE;
      let stack := 1;
      let w := s.walk stack;
      let goes := stack < 16 ∧ st = 1 ∧ w.phase ≠ 2 ∧ s.permMoves stack < s.get Fld.COLL_CFG_PERM_WINDOW;
      goes ∧ w.phase = 0 ∧ s.permNext stack w = none) ∧
    (let s := walkState 1 1 [tornP];
      let st := s.get Fld.COLL_STATUS_PERM_STATE;
      let stack := 0;
      let w := s.walk stack;
      let goes := stack < 16 ∧ st = 1 ∧ w.phase ≠ 2 ∧ s.permMoves stack < s.get Fld.COLL_CFG_PERM_WINDOW;
      w.again = w.again.head! :: w.again.tail ∧
        goes ∧ w.phase = 1 ∧ s.tornRow stack w.again.head! = true) := by
  refine ⟨?_, ?_, ?_, ?_, ?_, ?_, ?_, ?_, ?_⟩ <;> decide +kernel

theorem witness_ChainSlices_none :
    (collNext (collState 1 15) 0 slice9 15 ∧ itemOp 15 ≠ 0 ∧ itemOp 15 ≠ 1 ∧ itemOp 15 ≠ 2) ∧
    (collState 1 15 [.slices (fun _ => [])]).nextSlice 4 0 = none := by decide +kernel
theorem witness_LeasesAtTheOwner_full :
    (nocState (fetBody 0x33 []) shardUps).shardHeader 77 = some (48 * 65536 + 64) ∧
    (List.replicate 16384 (⟨0, 5, 0⟩ : Lease)).contains ⟨1, 77, 4⟩ = false ∧
    16384 ≤ (List.replicate 16384 (⟨0, 5, 0⟩ : Lease)).length := 
  ⟨by decide +kernel, Bool.eq_false_iff.mpr (fun h => absurd (List.eq_of_mem_replicate (List.contains_iff_mem.mp h)) (by decide)),
    Nat.le_of_eq List.length_replicate.symm⟩

/-! Messages about rows. -/

/-- The row's module with a message on its way. -/
def msgState (b : GtBody) (us : List Upd := []) : State :=
  rowState (runs ++ [.xport (fun x => { x with noc := [b] })] ++ us)
def lookBody (key : Nat) : GtBody := { op := 0x20, step := 5, payload := reqEntry key 9 0 0 0 rStack }
def replyBody : GtBody := { op := 0x21, payload := replyEntry rKey 9 0 0 0 rStack (List.replicate 16 1) }
def waits : Upd := .emb (fun e => { e with fetched := [⟨0, 0, 5, 0, rKey, 9, 255, []⟩] })
def pushBody : GtBody := { op := 0x22, step := 5, payload := pushEntry rKey 1 0 (rStack * 8) 0 (List.replicate 4 (0x3F800000, 0)) }
/-- The row's module with an optimiser of KIND 1. -/
def optState (b : GtBody) (us : List Upd := []) : State :=
  { msgState b us with clay := { active := some { hdr := noPrev, secs := [(9, [rTab]), (10, [1])] } } }
def markBody : GtBody := { op := 0x23, step := 5, arg0 := 3 }
def copyBody : GtBody := { op := 0x28, arg0 := rKey, arg1 := (rStack + 1) % 16 + rStack * 16, payload := List.replicate 32 7 }
def moveBody (op : Nat) : GtBody := { op := op, arg0 := rKey, arg1 := rStack * 16 + rStack }
def srcMove (stage : Nat) : Upd :=
  .rows (fun r => { r with drifts := [{ stack := rStack, key := rKey, rank := 0, dest := 3, place := 16, stage := stage }] })
def dstMove : Upd := .rows (fun r => { r with arrivals := [⟨rStack, rKey, 0, 3, 0, 1, [], true, false, 0, 0⟩] })
def fwdBody (hand : Nat) : GtBody :=
  { op := 0x2E, step := 4, arg0 := rKey, arg1 := rStack + hand * 2 ^ 24, payload := leBytes 8 1 ++ leBytes 4 0x3F800000 }
/-- A copy of the row in its die's hot cache, whose directory word is `w`. -/
def hotUps (w : Nat) : List Upd :=
  let d := stackDie rStack
  let s := mk [setF .TIER_CLASS_REGION_SIZE 17 (4 * 256 + d)]
  let k := s.hotSet d rKey
  [setF .TIER_CLASS_REGION_SIZE 17 (4 * 256 + d), .bytes (s.hotDir d k) (leBytes 8 rKey ++ leBytes 8 w),
   .bytes (s.hotCopy d k) (List.replicate 16 9)]
/-- The Drift Map's entry of the row. -/
def locRow (l : Nat) : Upd := .rows (fun r => { r with dmap := [((rStack * 2 ^ 18 + dmSet rKey) * 8, (rKey, l))] })
def logged : Upd := .rows (fun r => { r with log := [⟨rStack, 0, rKey, 4096, 4, 0, false⟩] })
def lostStack : Upd := setF .ERR_STATUS_STATE_LOST (2 ^ rStack)
def tornOne : Upd := .rows (fun r => { r with torn := [⟨rStack, rKey, 4096⟩] })
/-- The row's module before it held the row: the old home is another. -/
def movedHere (us : List Upd := []) : State :=
  { msgState (lookBody rKey) (.bytes (rStack * 0x1000000000 + 0x10000) (leBytes 8 0) :: us) with
    clay := { active := some { hdr := 65535 * 2 ^ 656, secs := [(9, [rTab])] } } }
def oldHere : State :=
  { msgState { lookBody rKey with payload := reqEntry rKey 9 0 2 0 rStack } [.bytes (rStack * 0x1000000000 + 0x10000) (leBytes 8 0)] with
    clay := { active := some { hdr := 65535 * 2 ^ 640, secs := [(9, [rTab])] } } }
def mergeUps (n : Nat) : List Upd := [setF .SILT_MERGE_SIZE n rStack, setF .SILT_STATUS_STEP 5 rStack]

theorem witness_LookupRequests :
    (let s := msgState (lookBody 5);
      let rank : Nat := 0;
      let b := lookBody 5;
      let m : Via := .noc 0;
      let e := b.payload;
      let key := fieldOf e 0 8;
      comes s 32 rank b m ∧
        b.payload.length = 24 ∧ s.rows.forward = [] ∧ s.table (keyTable key) = none) ∧
    (let s := msgState (lookBody rKey) (hotUps 1);
      let rank : Nat := 0;
      let b := lookBody rKey;
      let m : Via := .noc 0;
      let e := b.payload;
      let key := fieldOf e 0 8;
      let stack := fieldOf e 16 1 % 16;
      let die := stackDie stack;
      let t0 := (s.table (keyTable key)).get!;
      let k := (s.hotFind die key).get!;
      comes s 32 rank b m ∧
        b.payload.length = 24 ∧
          s.rows.forward = [] ∧
            s.table (keyTable key) = some t0 ∧
              s.hotFind die key = some k ∧
                s.leaving stack key = false ∧
                  hotPinned (s.hotWord die k) = false ∧ s.hotBad die k = false) ∧
    (let s := msgState (lookBody rKey) [lostStack];
      let rank : Nat := 0;
      let b := lookBody rKey;
      let m : Via := .noc 0;
      let e := b.payload;
      let key := fieldOf e 0 8;
      let stack := fieldOf e 16 1 % 16;
      let die := stackDie stack;
      let room := (List.filter (fun h => h.stack == stack) s.rows.deferred).length < 1024;
      let lost := (s.get Fld.ERR_STATUS_STATE_LOST).testBit stack;
      let t0 := (s.table (keyTable key)).get!;
      comes s 32 rank b m ∧
        b.payload.length = 24 ∧
          s.rows.forward = [] ∧
            s.table (keyTable key) = some t0 ∧
              (s.hotFind die key = none ∨ s.leaving stack key = true) ∧
                Sparse.get 0 s.rows.listBad (2 * stack) = 0 ∧ lost = true ∧ room) ∧
    (let s := msgState (lookBody rKey) [locRow (mkLoc kResident 0 0 0 false true)];
      let rank : Nat := 0;
      let b := lookBody rKey;
      let m : Via := .noc 0;
      let e := b.payload;
      let key := fieldOf e 0 8;
      let stack := fieldOf e 16 1 % 16;
      let die := stackDie stack;
      let lost := (s.get Fld.ERR_STATUS_STATE_LOST).testBit stack;
      let t0 := (s.table (keyTable key)).get!;
      let found := s.resolve stack t0 key ((fieldOf e 14 1).testBit 1);
      comes s 32 rank b m ∧
        b.payload.length = 24 ∧
          s.rows.forward = [] ∧
            s.table (keyTable key) = some t0 ∧
              (s.hotFind die key = none ∨ s.leaving stack key = true) ∧
                Sparse.get 0 s.rows.listBad (2 * stack) = 0 ∧ lost = false ∧ found = Resolved.pending) ∧
    (let s := msgState (lookBody rKey) [.bytes (rStack * 0x1000000000 + 0x10000) (leBytes 8 0)];
      let rank : Nat := 0;
      let b := lookBody rKey;
      let m : Via := .noc 0;
      let e := b.payload;
      let key := fieldOf e 0 8;
      let stack := fieldOf e 16 1 % 16;
      let die := stackDie stack;
      let lost := (s.get Fld.ERR_STATUS_STATE_LOST).testBit stack;
      let t0 := (s.table (keyTable key)).get!;
      let found := s.resolve stack t0 key ((fieldOf e 14 1).testBit 1);
      let meets := s.conflicts stack key b.step;
      comes s 32 rank b m ∧
        b.payload.length = 24 ∧
          s.rows.forward = [] ∧
            s.table (keyTable key) = some t0 ∧
              (s.hotFind die key = none ∨ s.leaving stack key = true) ∧
                Sparse.get 0 s.rows.listBad (2 * stack) = 0 ∧
                  lost = false ∧
                    (found = Resolved.absent ∧ meets = false ∨ found = Resolved.absentOld)) ∧
    (let s := msgState (lookBody rKey) [.bytes (rStack * 0x1000000000 + 0x10000) (leBytes 8 0), logged];
      let rank : Nat := 0;
      let b := lookBody rKey;
      let m : Via := .noc 0;
      let e := b.payload;
      let key := fieldOf e 0 8;
      let stack := fieldOf e 16 1 % 16;
      let die := stackDie stack;
      let lost := (s.get Fld.ERR_STATUS_STATE_LOST).testBit stack;
      let t0 := (s.table (keyTable key)).get!;
      let found := s.resolve stack t0 key ((fieldOf e 14 1).testBit 1);
      let meets := s.conflicts stack key b.step;
      comes s 32 rank b m ∧
        b.payload.length = 24 ∧
          s.rows.forward = [] ∧
            s.table (keyTable key) = some t0 ∧
              (s.hotFind die key = none ∨ s.leaving stack key = true) ∧
                Sparse.get 0 s.rows.listBad (2 * stack) = 0 ∧
                  lost = false ∧ found = Resolved.absent ∧ meets = true) ∧
    (let s := msgState { lookBody rKey with payload := reqEntry rKey 9 0 0 2 rStack } [locRow (mkLoc kMoved 3 0 0)];
      let rank : Nat := 0;
      let b : GtBody := { lookBody rKey with payload := reqEntry rKey 9 0 0 2 rStack };
      let m : Via := .noc 0;
      let e := b.payload;
      let key := fieldOf e 0 8;
      let stack := fieldOf e 16 1 % 16;
      let die := stackDie stack;
      let lost := (s.get Fld.ERR_STATUS_STATE_LOST).testBit stack;
      let t0 := (s.table (keyTable key)).get!;
      let found := s.resolve stack t0 key ((fieldOf e 14 1).testBit 1);
      let meets := s.conflicts stack key b.step;
      comes s 32 rank b m ∧
        b.payload.length = 24 ∧
          s.rows.forward = [] ∧
            s.table (keyTable key) = some t0 ∧
              (s.hotFind die key = none ∨ s.leaving stack key = true) ∧
                Sparse.get 0 s.rows.listBad (2 * stack) = 0 ∧
                  found = Resolved.forward 3 0 false ∧
                    lost = false ∧ (false = false ∨ meets = false) ∧ 2 ≤ fieldOf e 15 1) ∧
    (let s := msgState (lookBody rKey) [locRow (mkLoc kMoved 3 0 0)];
      let rank : Nat := 0;
      let b := lookBody rKey;
      let m : Via := .noc 0;
      let e := b.payload;
      let key := fieldOf e 0 8;
      let stack := fieldOf e 16 1 % 16;
      let die := stackDie stack;
      let lost := (s.get Fld.ERR_STATUS_STATE_LOST).testBit stack;
      let t0 := (s.table (keyTable key)).get!;
      let found := s.resolve stack t0 key ((fieldOf e 14 1).testBit 1);
      let meets := s.conflicts stack key b.step;
      comes s 32 rank b m ∧
        b.payload.length = 24 ∧
          s.rows.forward = [] ∧
            s.table (keyTable key) = some t0 ∧
              (s.hotFind die key = none ∨ s.leaving stack key = true) ∧
                Sparse.get 0 s.rows.listBad (2 * stack) = 0 ∧
                  found = Resolved.forward 3 0 false ∧
                    lost = false ∧ (false = false ∨ meets = false) ∧ fieldOf e 15 1 < 2) ∧
    (let s := msgState (lookBody rKey) [tornOne];
      let rank : Nat := 0;
      let b := lookBody rKey;
      let m : Via := .noc 0;
      let e := b.payload;
      let key := fieldOf e 0 8;
      let stack := fieldOf e 16 1 % 16;
      let die := stackDie stack;
      let room := (List.filter (fun h => h.stack == stack) s.rows.deferred).length < 1024;
      let lost := (s.get Fld.ERR_STATUS_STATE_LOST).testBit stack;
      let t0 := (s.table (keyTable key)).get!;
      let found := s.resolve stack t0 key ((fieldOf e 14 1).testBit 1);
      comes s 32 rank b m ∧
        b.payload.length = 24 ∧
          s.rows.forward = [] ∧
            s.table (keyTable key) = some t0 ∧
              (s.hotFind die key = none ∨ s.leaving stack key = true) ∧
                Sparse.get 0 s.rows.listBad (2 * stack) = 0 ∧
                  found = Resolved.at 0 ∧ lost = false ∧ s.tornRow stack key = true ∧ room) ∧
    (let s := msgState (lookBody rKey) [logged];
      let rank : Nat := 0;
      let b := lookBody rKey;
      let m : Via := .noc 0;
      let e := b.payload;
      let key := fieldOf e 0 8;
      let stack := fieldOf e 16 1 % 16;
      let die := stackDie stack;
      let lost := (s.get Fld.ERR_STATUS_STATE_LOST).testBit stack;
      let t0 := (s.table (keyTable key)).get!;
      let found := s.resolve stack t0 key ((fieldOf e 14 1).testBit 1);
      let meets := s.conflicts stack key b.step;
      comes s 32 rank b m ∧
        b.payload.length = 24 ∧
          s.rows.forward = [] ∧
            s.table (keyTable key) = some t0 ∧
              (s.hotFind die key = none ∨ s.leaving stack key = true) ∧
                Sparse.get 0 s.rows.listBad (2 * stack) = 0 ∧
                  found = Resolved.at 0 ∧ lost = false ∧ s.tornRow stack key = false ∧ meets = true) ∧
    (let s := msgState (lookBody rKey) [.unitErr (placeDpa rStack rTab rKey 0) 2];
      let rank : Nat := 0;
      let b := lookBody rKey;
      let m : Via := .noc 0;
      let e := b.payload;
      let key := fieldOf e 0 8;
      let stack := fieldOf e 16 1 % 16;
      let die := stackDie stack;
      let lost := (s.get Fld.ERR_STATUS_STATE_LOST).testBit stack;
      let t0 := (s.table (keyTable key)).get!;
      let found := s.resolve stack t0 key ((fieldOf e 14 1).testBit 1);
      let meets := s.conflicts stack key b.step;
      let dpa := placeDpa stack t0 key 0;
      let bad := (linesOf dpa (bodyOff t0 + bodyLen t0)).any s.lineBad;
      comes s 32 rank b m ∧
        b.payload.length = 24 ∧
          s.rows.forward = [] ∧
            s.table (keyTable key) = some t0 ∧
              (s.hotFind die key = none ∨ s.leaving stack key = true) ∧
                Sparse.get 0 s.rows.listBad (2 * stack) = 0 ∧
                  found = Resolved.at 0 ∧
                    lost = false ∧ s.tornRow stack key = false ∧ meets = false ∧ bad = true) ∧
    (let s := msgState (lookBody rKey);
      let rank : Nat := 0;
      let b := lookBody rKey;
      let m : Via := .noc 0;
      let e := b.payload;
      let key := fieldOf e 0 8;
      let stack := fieldOf e 16 1 % 16;
      let die := stackDie stack;
      let lost := (s.get Fld.ERR_STATUS_STATE_LOST).testBit stack;
      let t0 := (s.table (keyTable key)).get!;
      let found := s.resolve stack t0 key ((fieldOf e 14 1).testBit 1);
      let meets := s.conflicts stack key b.step;
      let dpa := placeDpa stack t0 key 0;
      let bad := (linesOf dpa (bodyOff t0 + bodyLen t0)).any s.lineBad;
      comes s 32 rank b m ∧
        b.payload.length = 24 ∧
          s.rows.forward = [] ∧
            s.table (keyTable key) = some t0 ∧
              (s.hotFind die key = none ∨ s.leaving stack key = true) ∧
                Sparse.get 0 s.rows.listBad (2 * stack) = 0 ∧
                  found = Resolved.at 0 ∧
                    lost = false ∧
                      s.tornRow stack key = false ∧
                        meets = false ∧ bad = false ∧ s.sweepTears stack dpa = false) := by
  refine ⟨?_, ?_, ?_, ?_, ?_, ?_, ?_, ?_, ?_, ?_, ?_, ?_⟩ <;> decide +kernel
theorem witness_RepliesAndEndMarkers :
    (let s := msgState replyBody [waits];
      let rank : Nat := 0;
      let b := replyBody;
      let m : Via := .noc 0;
      let key := fieldOf b.payload 0 8;
      let die := bits (fieldOf b.payload 13 1) 1 1;
      let hit := isWaiting die (fieldOf b.payload 8 4) key;
      comes s 33 rank b m ∧ replyEntries 374 b.payload = [b.payload] ∧ s.emb.fetched.any hit = true) ∧
    (let s := msgState replyBody;
      let rank : Nat := 0;
      let b := replyBody;
      let m : Via := .noc 0;
      let key := fieldOf b.payload 0 8;
      let die := bits (fieldOf b.payload 13 1) 1 1;
      let hit := isWaiting die (fieldOf b.payload 8 4) key;
      comes s 33 rank b m ∧ replyEntries 374 b.payload = [b.payload] ∧ s.emb.fetched.any hit = false) ∧
    (let s := msgState markBody;
      let rank : Nat := 0;
      let b := markBody;
      let m : Via := .noc 0;
      comes s 35 rank b m) := by
  refine ⟨?_, ?_, ?_⟩ <;> decide +kernel
theorem witness_Pushes :
    (let s := msgState { pushBody with payload := pushEntry 5 1 0 (rStack * 8) 0 (List.replicate 4 (0x3F800000, 0)) };
      let rank : Nat := 0;
      let b : GtBody := { pushBody with payload := pushEntry 5 1 0 (rStack * 8) 0 (List.replicate 4 (0x3F800000, 0)) };
      let m : Via := .noc 0;
      let e := b.payload;
      let key := fieldOf e 0 8;
      comes s 34 rank b m ∧
        pushEntries s 560 b.payload = [b.payload] ∧
          s.rows.forward = [] ∧ s.table (keyTable key) = none) ∧
    (let s := msgState pushBody;
      let rank : Nat := 0;
      let b := pushBody;
      let m : Via := .noc 0;
      let e := b.payload;
      let key := fieldOf e 0 8;
      let t0 := (s.table (keyTable key)).get!;
      comes s 34 rank b m ∧
        pushEntries s 560 b.payload = [b.payload] ∧
          s.rows.forward = [] ∧ s.table (keyTable key) = some t0 ∧ optKind (s.tblOpt' t0) = 0) ∧
    (let s := optState pushBody;
      let rank : Nat := 0;
      let b := pushBody;
      let m : Via := .noc 0;
      let e := b.payload;
      let key := fieldOf e 0 8;
      let stack := pushStack e;
      let t0 := (s.table (keyTable key)).get!;
      comes s 34 rank b m ∧
        pushEntries s 560 b.payload = [b.payload] ∧
          s.rows.forward = [] ∧
            s.table (keyTable key) = some t0 ∧
              optKind (s.tblOpt' t0) ≠ 0 ∧ s.oldestStep stack + 1 < b.step) ∧
    (let s := optState pushBody (locRow (mkLoc kResident 0 0 0 false true) :: mergeUps 1);
      let rank : Nat := 0;
      let b := pushBody;
      let m : Via := .noc 0;
      let e := b.payload;
      let key := fieldOf e 0 8;
      let stack := pushStack e;
      let t0 := (s.table (keyTable key)).get!;
      let found := s.resolve stack t0 key ((fieldOf e 14 1).testBit 2);
      comes s 34 rank b m ∧
        pushEntries s 560 b.payload = [b.payload] ∧
          s.rows.forward = [] ∧
            s.table (keyTable key) = some t0 ∧
              optKind (s.tblOpt' t0) ≠ 0 ∧ b.step ≤ s.oldestStep stack + 1 ∧ found = Resolved.pending) ∧
    (let s := optState pushBody (locRow (mkLoc kMoved 3 0 0) :: mergeUps 1);
      let rank : Nat := 0;
      let b := pushBody;
      let m : Via := .noc 0;
      let e := b.payload;
      let key := fieldOf e 0 8;
      let stack := pushStack e;
      let t0 := (s.table (keyTable key)).get!;
      let found := s.resolve stack t0 key ((fieldOf e 14 1).testBit 2);
      comes s 34 rank b m ∧
        pushEntries s 560 b.payload = [b.payload] ∧
          s.rows.forward = [] ∧
            s.table (keyTable key) = some t0 ∧
              optKind (s.tblOpt' t0) ≠ 0 ∧
                b.step ≤ s.oldestStep stack + 1 ∧ found = Resolved.forward 3 0 false) ∧
    (let s := optState pushBody (mergeUps 0);
      let rank : Nat := 0;
      let b := pushBody;
      let m : Via := .noc 0;
      let e := b.payload;
      let key := fieldOf e 0 8;
      let stack := pushStack e;
      let t0 := (s.table (keyTable key)).get!;
      let found := s.resolve stack t0 key ((fieldOf e 14 1).testBit 2);
      let mine := List.filter (fun x => x.stack == stack) s.silt.contribs;
      let need :=
        16 + 8 * (pushPairs e).length + if (mine.any fun x => x.merge == b.step && x.key == key) = true then 0 else 32;
      let full := s.get Fld.SILT_MERGE_SIZE stack * 65536 < s.mergeBytes stack + need;
      comes s 34 rank b m ∧
        pushEntries s 560 b.payload = [b.payload] ∧
          s.rows.forward = [] ∧
            s.table (keyTable key) = some t0 ∧
              optKind (s.tblOpt' t0) ≠ 0 ∧
                b.step ≤ s.oldestStep stack + 1 ∧
                  actsHere found = true ∧ s.mergeStep stack ≤ b.step ∧ full) ∧
    (let s := optState pushBody (mergeUps 1 ++ [.silt (fun x => { x with contribs := [⟨rStack, 5, 5, rKey, 0, 2, 1, [], false⟩] })]);
      let rank : Nat := 0;
      let b := pushBody;
      let m : Via := .noc 0;
      let e := b.payload;
      let key := fieldOf e 0 8;
      let stack := pushStack e;
      let c :=
        { stack := stack, step := b.step, merge := b.step, key := key, origin := fieldOf e 12 2 * 2 + fieldOf e 14 1 % 2,
          group := 2, count := fieldOf e 8 4, pairs := pushPairs e, create := false : Contrib };
      let t0 := (s.table (keyTable key)).get!;
      let found := s.resolve stack t0 key ((fieldOf e 14 1).testBit 2);
      let mine := List.filter (fun x => x.stack == stack) s.silt.contribs;
      let need :=
        16 + 8 * (pushPairs e).length + if (mine.any fun x => x.merge == b.step && x.key == key) = true then 0 else 32;
      let full := s.get Fld.SILT_MERGE_SIZE stack * 65536 < s.mergeBytes stack + need;
      let twice := mine.any fun x => x.step == b.step && x.group == 2 && x.key == key && x.origin == c.origin;
      comes s 34 rank b m ∧
        pushEntries s 560 b.payload = [b.payload] ∧
          s.rows.forward = [] ∧
            s.table (keyTable key) = some t0 ∧
              optKind (s.tblOpt' t0) ≠ 0 ∧
                b.step ≤ s.oldestStep stack + 1 ∧
                  actsHere found = true ∧ s.mergeStep stack ≤ b.step ∧ ¬full ∧ twice = true) ∧
    (let s := optState pushBody (mergeUps 1);
      let rank : Nat := 0;
      let b := pushBody;
      let m : Via := .noc 0;
      let e := b.payload;
      let key := fieldOf e 0 8;
      let stack := pushStack e;
      let c :=
        { stack := stack, step := b.step, merge := b.step, key := key, origin := fieldOf e 12 2 * 2 + fieldOf e 14 1 % 2,
          group := 2, count := fieldOf e 8 4, pairs := pushPairs e, create := false : Contrib };
      let t0 := (s.table (keyTable key)).get!;
      let found := s.resolve stack t0 key ((fieldOf e 14 1).testBit 2);
      let mine := List.filter (fun x => x.stack == stack) s.silt.contribs;
      let need :=
        16 + 8 * (pushPairs e).length + if (mine.any fun x => x.merge == b.step && x.key == key) = true then 0 else 32;
      let full := s.get Fld.SILT_MERGE_SIZE stack * 65536 < s.mergeBytes stack + need;
      let twice := mine.any fun x => x.step == b.step && x.group == 2 && x.key == key && x.origin == c.origin;
      comes s 34 rank b m ∧
        pushEntries s 560 b.payload = [b.payload] ∧
          s.rows.forward = [] ∧
            s.table (keyTable key) = some t0 ∧
              optKind (s.tblOpt' t0) ≠ 0 ∧
                b.step ≤ s.oldestStep stack + 1 ∧
                  actsHere found = true ∧ s.mergeStep stack ≤ b.step ∧ ¬full ∧ twice = false) ∧
    (let s : State := { optState pushBody (mergeUps 1 ++ [.silt (fun x => { x with openStep := [(rStack, 6)] })]) with clay := { active := some { hdr := noPrev, secs := [(9, [rTab]), (10, [1]), (13, [2])] } } };
      let rank : Nat := 0;
      let b := pushBody;
      let m : Via := .noc 0;
      let e := b.payload;
      let key := fieldOf e 0 8;
      let stack := pushStack e;
      let t0 := (s.table (keyTable key)).get!;
      let found := s.resolve stack t0 key ((fieldOf e 14 1).testBit 2);
      let carries :=
        s.policy 2 (optClass (s.tblOpt' t0)) 1 = 0 ∧ b.step + 1 = s.mergeStep stack ∧ s.skipped b.step = false;
      comes s 34 rank b m ∧
        pushEntries s 560 b.payload = [b.payload] ∧
          s.rows.forward = [] ∧
            s.table (keyTable key) = some t0 ∧
              optKind (s.tblOpt' t0) ≠ 0 ∧
                b.step ≤ s.oldestStep stack + 1 ∧
                  actsHere found = true ∧ b.step < s.mergeStep stack ∧ carries) ∧
    (let s := optState pushBody (mergeUps 1 ++ [.silt (fun x => { x with openStep := [(rStack, 6)] })]);
      let rank : Nat := 0;
      let b := pushBody;
      let m : Via := .noc 0;
      let e := b.payload;
      let key := fieldOf e 0 8;
      let stack := pushStack e;
      let t0 := (s.table (keyTable key)).get!;
      let found := s.resolve stack t0 key ((fieldOf e 14 1).testBit 2);
      let carries :=
        s.policy 2 (optClass (s.tblOpt' t0)) 1 = 0 ∧ b.step + 1 = s.mergeStep stack ∧ s.skipped b.step = false;
      comes s 34 rank b m ∧
        pushEntries s 560 b.payload = [b.payload] ∧
          s.rows.forward = [] ∧
            s.table (keyTable key) = some t0 ∧
              optKind (s.tblOpt' t0) ≠ 0 ∧
                b.step ≤ s.oldestStep stack + 1 ∧
                  actsHere found = true ∧ b.step < s.mergeStep stack ∧ ¬carries) := by
  refine ⟨?_, ?_, ?_, ?_, ?_, ?_, ?_, ?_, ?_, ?_⟩ <;> decide +kernel
theorem witness_DriftCopies :
    (let s := msgState { copyBody with arg1 := copyBody.arg1 + 65536 };
      let rank : Nat := 0;
      let b : GtBody := { copyBody with arg1 := copyBody.arg1 + 65536 };
      let m : Via := .noc 0;
      let key := b.arg0;
      let stack := bits b.arg1 0 4;
      comes s 40 rank b m ∧ s.rows.arrivals.any (isArrival stack key) = false ∧ 0 < bits b.arg1 16 8) ∧
    (let s := msgState copyBody;
      let rank : Nat := 0;
      let b := copyBody;
      let m : Via := .noc 0;
      let key := b.arg0;
      let stack := bits b.arg1 0 4;
      let src := bits b.arg1 4 4;
      let t0 := (s.table (keyTable key)).get!;
      let n := (s.freeArea stack t0).get!;
      let w := (s.dmWayFor stack key).get!;
      comes s 40 rank b m ∧
        s.rows.arrivals.any (isArrival stack key) = false ∧
          s.table (keyTable key) = some t0 ∧
            bits b.arg1 16 8 = 0 ∧
              ¬(rank = s.rank ∧ src = stack) ∧
                s.freeArea stack t0 = some n ∧ s.dmWayFor stack key = some w) ∧
    (let s := msgState copyBody [.rows (fun r => { r with dmap := (List.range 8).map (fun j => (((rStack + 1) % 16 * 2 ^ 18 + dmSet rKey) * 8 + j, (77 + j, mkLoc kResident 0 0 0))) })];
      let rank : Nat := 0;
      let b := copyBody;
      let m : Via := .noc 0;
      let key := b.arg0;
      let stack := bits b.arg1 0 4;
      let src := bits b.arg1 4 4;
      let t0 := (s.table (keyTable key)).get!;
      comes s 40 rank b m ∧
        s.rows.arrivals.any (isArrival stack key) = false ∧
          s.table (keyTable key) = some t0 ∧
            bits b.arg1 16 8 = 0 ∧
              ¬(rank = s.rank ∧ src = stack) ∧
                (s.freeArea stack t0 = none ∨ s.dmWayFor stack key = none)) ∧
    (let s := msgState { copyBody with arg0 := 5 };
      let rank : Nat := 0;
      let b : GtBody := { copyBody with arg0 := 5 };
      let m : Via := .noc 0;
      let key := b.arg0;
      let stack := bits b.arg1 0 4;
      comes s 40 rank b m ∧
        s.rows.arrivals.any (isArrival stack key) = false ∧
          bits b.arg1 16 8 = 0 ∧ s.table (keyTable key) = none) := by
  refine ⟨?_, ?_, ?_, ?_⟩ <;> decide +kernel
theorem witness_DriftMessages :
    (let s := msgState (moveBody 0x29) [srcMove 1];
      let rank : Nat := 0;
      let b := moveBody 0x29;
      let m : Via := .noc 0;
      let from' := isDrift (bits b.arg1 4 4) b.arg0;
      let at' := fun n => s.rows.drifts.any fun d => from' d && d.stage == n;
      comes s 41 rank b m ∧ at' 1 = true) ∧
    (let s := msgState (moveBody 0x29);
      let rank : Nat := 0;
      let b := moveBody 0x29;
      let m : Via := .noc 0;
      let from' := isDrift (bits b.arg1 4 4) b.arg0;
      let at' := fun n => s.rows.drifts.any fun d => from' d && d.stage == n;
      comes s 41 rank b m ∧ at' 1 = false) ∧
    (let s := msgState (moveBody 0x2A) [srcMove 1];
      let rank : Nat := 0;
      let b := moveBody 0x2A;
      let m : Via := .noc 0;
      let from' := isDrift (bits b.arg1 4 4) b.arg0;
      let at' := fun n => s.rows.drifts.any fun d => from' d && d.stage == n;
      let d := { stack := 0, key := 281474976710663, rank := 0, dest := 3, place := 16, stage := 1 : DriftSrc };
      comes s 42 rank b m ∧ List.find? from' s.rows.drifts = some d ∧ at' 1 = true) ∧
    (let s := msgState (moveBody 0x2A);
      let rank : Nat := 0;
      let b := moveBody 0x2A;
      let m : Via := .noc 0;
      let from' := isDrift (bits b.arg1 4 4) b.arg0;
      let at' := fun n => s.rows.drifts.any fun d => from' d && d.stage == n;
      comes s 42 rank b m ∧ at' 1 = false) ∧
    (let s := msgState (moveBody 0x2C) [srcMove 3];
      let rank : Nat := 0;
      let b := moveBody 0x2C;
      let m : Via := .noc 0;
      let from' := isDrift (bits b.arg1 4 4) b.arg0;
      let at' := fun n => s.rows.drifts.any fun d => from' d && d.stage == n;
      comes s 44 rank b m ∧ at' 3 = true) ∧
    (let s := msgState (moveBody 0x2C) [srcMove 2];
      let rank : Nat := 0;
      let b := moveBody 0x2C;
      let m : Via := .noc 0;
      let from' := isDrift (bits b.arg1 4 4) b.arg0;
      let at' := fun n => s.rows.drifts.any fun d => from' d && d.stage == n;
      comes s 44 rank b m ∧ at' 3 = false) ∧
    (let s := msgState (moveBody 0x2B) [dstMove];
      let rank : Nat := 0;
      let b := moveBody 0x2B;
      let m : Via := .noc 0;
      comes s 43 rank b m) ∧
    (let s := msgState (moveBody 0x2D) [dstMove];
      let rank : Nat := 0;
      let b := moveBody 0x2D;
      let m : Via := .noc 0;
      let mine := isArrival (bits b.arg1 0 4) b.arg0;
      let some' := s.rows.arrivals.any fun a => mine a && !a.switch;
      comes s 45 rank b m ∧ some' = true) ∧
    (let s := msgState (moveBody 0x2D);
      let rank : Nat := 0;
      let b := moveBody 0x2D;
      let m : Via := .noc 0;
      let mine := isArrival (bits b.arg1 0 4) b.arg0;
      let some' := s.rows.arrivals.any fun a => mine a && !a.switch;
      comes s 45 rank b m ∧ some' = false) := by
  refine ⟨?_, ?_, ?_, ?_, ?_, ?_, ?_, ?_, ?_⟩ <;> decide +kernel
theorem witness_DriftForwards :
    (let s := msgState { fwdBody 1 with arg0 := 5 };
      let rank : Nat := 0;
      let b : GtBody := { fwdBody 1 with arg0 := 5 };
      let m : Via := .noc 0;
      comes s 46 rank b m ∧ s.table (keyTable b.arg0) = none) ∧
    (let s := msgState (fwdBody 1) [.silt (fun x => { x with ended := [(rStack, 5)] })];
      let rank : Nat := 0;
      let b := fwdBody 1;
      let m : Via := .noc 0;
      let stack := bits b.arg1 0 4;
      let gone := s.skipped b.step = true ∨ b.step < Sparse.get 0 s.silt.ended stack;
      let t0 := (s.table (keyTable b.arg0)).get!;
      comes s 46 rank b m ∧ s.table (keyTable b.arg0) = some t0 ∧ b.arg1.testBit 24 = true ∧ gone) ∧
    (let s := msgState (fwdBody 1) [.silt (fun x => { x with openStep := [(rStack, 5)] })];
      let rank : Nat := 0;
      let b := fwdBody 1;
      let m : Via := .noc 0;
      let stack := bits b.arg1 0 4;
      let gone := s.skipped b.step = true ∨ b.step < Sparse.get 0 s.silt.ended stack;
      let t0 := (s.table (keyTable b.arg0)).get!;
      comes s 46 rank b m ∧
        s.table (keyTable b.arg0) = some t0 ∧
          b.arg1.testBit 24 = true ∧ ¬gone ∧ b.step < s.mergeStep stack) ∧
    (let s := msgState (fwdBody 1);
      let rank : Nat := 0;
      let b := fwdBody 1;
      let m : Via := .noc 0;
      let stack := bits b.arg1 0 4;
      let gone := s.skipped b.step = true ∨ b.step < Sparse.get 0 s.silt.ended stack;
      let t0 := (s.table (keyTable b.arg0)).get!;
      comes s 46 rank b m ∧
        s.table (keyTable b.arg0) = some t0 ∧
          b.arg1.testBit 24 = true ∧ ¬gone ∧ s.mergeStep stack ≤ b.step) ∧
    (let s := msgState (fwdBody 0);
      let rank : Nat := 0;
      let b := fwdBody 0;
      let m : Via := .noc 0;
      let stack := bits b.arg1 0 4;
      let t0 := (s.table (keyTable b.arg0)).get!;
      comes s 46 rank b m ∧
        s.table (keyTable b.arg0) = some t0 ∧
          s.resolve stack t0 b.arg0 true = Resolved.at 0 ∧
            b.arg1.testBit 24 = false ∧ s.normOf b.step = none) ∧
    (let s := optState (fwdBody 0) [.silt (fun x => { x with norms := [(4, 0x3F800001)] }), .bytes (placeDpa rStack rTab rKey 0) (leBytes 8 (2 ^ 47 + 2 ^ 44 + 4))];
      let rank : Nat := 0;
      let b := fwdBody 0;
      let m : Via := .noc 0;
      let stack := bits b.arg1 0 4;
      let t0 := (s.table (keyTable b.arg0)).get!;
      let dpa := placeDpa stack t0 b.arg0 0;
      let has := hdrUpdated (slotHdr s dpa) = true ∧ b.step ≤ hdrStamp (slotHdr s dpa);
      comes s 46 rank b m ∧
        s.table (keyTable b.arg0) = some t0 ∧
          s.resolve stack t0 b.arg0 true = Resolved.at 0 ∧
            b.arg1.testBit 24 = false ∧ (s.normOf b.step).isSome = true ∧ has) ∧
    (let s := optState (fwdBody 0) [.silt (fun x => { x with norms := [(4, 0x3F800001)] })];
      let rank : Nat := 0;
      let b := fwdBody 0;
      let m : Via := .noc 0;
      let stack := bits b.arg1 0 4;
      let t0 := (s.table (keyTable b.arg0)).get!;
      let dpa := placeDpa stack t0 b.arg0 0;
      let has := hdrUpdated (slotHdr s dpa) = true ∧ b.step ≤ hdrStamp (slotHdr s dpa);
      comes s 46 rank b m ∧
        s.table (keyTable b.arg0) = some t0 ∧
          s.resolve stack t0 b.arg0 true = Resolved.at 0 ∧
            b.arg1.testBit 24 = false ∧ (s.normOf b.step).isSome = true ∧ ¬has) := by
  refine ⟨?_, ?_, ?_, ?_, ?_, ?_, ?_⟩ <;> decide +kernel

theorem witness_DriftMessages_refused :
    let s := msgState (moveBody 0x2A) [srcMove 1]
    comes s 0x2A 0 (moveBody 0x2A) (.noc 0) ∧
    (s.rows.drifts.find? (isDrift (bits (moveBody 0x2A).arg1 4 4) rKey)).isSome = true ∧
    s.rows.drifts.any (fun d => isDrift (bits (moveBody 0x2A).arg1 4 4) rKey d && d.stage == 1) = true := by decide +kernel

/-! Ports. -/

/-- Port 2 in a state with both maps on all lanes. -/
def portState' (st : Nat) (f : PortSt → PortSt) (us : List Upd := []) : State :=
  mk ([setF .PORT_CFG_ENABLE 1 2, setF .PORT_STATUS_STATE st 2, setF .PORT_STATUS_TX_MAP 15 2, setF .PORT_STATUS_RX_MAP 15 2,
    setPort 2 f] ++ us)
def darkPort : State := portState' 4 (fun x => { x with dark := 4 })
def askBlock : Nat := alignWord 1 700 3 15 7 false
def alignPort : State := portState' 3 (fun x => { x with trained := 15, peerMap := 15 })
/-- A frame of UDP for endpoint 9 of the job prefix 0, with a Hop Limit. -/
def ipFrame (hop : Nat) : List Nat :=
  List.replicate 12 0 ++ [0x86, 0xDD] ++ [0x60, 0, 0, 0, 0, 8, 17, hop] ++ List.replicate 16 0 ++
    (List.replicate 14 0 ++ [0, 9]) ++ [0xC0, 1, 0xB7, 0xA0, 0, 8, 0, 0]
def fwdState (entry : Nat) : State :=
  mk [setF .PORT_STATUS_STATE 4 2, setF .PORT_STATUS_STATE 4 3, setF .PORT_FWD_TABLE_ENTRY entry 9]
def choiceState : State := mk [setF .PORT_STATUS_STATE 4 1, setF .PORT_STATUS_STATE 4 2, setF .PORT_STATUS_STATE 4 3]

theorem witness_LanesFailAndRetrain :
    (let s := darkPort;
      let p : Nat := 2;
      let j : Nat := 2;
      s.portOn p = true ∧ j < 4 ∧ s.e200 p = false) ∧
    (let s := portState' 4 (fun x => x) [setF .PORT_CFG_MODE 1 2];
      let p : Nat := 2;
      let j : Nat := 1;
      s.portOn p = true ∧ j < 4 ∧ s.e200 p = true ∧ s.portState p = 4) ∧
    (let s := portState' 3 (fun x => x) [setF .PORT_CFG_MODE 1 2];
      let p : Nat := 2;
      let j : Nat := 1;
      s.portOn p = false ∨ 4 ≤ j ∨ s.e200 p = true ∧ s.portState p ≠ 4) ∧
    (let s := darkPort;
      let p : Nat := 2;
      let j : Nat := 2;
      let cause := 0;
      let x := s.portSt p;
      let syms := s.var Var.portSym (p * 4 + j);
      let meets :=
        cause = 0 ∧ x.dark.testBit j = true ∨
          cause = 1 ∧ 4096 < syms ∨ cause = 2 ∧ 16 ≤ s.var Var.portUnc p ∧ s.portSyms p < 2 * syms;
      portRuns s p ∧ j < 4 ∧ s.lane p j = 0 ∧ meets) ∧
    (let s := darkPort;
      let p : Nat := 2;
      let j : Nat := 2;
      let cause := 1;
      let x := s.portSt p;
      let syms := s.var Var.portSym (p * 4 + j);
      let meets :=
        cause = 0 ∧ x.dark.testBit j = true ∨
          cause = 1 ∧ 4096 < syms ∨ cause = 2 ∧ 16 ≤ s.var Var.portUnc p ∧ s.portSyms p < 2 * syms;
      ¬portRuns s p ∨ 4 ≤ j ∨ s.lane p j ≠ 0 ∨ ¬meets) ∧
    (let s := portState' 4 (fun x => x) [setF .PORT_LANE_STATE 2 9];
      let p : Nat := 2;
      let j : Nat := 1;
      portRuns s p ∧ j < 4 ∧ s.lane p j = 2 ∧ (s.portSt p).ask = 0) ∧
    (let s := darkPort;
      let p : Nat := 2;
      let j : Nat := 2;
      ¬portRuns s p ∨ 4 ≤ j ∨ s.lane p j ≠ 2 ∨ (s.portSt p).ask ≠ 0) := by
  refine ⟨?_, ?_, ?_, ?_, ?_, ?_, ?_⟩ <;> decide +kernel
theorem witness_PortsFail :
    (let s := portState' 4 (fun x => x) ((List.range 4).map (fun j => setF .PORT_LANE_STATE 1 (8 + j)));
      let p : Nat := 2;
      let x := s.portSt p;
      let dead := (∀ (j : Nat), j < 4 → s.lane p j ≠ 0) ∨ x.peer = 1 ∧ x.peerMap &&& s.txAllowed p = 0;
      let up := s.portOn p = true ∧ s.portState p = 4;
      up ∧ dead) ∧
    (let s := portState' 4 (fun x => x) [.var .portUnc 2 16, setF .BEAT_STATUS_STATE 1];
      let p : Nat := 2;
      let x := s.portSt p;
      let dead := (∀ (j : Nat), j < 4 → s.lane p j ≠ 0) ∨ x.peer = 1 ∧ x.peerMap &&& s.txAllowed p = 0;
      let blind := 16 ≤ s.var Var.portUnc p ∧ ∀ (j : Nat), j < 4 → 2 * s.var Var.portSym (p * 4 + j) ≤ s.portSyms p;
      let up := s.portOn p = true ∧ s.portState p = 4;
      up ∧ ¬dead ∧ blind) ∧
    (let s := mk [];
      let p : Nat := 3;
      let x := s.portSt p;
      let dead := (∀ (j : Nat), j < 4 → s.lane p j ≠ 0) ∨ x.peer = 1 ∧ x.peerMap &&& s.txAllowed p = 0;
      let blind := 16 ≤ s.var Var.portUnc p ∧ ∀ (j : Nat), j < 4 → 2 * s.var Var.portSym (p * 4 + j) ≤ s.portSyms p;
      let up := s.portOn p = true ∧ s.portState p = 4;
      ¬up ∨ ¬dead ∧ ¬blind) ∧
    (let s := portState' 4 (fun x => { x with ask := 1 });
      let p : Nat := 2;
      let x := s.portSt p;
      s.portOn p = true ∧ (x.ask ≠ 0 ∨ x.peer = 2)) ∧
    (let s := mk [];
      let p : Nat := 3;
      let x := s.portSt p;
      s.portOn p = false ∨ x.ask = 0 ∧ x.peer ≠ 2) ∧
    (let s := darkPort;
      let p : Nat := 2;
      s.portOn p = true) ∧
    (let s := mk [];
      let p : Nat := 3;
      s.portOn p = false) := by
  refine ⟨?_, ?_, ?_, ?_, ?_, ?_, ?_⟩ <;> decide +kernel
theorem witness_AlignmentCodewords :
    (let s := mk [];
      let p : Nat := 2;
      s.portOn p = false ∨ s.portState p < 3) ∧
    (let s := portState' 4 (fun x => x);
      let p : Nat := 2;
      let block : Nat := 5;
      let good := bits block 0 64 = alignMark ∧ bits block 116 32 = alignCrc block;
      s.portOn p = true ∧ 3 ≤ s.portState p ∧ (s.e200 p = true ∨ ¬good)) ∧
    (let s := portState' 4 (fun x => x);
      let p : Nat := 2;
      let block := askBlock;
      let good := bits block 0 64 = alignMark ∧ bits block 116 32 = alignCrc block;
      s.portOn p = true ∧ 3 ≤ s.portState p ∧ s.e200 p = false ∧ good) := by
  refine ⟨?_, ?_, ?_⟩ <;> decide +kernel
theorem witness_WidthChanges :
    (let s := portState' 4 (fun x => { x with peer := 1, peerMap := 7 });
      let p : Nat := 2;
      let x := s.portSt p;
      let map := x.peerMap &&& s.txAllowed p;
      s.portOn p = true ∧ x.peer = 1 ∧ map ≠ 0) ∧
    (let s := portState' 4 (fun x => { x with ask := 1, askMap := 7 });
      let p : Nat := 2;
      let x := s.portSt p;
      let map := x.peerMap &&& s.txAllowed p;
      s.portOn p = false ∨ x.peer ≠ 1 ∨ map = 0) ∧
    (let s := portState' 4 (fun x => { x with ask := 1, askMap := 7 });
      let p : Nat := 2;
      let x := s.portSt p;
      s.portOn p = true ∧ x.ask = 1) ∧
    (let s := portState' 4 (fun x => { x with peer := 1, peerMap := 7 });
      let p : Nat := 2;
      let x := s.portSt p;
      s.portOn p = false ∨ x.ask ≠ 1) ∧
    (let s := portState' 4 (fun x => { x with ask := 2, askMap := 7 }) [setF .PORT_LANE_STATE 1 11];
      let p : Nat := 2;
      let x := s.portSt p;
      s.portOn p = true ∧ x.ask = 2) ∧
    (let s := portState' 4 (fun x => { x with peer := 1, peerMap := 7 });
      let p : Nat := 2;
      let x := s.portSt p;
      s.portOn p = false ∨ x.ask ≠ 2) := by
  refine ⟨?_, ?_, ?_, ?_, ?_, ?_⟩ <;> decide +kernel
theorem witness_PortBringUp :
    (let s := portState' 1 (fun x => x);
      let p : Nat := 2;
      let lanes := 15;
      let ok := lanes % 16 &&& s.laneMask p;
      let map := if s.e200 p = true then if ok = 15 then 15 else 0 else ok;
      let goes := s.portOn p = true ∧ map ≠ 0;
      goes ∧ s.portState p = 1) ∧
    (let s := portState' 2 (fun x => x);
      let p : Nat := 2;
      let lanes := 15;
      let ok := lanes % 16 &&& s.laneMask p;
      let map := if s.e200 p = true then if ok = 15 then 15 else 0 else ok;
      let goes := s.portOn p = true ∧ map ≠ 0;
      goes ∧ s.portState p = 2) ∧
    (let s := portState' 3 (fun x => { x with trained := 15, peerMap := 15 });
      let p : Nat := 2;
      let x := s.portSt p;
      let lanes := 15;
      let ok := lanes % 16 &&& s.laneMask p;
      let map := if s.e200 p = true then if ok = 15 then 15 else 0 else ok;
      let rx := map &&& x.trained;
      let tx := x.peerMap &&& s.txAllowed p;
      let goes := s.portOn p = true ∧ map ≠ 0;
      goes ∧ s.portState p = 3 ∧ rx ≠ 0 ∧ tx ≠ 0) ∧
    (let s := portState' 1 (fun x => x);
      let p : Nat := 2;
      let x := s.portSt p;
      let lanes := 0;
      let ok := lanes % 16 &&& s.laneMask p;
      let map := if s.e200 p = true then if ok = 15 then 15 else 0 else ok;
      let rx := map &&& x.trained;
      let tx := x.peerMap &&& s.txAllowed p;
      let goes := s.portOn p = true ∧ map ≠ 0;
      ¬goes ∨ s.portState p = 0 ∨ 4 ≤ s.portState p ∨ s.portState p = 3 ∧ (rx = 0 ∨ tx = 0)) ∧
    (let s := portState' 1 (fun x => x);
      let p : Nat := 2;
      s.portOn p = true ∧ 1 ≤ s.portState p ∧ s.portState p ≤ 3) ∧
    (let s := portState' 4 (fun x => { x with flap := 4, fails := [(2, 0), (1, 0)] }) [setF .PORT_LANE_STATE 3 10];
      let p : Nat := 2;
      s.portOn p = false ∨ s.portState p = 0 ∨ 4 ≤ s.portState p) ∧
    (let p : Nat := 2;
      p < 16) ∧
    (let p : Nat := 16;
      16 ≤ p) := by
  refine ⟨?_, ?_, ?_, ?_, ?_, ?_, ?_, ?_⟩ <;> decide +kernel
theorem witness_ForwardingTableWrites :
    (let n : Nat := 3;
      n < 16384) ∧
    (let n : Nat := 16384;
      16384 ≤ n) := by
  refine ⟨?_, ?_⟩ <;> decide +kernel
theorem witness_ForwardingChoice :
    (let s := choiceState;
      let entry : Nat := 0x3312;
      let p : Nat := 7;
      let usable := fun a v => v = true ∧ s.get Fld.PORT_STATUS_STATE a = 4 ∧ s.get Fld.PORT_STATUS_STOPPED a = 0 ∧ a ≠ p;
      let u0 := usable (bits entry 0 4) (entry.testBit 4);
      let u1 := usable (bits entry 8 4) (entry.testBit 12);
      u0 ∧ u1) ∧
    (let s := choiceState;
      let entry : Nat := 0x2312;
      let p : Nat := 7;
      let usable := fun a v => v = true ∧ s.get Fld.PORT_STATUS_STATE a = 4 ∧ s.get Fld.PORT_STATUS_STOPPED a = 0 ∧ a ≠ p;
      let u0 := usable (bits entry 0 4) (entry.testBit 4);
      let u1 := usable (bits entry 8 4) (entry.testBit 12);
      u0 ∧ ¬u1) ∧
    (let s := choiceState;
      let entry : Nat := 0x1312;
      let p : Nat := 2;
      let usable := fun a v => v = true ∧ s.get Fld.PORT_STATUS_STATE a = 4 ∧ s.get Fld.PORT_STATUS_STOPPED a = 0 ∧ a ≠ p;
      let u0 := usable (bits entry 0 4) (entry.testBit 4);
      let u1 := usable (bits entry 8 4) (entry.testBit 12);
      ¬u0 ∧ u1) ∧
    (let s := fwdState 0;
      let entry : Nat := 0;
      let id : Nat := 9;
      let udp : Nat := 0xC001;
      let p : Nat := 2;
      let usable := fun a v => v = true ∧ s.get Fld.PORT_STATUS_STATE a = 4 ∧ s.get Fld.PORT_STATUS_STOPPED a = 0 ∧ a ≠ p;
      let u0 := usable (bits entry 0 4) (entry.testBit 4);
      let u1 := usable (bits entry 8 4) (entry.testBit 12);
      let bs := ipFrame 5;
      ¬u0 ∧
        ¬u1 ∧
          framePort s p bs ∧ transits s bs ∧ netField bs 54 2 = udp ∧ s.frameEntry bs = (entry, id)) := by
  refine ⟨?_, ?_, ?_, ?_⟩ <;> decide +kernel
theorem witness_GoodFrames :
    (let s := fwdState 0;
      let p : Nat := 2;
      let bs := ipFrame 1;
      framePort s p bs ∧ transits s bs ∧ framePick s p bs = none) ∧
    (let s := fwdState 0x13;
      let p : Nat := 2;
      let bs := ipFrame 1;
      let hop := bs.getD 21 0;
      let o := (framePick s p bs).get!;
      framePort s p bs ∧ transits s bs ∧ framePick s p bs = some o ∧ hop ≤ 1) ∧
    (let s := fwdState 0x13;
      let p : Nat := 2;
      let bs := ipFrame 5;
      let hop := bs.getD 21 0;
      let o := (framePick s p bs).get!;
      framePort s p bs ∧ transits s bs ∧ framePick s p bs = some o ∧ 2 ≤ hop) := by
  refine ⟨?_, ?_, ?_⟩ <;> decide +kernel
theorem witness_OtherFrames :
    (let s := mk [];
      let p : Nat := 2;
      16 ≤ p ∨ s.portState p ≠ 4) ∧
    (let s := (fwdState 0x13).run [setF .PORT_CFG_MODE 1 2, setF .PORT_CFG_ENABLE 1 2];
      let p : Nat := 2;
      let bs : List Nat := [1, 2];
      p < 16 ∧ s.portState p = 4 ∧ ¬framePort s p bs) ∧
    (let s := (fwdState 0x13).run [setF .PORT_FWD_CFG_OWN_ID 9];
      let p : Nat := 2;
      let bs := ipFrame 5;
      let fcs := true;
      let code := false;
      framePort s p bs ∧ (fcs && code) = false ∧ ¬transits s bs) ∧
    (let s := fwdState 0x13;
      let p : Nat := 2;
      let bs : List Nat := [1, 2];
      let fcs := false;
      let code := true;
      framePort s p bs ∧ (fcs && code) = false ∧ framePick s p bs = none) ∧
    (let s := (fwdState 0x13).run [setPort 3 (fun x => { x with busy := 9, waiting := [⟨false, false, 262144, 0, 0, 0, 2, ⟨.transit, 0, [], [], []⟩⟩] })];
      let p : Nat := 2;
      let bs := ipFrame 5;
      let fcs := false;
      let code := true;
      let o := (framePick s p bs).get!;
      let w := frameWaits s p bs true;
      let cuts :=
        ((s.portSt o).waiting.any fun x => x.ctrl == w.ctrl) = false ∧
          s.macRate o (s.portSt o).rateMap ≤ s.macRate p (s.get Fld.PORT_STATUS_RX_MAP p);
      framePort s p bs ∧ (fcs && code) = false ∧ framePick s p bs = some o ∧ transits s bs ∧ ¬cuts) ∧
    (let s := fwdState 0x13;
      let p : Nat := 2;
      let bs := ipFrame 1;
      let fcs := false;
      let code := true;
      let hop := bs.getD 21 0;
      let o := (framePick s p bs).get!;
      let w := frameWaits s p bs true;
      let cuts :=
        ((s.portSt o).waiting.any fun x => x.ctrl == w.ctrl) = false ∧
          s.macRate o (s.portSt o).rateMap ≤ s.macRate p (s.get Fld.PORT_STATUS_RX_MAP p);
      framePort s p bs ∧
        (fcs && code) = false ∧ framePick s p bs = some o ∧ transits s bs ∧ cuts ∧ hop ≤ 1) ∧
    (let s := fwdState 0x13;
      let p : Nat := 2;
      let bs := ipFrame 5;
      let fcs := false;
      let code := true;
      let hop := bs.getD 21 0;
      let o := (framePick s p bs).get!;
      let w := frameWaits s p bs true;
      let cuts :=
        ((s.portSt o).waiting.any fun x => x.ctrl == w.ctrl) = false ∧
          s.macRate o (s.portSt o).rateMap ≤ s.macRate p (s.get Fld.PORT_STATUS_RX_MAP p);
      framePort s p bs ∧
        (fcs && code) = false ∧ framePick s p bs = some o ∧ transits s bs ∧ cuts ∧ 2 ≤ hop) ∧
    (let s := fwdState 0;
      let p : Nat := 2;
      let bs : List Nat := [1, 2];
      let fcs := true;
      let code := true;
      framePort s p bs ∧
        fcs = true ∧
          code = true ∧
            (netField bs 12 2 ≠ 34525 ∨
              s.frameId bs = some (s.get Fld.PORT_FWD_CFG_OWN_ID) ∧ bs.getD 20 0 ≠ 17)) := by
  refine ⟨?_, ?_, ?_, ?_, ?_, ?_, ?_, ?_⟩ <;> decide +kernel

/-! Garnis Transport. -/

/-- Rank 9 as a peer on an open connection, its path over port 3, and a frame from it. -/
def gtUps : List Upd :=
  [setF .PORT_STATUS_STATE 4 3, setF .PORT_FWD_TABLE_ENTRY 0x13 9, setF .PORT_FWD_TABLE_ENTRY 0x13 0,
   setF .PORT_FWD_CFG_OWN_ID 77, setF .XPORT_EP_CFG_KIND 1 9,
   setF .XPORT_EP_STATE_CONN 2 36, setF .XPORT_EP_STATE_PEER_INC 5 36, setF .XPORT_EP_STATE_SILENCE 9 36]
def gtConn (c : Conn) (us : List Upd := []) : State := mk (gtUps ++ [setConn 9 0 { c with win := 16, credit := 50 }] ++ us)
def gtFrom (flags : Nat) (b : GtBody) (ack := 0) (credit := 0) : GtFrame := ⟨0, 9, 0, flags, 5, 0, ack, credit, b, 0⟩
def aliveFrame (rejoin : Nat) : GtFrame := gtFrom 4 { op := 0, payload := leBytes 4 (rejoin * 2 ^ 24) ++ leBytes 4 0 ++ leBytes 8 8 ++ leBytes 16 0 }
def gtAckF : GtFrame := gtFrom 12 { op := 1, payload := leBytes 8 0 } 2 60
def nakFrame (why : Nat) : GtFrame := gtFrom 4 { op := 2, payload := leBytes 16 why }
def unackedConn : Conn := { next := 3, credit := 50, win := 16, unacked := [⟨0, { op := 0x2F }, 0, 0, 0⟩, ⟨2, { op := 0x23 }, 63, 0, 0⟩] }
def ackedState : State := gtConn unackedConn
def helloFrame (op : Nat) : GtFrame := gtFrom 4 { op := op, payload := leBytes 4 0 ++ leBytes 12 40 }
def openingState (st : Nat) : State := gtConn {} [setF .XPORT_EP_STATE_CONN st 36]
/-- Queue 1 from rank 9 to cell 1, and queue 2 from a cell to rank 9 as its queue 20. -/
def queueImg : Image := { secs := [(3, [1 + 5 * 2 ^ 32 + 9 * 2 ^ 48 + 2 ^ 64 * 8 + 2 ^ 160 * 20, 2 + 5 * 2 ^ 40 + 2 ^ 64 * 9])] }
def queueGt (us : List Upd := []) : State :=
  { gtConn {} us with
    clay := { active := some queueImg }
    queues := [(1, { depth := 4, gen := 3 }), (2, { depth := 4, gen := 3 })] }
def tokenFrame : GtFrame := gtFrom 4 { op := 0x10, arg0 := 1, arg1 := 1, gen := 3, payload := leBytes 256 99 }
def creditFrame : GtFrame := gtFrom 4 { op := 0x11, arg0 := 1, gen := 3, payload := leBytes 2 2 ++ leBytes 2 1 }
def gsrSection : List Nat := [5, 0, 0, 0] ++ leBytes 4 2 ++ leBytes 8 0x3F800000
def gsrHead : List Nat :=
  leBytes 2 1 ++ leBytes 2 0 ++ leBytes 4 48 ++ leBytes 8 7 ++ leBytes 2 3 ++ leBytes 2 1 ++ leBytes 4 6 ++ leBytes 4 0
def gsrRecord : List Nat := gsrHead ++ leBytes 4 (crc32c gsrHead) ++ gsrSection
def gsrFrame (bs : List Nat) : GtFrame := gtFrom 4 { op := 0x50, arg0 := 100, arg1 := 3 + 0xFFFF * 65536, payload := bs }
def gsrImg : Image := { secs := [(3, [1 + 5 * 2 ^ 32 + 0xFFFF * 2 ^ 48 + 2 ^ 64 * 8])] }
def gsrState : State :=
  { gtConn {} [setF .XPORT_EP_CFG_KIND 3 9, setStream 3 { expect := 100 },
      setF .XPORT_INGEST_MAP_VALID_A 1 6, setF .XPORT_INGEST_MAP_QUEUE_A 1 6, setF .XPORT_INGEST_MAP_MASK_A 31 6] with
    clay := { active := some gsrImg }
    queues := [(1, { depth := 4, gen := 3, credits := 2 })] }
def watchState (c : Conn) (us : List Upd := []) : State := gtConn c ([setF .XPORT_EP_CFG_WATCH 1 9] ++ us)
def quarState : State := gtConn {} [setF .XPORT_EP_STATE_CONN 3 36, setF .XPORT_EP_SEL_ENDPOINT 9]

theorem witness_FrameChecks :
    (let op : Nat := 0;
      let f := gtAckF;
      let op' := f.body.op;
      op' ≠ op) ∧
    (let op : Nat := 1;
      let s := gtConn {} [setF .XPORT_EP_CFG_KIND 0 9];
      let f := gtAckF;
      let op' := f.body.op;
      op' = op ∧ ¬knownEp s f) ∧
    (let op : Nat := 1;
      let s := gtConn {};
      let f : GtFrame := { gtAckF with body := { op := 1, payload := [] } };
      let op' := f.body.op;
      op' = op ∧ knownEp s f ∧ s.gtFault f ≠ 0) ∧
    (let op : Nat := 0;
      let s := gtConn {} [setF .COLL_PEER_STATE 1 9];
      let f := aliveFrame 0;
      let op' := f.body.op;
      op' = op ∧ knownEp s f ∧ s.gtFault f = 0 ∧ s.ignored f = true) ∧
    (let op : Nat := 1;
      let s := gtConn {} [setF .XPORT_EP_STATE_CONN 1 36];
      let f := gtAckF;
      let op' := f.body.op;
      op' = op ∧ knownEp s f ∧ s.gtFault f = 0 ∧ s.ignored f = false ∧ foreign s f) ∧
    (let op : Nat := 1;
      let s := gtConn {};
      let f := gtAckF;
      let op' := f.body.op;
      let good := op' = op ∧ knownEp s f ∧ s.gtFault f = 0 ∧ s.ignored f = false ∧ ¬foreign s f;
      good ∧ badAck s f) ∧
    (let op : Nat := 0x10;
      let s := quarState;
      let f := tokenFrame;
      let op' := f.body.op;
      let good := op' = op ∧ knownEp s f ∧ s.gtFault f = 0 ∧ s.ignored f = false ∧ ¬foreign s f;
      good ∧ ¬badAck s f ∧ s.connState f.ep f.ch = 3 ∧ op ≠ 0 ∧ op ≠ 1 ∧ op ≠ 3) := by
  refine ⟨?_, ?_, ?_, ?_, ?_, ?_, ?_⟩ <;> decide +kernel
theorem witness_UnsequencedFrames :
    (let s := gtConn {};
      let f := aliveFrame 0;
      let joins :=
        s.get Fld.XPORT_EP_CFG_KIND f.ep = 1 ∧
          fieldOf f.body.payload 3 1 % 2 = 1 ∧ s.get Fld.COLL_PEER_STATE f.ep = 1 ∧ f.ep ≠ s.rank;
      plainFrame s f 0 ∧ s.ignored f = false ∧ ¬joins) ∧
    (let s := gtConn {} [setF .COLL_PEER_STATE 1 9];
      let f := aliveFrame 1;
      let joins :=
        s.get Fld.XPORT_EP_CFG_KIND f.ep = 1 ∧
          fieldOf f.body.payload 3 1 % 2 = 1 ∧ s.get Fld.COLL_PEER_STATE f.ep = 1 ∧ f.ep ≠ s.rank;
      plainFrame s f 0 ∧ s.ignored f = false ∧ joins) ∧
    (let s := ackedState;
      let f := gtAckF;
      let c := s.conn f.ep f.ch;
      plainFrame s f 1 ∧
        (f.flags.testBit 3 = true → c.wait = [] ∧ s.xport.parked = [] ∧ s.xport.outbox = []) ∧
          (c.unacked.all fun x => x.ecc == 0) = true) ∧
    (let s := ackedState;
      let f := nakFrame 9;
      plainFrame s f 2 ∧ s.connState f.ep f.ch = 2 ∧ fieldOf f.body.payload 0 1 ≠ 4) ∧
    (let s := ackedState;
      let f := nakFrame 4;
      plainFrame s f 2 ∧
        s.connState f.ep f.ch = 2 ∧ fieldOf f.body.payload 0 1 = 4 ∧ f.flags.testBit 3 = false) := by
  refine ⟨?_, ?_, ?_, ?_, ?_⟩ <;> decide +kernel
theorem witness_ConnectionsOpen :
    (let s := openingState 4;
      let f := helloFrame 3;
      let st := s.connState f.ep f.ch;
      let here := f.ch < s.channels f.ep;
      knownEp s f ∧ s.gtFault f = 0 ∧ f.flags.testBit 3 = false ∧ f.body.op = 3 ∧ (st = 4 ∨ ¬here)) ∧
    (let s := openingState 2;
      let f := helloFrame 3;
      let i := connIdx f.ep f.ch;
      let here := f.ch < s.channels f.ep;
      knownEp s f ∧
        s.gtFault f = 0 ∧
          f.flags.testBit 3 = false ∧
            f.body.op = 3 ∧ connOpen s f ∧ here ∧ s.get Fld.XPORT_EP_STATE_PEER_INC i = f.inc) ∧
    (let s := openingState 0;
      let f := helloFrame 3;
      let st := s.connState f.ep f.ch;
      let here := f.ch < s.channels f.ep;
      knownEp s f ∧ s.gtFault f = 0 ∧ f.flags.testBit 3 = false ∧ f.body.op = 3 ∧ st ≤ 1 ∧ here) ∧
    (let s := openingState 3;
      let f : GtFrame := { helloFrame 3 with inc := 6 };
      let i := connIdx f.ep f.ch;
      let here := f.ch < s.channels f.ep;
      knownEp s f ∧
        s.gtFault f = 0 ∧
          f.flags.testBit 3 = false ∧
            f.body.op = 3 ∧ connOpen s f ∧ here ∧ s.get Fld.XPORT_EP_STATE_PEER_INC i ≠ f.inc) ∧
    (let s := openingState 1;
      let f := helloFrame 4;
      let st := s.connState f.ep f.ch;
      knownEp s f ∧ s.gtFault f = 0 ∧ f.flags.testBit 3 = false ∧ f.body.op = 4 ∧ st = 1) ∧
    (let s := openingState 0;
      let f := helloFrame 4;
      let st := s.connState f.ep f.ch;
      let i := connIdx f.ep f.ch;
      knownEp s f ∧
        s.gtFault f = 0 ∧
          f.flags.testBit 3 = false ∧
            f.body.op = 4 ∧ (st = 0 ∨ st = 4 ∨ st = 2 ∧ s.get Fld.XPORT_EP_STATE_PEER_INC i = f.inc)) := by
  refine ⟨?_, ?_, ?_, ?_, ?_, ?_⟩ <;> decide +kernel
theorem witness_QueueFrames :
    (let s := queueGt;
      let f :=
        have __src := tokenFrame;
        { port := __src.port, ep := __src.ep, ch := __src.ch, flags := __src.flags, inc := __src.inc, seq := __src.seq,
          ack := __src.ack, credit := __src.credit,
          body :=
            have __src := tokenFrame.body;
            { op := __src.op, step := __src.step, arg0 := __src.arg0, arg1 := __src.arg1, gen := 2,
              payload := __src.payload : GtBody },
          rsv := __src.rsv : GtFrame };
      let q := 1;
      let x := s.queue q;
      let mine := s.prodKind q = 5 ∧ f.body.gen % 16 = x.gen % 16;
      inOrderFrame s f ∧ f.body.op = 16 ∧ f.body.arg1 % 8192 = q ∧ s.coll.roots = [] ∧ ¬mine) ∧
    (let s := queueGt;
      let f := tokenFrame;
      let q := 1;
      let x := s.queue q;
      let mine := s.prodKind q = 5 ∧ f.body.gen % 16 = x.gen % 16;
      inOrderFrame s f ∧
        f.body.op = 16 ∧ f.body.arg1 % 8192 = q ∧ s.coll.roots = [] ∧ mine ∧ s.var Var.qOwed q = 0) ∧
    (let s := queueGt [.var .qOwed 1 1];
      let f := tokenFrame;
      let q := 1;
      let x := s.queue q;
      let ts := List.map ofLe (chunks 256 f.body.payload);
      let mine := s.prodKind q = 5 ∧ f.body.gen % 16 = x.gen % 16;
      inOrderFrame s f ∧
        f.body.op = 16 ∧
          f.body.arg1 % 8192 = q ∧ s.coll.roots = [] ∧ mine ∧ 0 < s.var Var.qOwed q ∧ ts.length = 1) ∧
    (let s := queueGt;
      let f := creditFrame;
      let q := 2;
      let n := 1;
      let x := s.queue q;
      let mine := s.consKind q = 5 ∧ f.body.gen % 16 = x.gen % 16;
      inOrderFrame s f ∧
        f.body.op = 17 ∧
          f.body.payload = leBytes 2 q ++ leBytes 2 n ∧
            q < 8192 ∧
              n < 65536 ∧ Sparse.get [] s.xport.outbox q = [] ∧ s.var Var.qHeldAt q = 0 ∧ mine) ∧
    (let s := queueGt;
      let f :=
        have __src := creditFrame;
        { port := __src.port, ep := __src.ep, ch := __src.ch, flags := __src.flags, inc := __src.inc, seq := __src.seq,
          ack := __src.ack, credit := __src.credit,
          body :=
            have __src := creditFrame.body;
            { op := __src.op, step := __src.step, arg0 := __src.arg0, arg1 := __src.arg1, gen := 1,
              payload := __src.payload : GtBody },
          rsv := __src.rsv : GtFrame };
      let q := 2;
      let n := 1;
      let x := s.queue q;
      let mine := s.consKind q = 5 ∧ f.body.gen % 16 = x.gen % 16;
      inOrderFrame s f ∧
        f.body.op = 17 ∧
          f.body.payload = leBytes 2 q ++ leBytes 2 n ∧
            q < 8192 ∧
              n < 65536 ∧ Sparse.get [] s.xport.outbox q = [] ∧ s.var Var.qHeldAt q = 0 ∧ ¬mine) ∧
    (let s := queueGt;
      let rank := 1;
      let qs :=
        List.filter
          (fun i =>
            match s.img.queueRec i with
            | some r => s.prodKind i == 5 && recGet r 6 2 == rank
            | none => false)
          (s.listedVar Var.qReport);
      qs = []) ∧
    (let s := queueGt [.var .qReport 1 3];
      let rank := 9;
      let qs :=
        List.filter
          (fun i =>
            match s.img.queueRec i with
            | some r => s.prodKind i == 5 && recGet r 6 2 == rank
            | none => false)
          (s.listedVar Var.qReport);
      qs ≠ []) := by
  refine ⟨?_, ?_, ?_, ?_, ?_, ?_, ?_⟩ <;> decide +kernel
theorem witness_IngestFrames :
    (let s := gsrState.run [.unitErr 64 2];
      let f := gsrFrame gsrRecord;
      let line : Nat := 64;
      let k : Nat := 3;
      inOrderFrame s f ∧ f.body.op = 80 ∧ f.body.arg1 % 65536 = k ∧ s.lineBad line = true) ∧
    (let s := gsrState;
      let f : GtFrame := { gsrFrame gsrRecord with body := { (gsrFrame gsrRecord).body with arg0 := 5 } };
      let line : Nat := 5;
      let k : Nat := 3;
      let x := s.stream k;
      inOrderFrame s f ∧
        f.body.op = 80 ∧
          f.body.arg1 % 65536 = k ∧ s.lineBad line = false ∧ (256 ≤ k ∨ f.body.arg0 ≠ x.expect)) ∧
    (let s := gsrState.run [setStream 3 { expect := 100, skip := true }];
      let f := gsrFrame gsrRecord;
      let line : Nat := 5;
      let k : Nat := 3;
      let x := s.stream k;
      let bs := f.body.payload;
      let at' := bits f.body.arg1 16 16;
      inOrderFrame s f ∧
        f.body.op = 80 ∧
          f.body.arg1 % 65536 = k ∧
            s.lineBad line = false ∧
              k < 256 ∧ f.body.arg0 = x.expect ∧ x.skip = true ∧ bs.length ≤ at') ∧
    (let s := gsrState;
      let f := gsrFrame (gsrRecord.take 20);
      let line : Nat := 5;
      let k : Nat := 3;
      let x := s.stream k;
      let bs := f.body.payload;
      let at' := bits f.body.arg1 16 16;
      let r := x.buf ++ if x.skip = true then List.drop at' bs else bs;
      inOrderFrame s f ∧
        f.body.op = 80 ∧
          f.body.arg1 % 65536 = k ∧
            s.lineBad line = false ∧
              k < 256 ∧
                f.body.arg0 = x.expect ∧
                  (x.skip = false ∨ at' < bs.length) ∧
                    (r.length < 32 ∨ headerFault r = 0 ∧ r.length < fieldOf r 4 4)) ∧
    (let s := gsrState;
      let f := gsrFrame (9 :: gsrRecord.drop 1);
      let line : Nat := 5;
      let k : Nat := 3;
      let x := s.stream k;
      let bs := f.body.payload;
      let at' := bits f.body.arg1 16 16;
      let r := x.buf ++ if x.skip = true then List.drop at' bs else bs;
      inOrderFrame s f ∧
        f.body.op = 80 ∧
          f.body.arg1 % 65536 = k ∧
            s.lineBad line = false ∧
              k < 256 ∧
                f.body.arg0 = x.expect ∧
                  (x.skip = false ∨ at' < bs.length) ∧
                    32 ≤ r.length ∧ headerFault r ≠ 0 ∧ at' = 65535) ∧
    (let s := gsrState;
      let f : GtFrame := { gsrFrame (9 :: gsrRecord.drop 1) with body := { op := 0x50, arg0 := 100, arg1 := 3 + 40 * 65536, payload := 9 :: gsrRecord.drop 1 } };
      let line : Nat := 5;
      let k : Nat := 3;
      let x := s.stream k;
      let bs := f.body.payload;
      let at' := bits f.body.arg1 16 16;
      let r := x.buf ++ if x.skip = true then List.drop at' bs else bs;
      let base := x.expect + bs.length - r.length;
      let cut := x.expect + at' - base;
      inOrderFrame s f ∧
        f.body.op = 80 ∧
          f.body.arg1 % 65536 = k ∧
            s.lineBad line = false ∧
              k < 256 ∧
                f.body.arg0 = x.expect ∧
                  (x.skip = false ∨ at' < bs.length) ∧
                    32 ≤ r.length ∧
                      headerFault r ≠ 0 ∧
                        x.skip = false ∧
                          at' < bs.length ∧ base < x.expect + at' ∧ r.length < cut + 32) ∧
    (let s := gsrState.run [setStream 3 { expect := 100, drop := true }];
      let f := gsrFrame gsrRecord;
      let line : Nat := 5;
      let k : Nat := 3;
      let x := s.stream k;
      let bs := f.body.payload;
      let at' := bits f.body.arg1 16 16;
      let r := x.buf ++ if x.skip = true then List.drop at' bs else bs;
      inOrderFrame s f ∧
        f.body.op = 80 ∧
          f.body.arg1 % 65536 = k ∧
            s.lineBad line = false ∧
              k < 256 ∧
                f.body.arg0 = x.expect ∧
                  (x.skip = false ∨ at' < bs.length) ∧
                    32 ≤ r.length ∧ headerFault r = 0 ∧ fieldOf r 4 4 = r.length ∧ x.drop = true) ∧
    (let s := gsrState.run [setStream 3 { expect := 100, samples := [(gsrMb gsrRecord, 90)] }];
      let f := gsrFrame gsrRecord;
      let line : Nat := 5;
      let k : Nat := 3;
      let x := s.stream k;
      let bs := f.body.payload;
      let at' := bits f.body.arg1 16 16;
      let r := x.buf ++ if x.skip = true then List.drop at' bs else bs;
      inOrderFrame s f ∧
        f.body.op = 80 ∧
          f.body.arg1 % 65536 = k ∧
            s.lineBad line = false ∧
              k < 256 ∧
                f.body.arg0 = x.expect ∧
                  (x.skip = false ∨ at' < bs.length) ∧
                    32 ≤ r.length ∧
                      headerFault r = 0 ∧
                        fieldOf r 4 4 = r.length ∧ x.drop = false ∧ recordFault k x r ≠ 0) ∧
    (let s := gsrState.run [setF .XPORT_INGEST_MAP_VALID_A 0 6];
      let f := gsrFrame gsrRecord;
      let line : Nat := 5;
      let k : Nat := 3;
      let x := s.stream k;
      let bs := f.body.payload;
      let at' := bits f.body.arg1 16 16;
      let r := x.buf ++ if x.skip = true then List.drop at' bs else bs;
      inOrderFrame s f ∧
        f.body.op = 80 ∧
          f.body.arg1 % 65536 = k ∧
            s.lineBad line = false ∧
              k < 256 ∧
                f.body.arg0 = x.expect ∧
                  (x.skip = false ∨ at' < bs.length) ∧
                    32 ≤ r.length ∧
                      headerFault r = 0 ∧
                        fieldOf r 4 4 = r.length ∧
                          splitSections (fieldOf r 18 2) (List.drop 32 r) =
                              some ((splitSections (fieldOf r 18 2) (List.drop 32 r)).get!.fst, true) ∧
                            x.drop = false ∧ recordFault k x r = 0 ∧ s.targets k = []) ∧
    (let s := gsrState;
      let f := gsrFrame gsrRecord;
      let line : Nat := 5;
      let k : Nat := 3;
      let x := s.stream k;
      let bs := f.body.payload;
      let at' := bits f.body.arg1 16 16;
      let r := x.buf ++ if x.skip = true then List.drop at' bs else bs;
      inOrderFrame s f ∧
        f.body.op = 80 ∧
          f.body.arg1 % 65536 = k ∧
            s.lineBad line = false ∧
              k < 256 ∧
                f.body.arg0 = x.expect ∧
                  (x.skip = false ∨ at' < bs.length) ∧
                    32 ≤ r.length ∧
                      headerFault r = 0 ∧
                        fieldOf r 4 4 = r.length ∧
                          splitSections (fieldOf r 18 2) (List.drop 32 r) =
                              some ((splitSections (fieldOf r 18 2) (List.drop 32 r)).get!.fst, true) ∧
                            x.drop = false ∧
                              recordFault k x r = 0 ∧
                                s.targets k = [((s.targets k).head!.fst, (s.targets k).head!.snd)] ∧
                                  s.consKind (s.targets k).head!.fst ≠ 5) := by
  refine ⟨?_, ?_, ?_, ?_, ?_, ?_, ?_, ?_, ?_, ?_⟩ <;> decide +kernel
theorem witness_TransportTimers :
    (let s := gtConn { next := 3, credit := 50, win := 16, unacked := [⟨0, { op := 0x2F }, 63, 0, 0⟩, ⟨3, { op := 0x23 }, 5, 0, 1⟩, ⟨1, { op := 0x23 }, 5, 0, 2⟩] };
      let ep : Nat := 9;
      let ch : Nat := 0;
      let c := s.conn ep ch;
      let seq := 0;
      let x := { seq := 0, body := { op := 47 : GtBody }, tries := 63 : Sent };
      let fails := 63 ≤ x.tries ∧ s.get Fld.XPORT_EP_CFG_WATCH ep = 0;
      List.find? (fun x => x.seq == seq) c.unacked = some x ∧ s.connUp ep ch = true ∧ fails) ∧
    (let s := ackedState;
      let ep : Nat := 9;
      let ch : Nat := 0;
      let c := s.conn ep ch;
      let seq := 0;
      let x := { seq := 0, body := { op := 47 : GtBody } : Sent };
      let fails := 63 ≤ x.tries ∧ s.get Fld.XPORT_EP_CFG_WATCH ep = 0;
      List.find? (fun x => x.seq == seq) c.unacked = some x ∧
        s.connUp ep ch = true ∧ ¬fails ∧ x.ecc = 0) ∧
    (let s := gtConn { next := 3, credit := 50, win := 16, unacked := [⟨0, { op := 0x2F }, 63, 0, 0⟩, ⟨3, { op := 0x23 }, 5, 0, 1⟩, ⟨1, { op := 0x23 }, 5, 0, 2⟩] };
      let ep : Nat := 9;
      let ch : Nat := 0;
      let c := s.conn ep ch;
      let seq := 3;
      let x := { seq := 3, body := { op := 35 : GtBody }, tries := 5, ecc := 1 : Sent };
      let fails := 63 ≤ x.tries ∧ s.get Fld.XPORT_EP_CFG_WATCH ep = 0;
      List.find? (fun x => x.seq == seq) c.unacked = some x ∧
        s.connUp ep ch = true ∧ ¬fails ∧ x.ecc = 1) ∧
    (let s := gtConn { next := 3, credit := 50, win := 16, unacked := [⟨0, { op := 0x2F }, 63, 0, 0⟩, ⟨3, { op := 0x23 }, 5, 0, 1⟩, ⟨1, { op := 0x23 }, 5, 0, 2⟩] };
      let ep : Nat := 9;
      let ch : Nat := 0;
      let c := s.conn ep ch;
      let seq := 1;
      let x := { seq := 1, body := { op := 35 : GtBody }, tries := 5, ecc := 2 : Sent };
      let fails := 63 ≤ x.tries ∧ s.get Fld.XPORT_EP_CFG_WATCH ep = 0;
      List.find? (fun x => x.seq == seq) c.unacked = some x ∧
        s.connUp ep ch = true ∧ ¬fails ∧ 2 ≤ x.ecc) ∧
    (let s := ackedState;
      let ep : Nat := 9;
      let ch : Nat := 0;
      let c := s.conn ep ch;
      let seq := 1;
      List.find? (fun x => x.seq == seq) c.unacked = none ∨ s.connUp ep ch = false) ∧
    (let s := gtConn { owe := true };
      let ep : Nat := 9;
      let ch : Nat := 0;
      let c := s.conn ep ch;
      c.owe = true ∧ s.connUp ep ch = true) ∧
    (let s := ackedState;
      let ep : Nat := 9;
      let ch : Nat := 0;
      let c := s.conn ep ch;
      c.owe = false ∨ s.connUp ep ch = false) ∧
    (let s := openingState 1;
      let ep : Nat := 9;
      let ch : Nat := 0;
      s.connState ep ch = 1) ∧
    (let s := ackedState;
      let ep : Nat := 9;
      let ch : Nat := 0;
      s.connState ep ch ≠ 1) ∧
    (let s := watchState {} [setF .BEAT_STATUS_STATE 1, setF .BEAT_COUNT_COUNT 9];
      let off := s.running = true ∧ s.get Fld.BEAT_COUNT_COUNT % 2 = 1;
      off) ∧
    (let s := ackedState;
      let off := s.running = true ∧ s.get Fld.BEAT_COUNT_COUNT % 2 = 1;
      ¬off) := by
  refine ⟨?_, ?_, ?_, ?_, ?_, ?_, ?_, ?_, ?_, ?_, ?_⟩ <;> decide +kernel

/-- A connection whose frames have had no acknowledgement, one of them at its last try and the others with errors in the store. -/
def timedOut : State := gtConn { next := 4, unacked := [⟨0, { op := 0x2F }, 63, 0, 0⟩, ⟨1, { op := 0x2F }, 5, 0, 0⟩,
  ⟨2, { op := 0x2F }, 5, 0, 1⟩, ⟨3, { op := 0x2F }, 5, 0, 2⟩] }
theorem witness_TransportTimers_retries :
    timedOut.connUp 9 0 = true ∧ timedOut.get .XPORT_EP_CFG_WATCH 9 = 0 ∧
    (List.range 4).map (fun k => ((timedOut.conn 9 0).unacked.find? (fun x => x.seq == k)).map (fun x => (x.tries, x.ecc))) =
      [some (63, 0), some (5, 0), some (5, 1), some (5, 2)] := by decide +kernel

/-! Errors. -/

def running : Upd := setF .BEAT_STATUS_STATE 1
def scrubState (st : Nat) (us : List Upd := []) : State :=
  mk ([running, setF .ERR_STATUS_SCRUB_STATE st, setF .ERR_SCRUB_LEN_LINES 9, setF .ERR_SCRUB_BASE_LINE 5,
    setF .ERR_SCRUB_NEXT_LINE 7, .var .scrubLeft 0 4] ++ us)
def dmaState (ch : Nat) : State := mk [setF .ERR_DMA_SEL_CHANNEL ch, setF .ERR_DMA_STATE_HALTED 1 ch, .var .ingestHalt 0 4]
def clearRow : State := rowState [setF .ERR_CLEAR_ADDR_LINE (tblDpa 0 rTab / 64)]
def retireState (us : List Upd) : State := mk ([running, setF .ERR_RETIRE_ADDR_PAGE 12] ++ us)
def onList : State := retireState [.rows (fun r => { r with retired := [(0, [12 * 4096])] })]
def moved : State := retireState [setF .ERR_STATUS_RETIRE_STATE 1, .var .retireRevisit 0 1]
def fault : Event := ⟨0x12, 0, 0, 5, 1, 0, 7, 0⟩
def bigRow : State := { mk [running, setF .ERR_RETIRE_ADDR_PAGE ((rStack * 0x1000000000 + 0x11000) / 4096)] with clay := { active := some { hdr := noPrev, secs := [(9, [rTab + 1023 * 2 ^ 128])] } } }

theorem witness_ScrubAndWriteback :
    (let s := scrubState 0;
      let st := s.get Fld.ERR_STATUS_SCRUB_STATE;
      st ≠ 1 ∧ st ≠ 2) ∧
    (let s := scrubState 1;
      let st := s.get Fld.ERR_STATUS_SCRUB_STATE;
      st = 1) ∧
    (let s := scrubState 2;
      let st := s.get Fld.ERR_STATUS_SCRUB_STATE;
      st = 2 ∧ s.var Var.scrubLeft ≠ 0) ∧
    (let s := scrubState 2 [.var .scrubLeft 0 0];
      let st := s.get Fld.ERR_STATUS_SCRUB_STATE;
      st = 2 ∧ s.var Var.scrubLeft = 0) ∧
    (let s := scrubState 1;
      let st := s.get Fld.ERR_STATUS_SCRUB_STATE;
      st = 1 ∨ st = 2) ∧
    (let s := scrubState 0;
      let st := s.get Fld.ERR_STATUS_SCRUB_STATE;
      st ≠ 1) ∧
    (let s := scrubState 1 [setF .ERR_SCRUB_NEXT_LINE (2 ^ 42 - 1)];
      let st := s.get Fld.ERR_STATUS_SCRUB_STATE;
      st = 1 ∧ scrubNext (s.get Fld.ERR_SCRUB_NEXT_LINE) = none) ∧
    (let s := scrubState 1 [.unitErr (7 * 64) 1];
      let st := s.get Fld.ERR_STATUS_SCRUB_STATE;
      let l := 7;
      st = 1 ∧ scrubNext (s.get Fld.ERR_SCRUB_NEXT_LINE) = some l) ∧
    (let s := mk [.unitErr 0 1];
      let a := 0;
      let l := canonDpa a / 64 * 64;
      s.lineOutcome l = 1) ∧
    (let s := scrubState 0;
      let a := 0;
      let l := canonDpa a / 64 * 64;
      s.lineOutcome l ≠ 1) := by
  refine ⟨?_, ?_, ?_, ?_, ?_, ?_, ?_, ?_, ?_, ?_⟩ <;> decide +kernel
theorem witness_RestartsAndClears :
    (let s := mk [];
      s.dmaHalted (s.get Fld.ERR_DMA_SEL_CHANNEL) = false) ∧
    (let s := dmaState 0;
      let ch : Nat := 0;
      let sel :=
        s.get Fld.ERR_DMA_SEL_CHANNEL = ch ∧
          s.dmaHalted ch = true ∧ ∀ p ∈ s.xport.conns, p.snd.ready = [];
      sel ∧ ch = 0) ∧
    (let s := dmaState 0;
      let ch : Nat := 0;
      let sel :=
        s.get Fld.ERR_DMA_SEL_CHANNEL = ch ∧
          s.dmaHalted ch = true ∧ ∀ p ∈ s.xport.conns, p.snd.ready = [];
      sel ∧ ch = 0 ∧ List.find? (fun r => r.seq == s.spring.emitHalt - 1) s.spring.ring = none) ∧
    (let s := (dmaState 0).run [.spring (fun x => { x with emitHalt := 9, ring := [⟨8, 65536, 48, 1, 5⟩] })];
      let ch : Nat := 0;
      let sel :=
        s.get Fld.ERR_DMA_SEL_CHANNEL = ch ∧
          s.dmaHalted ch = true ∧ ∀ p ∈ s.xport.conns, p.snd.ready = [];
      let r := { seq := 8, addr := 65536, len := 48, type := 1, step := 5 : RingRec };
      sel ∧ ch = 0 ∧ List.find? (fun r => r.seq == s.spring.emitHalt - 1) s.spring.ring = some r) ∧
    (let s := dmaState 1;
      let ch : Nat := 1;
      let sel :=
        s.get Fld.ERR_DMA_SEL_CHANNEL = ch ∧
          s.dmaHalted ch = true ∧ ∀ p ∈ s.xport.conns, p.snd.ready = [];
      sel ∧ ch = 1 ∧ ∀ p ∈ s.spring.refill, p.snd.bytes.length < 32) ∧
    (let s := (dmaState 2).run [.var .ingestHalt 0 4];
      let ch : Nat := 2;
      let sel :=
        s.get Fld.ERR_DMA_SEL_CHANNEL = ch ∧
          s.dmaHalted ch = true ∧ ∀ p ∈ s.xport.conns, p.snd.ready = [];
      sel ∧ ch = 2) ∧
    (let s := clearRow;
      let line := 64 * s.get Fld.ERR_CLEAR_ADDR_LINE;
      let b := (s.tagLineAt line).get!;
      s.get Fld.ERR_CLEAR_ADDR_TARGET = 0 ∧ line < 1099511627776 ∧ s.tagLineAt line = some b) ∧
    (let s := mk [];
      let line := 64 * s.get Fld.ERR_CLEAR_ADDR_LINE;
      s.get Fld.ERR_CLEAR_ADDR_TARGET = 0 ∧ line < 1099511627776 ∧ s.tagLineAt line = none) ∧
    (let s := mk [setF .ERR_CLEAR_ADDR_LINE 0x010000000000];
      let line := 64 * s.get Fld.ERR_CLEAR_ADDR_LINE;
      s.get Fld.ERR_CLEAR_ADDR_TARGET = 0 ∧ 1099511627776 ≤ line) ∧
    (let s := mk [setF .ERR_CLEAR_ADDR_TARGET 1];
      s.get Fld.ERR_CLEAR_ADDR_TARGET ≠ 0) ∧
    (let s := mk [setF .ERR_STORE_SEL_INDEX 5, setF .ERR_STATUS_STATE_LOST 32];
      let ch : Nat := 5;
      s.get Fld.ERR_STORE_SEL_INDEX = ch ∧
        ch < 16 ∧
          (s.get Fld.ERR_STATUS_STATE_LOST).testBit ch = true ∧
            List.filter (fun h => h.stack == ch && !s.tornRow ch h.key) s.rows.deferred = []) ∧
    (let s := mk [];
      let ch : Nat := 0;
      s.get Fld.ERR_STORE_SEL_INDEX = ch ∧
        (16 ≤ ch ∨ (s.get Fld.ERR_STATUS_STATE_LOST).testBit ch = false)) := by
  refine ⟨?_, ?_, ?_, ?_, ?_, ?_, ?_, ?_, ?_, ?_, ?_, ?_⟩ <;> decide +kernel
theorem witness_RetirementLossesHistory :
    (let s := moved;
      let st := s.get Fld.ERR_STATUS_RETIRE_STATE;
      st = 1) ∧
    (let s := onList;
      let page := s.get Fld.ERR_RETIRE_ADDR_PAGE * 4096;
      let stack := page / 68719476736;
      let listed := Sparse.get [] s.rows.retired stack;
      let st := s.get Fld.ERR_STATUS_RETIRE_STATE;
      st ≠ 1 ∧ listed.contains page = true) ∧
    (let s := (retireState []).run [.rows (fun r => { r with retired := [(0, List.replicate 4096 0)] })];
      let page := s.get Fld.ERR_RETIRE_ADDR_PAGE * 4096;
      let stack := page / 68719476736;
      let listed := Sparse.get [] s.rows.retired stack;
      let st := s.get Fld.ERR_STATUS_RETIRE_STATE;
      st ≠ 1 ∧ listed.contains page = false ∧ 4096 ≤ listed.length) ∧
    (let s := retireState [];
      let page := s.get Fld.ERR_RETIRE_ADDR_PAGE * 4096;
      let stack := page / 68719476736;
      let listed := Sparse.get [] s.rows.retired stack;
      let st := s.get Fld.ERR_STATUS_RETIRE_STATE;
      st ≠ 1 ∧ listed.contains page = false ∧ listed.length < 4096 ∧ s.notTable stack page = true) ∧
    (let s := bigRow;
      let page := s.get Fld.ERR_RETIRE_ADDR_PAGE * 4096;
      let stack := page / 68719476736;
      let listed := Sparse.get [] s.rows.retired stack;
      let st := s.get Fld.ERR_STATUS_RETIRE_STATE;
      st ≠ 1 ∧ listed.contains page = false ∧ listed.length < 4096 ∧ s.notTable stack page = false) ∧
    (let s := retireState [];
      let st := s.get Fld.ERR_STATUS_RETIRE_STATE;
      let moving := s.rows.drifts.any fun d => d.cause == 2;
      st ≠ 1 ∨ moving = true) ∧
    (let s := moved;
      let st := s.get Fld.ERR_STATUS_RETIRE_STATE;
      let moving := s.rows.drifts.any fun d => d.cause == 2;
      st = 1 ∧ moving = false ∧ s.var Var.retireRevisit ≠ 0) ∧
    (let s := retireState [setF .ERR_STATUS_RETIRE_STATE 1];
      let st := s.get Fld.ERR_STATUS_RETIRE_STATE;
      let moving := s.rows.drifts.any fun d => d.cause == 2;
      st = 1 ∧ moving = false ∧ s.var Var.retireRevisit = 0) ∧
    (let cell := 7;
      cell < 144) ∧
    (let cell := 200;
      144 ≤ cell) ∧
    (let s := retireState [];
      s.logs.owed = []) := by
  refine ⟨?_, ?_, ?_, ?_, ?_, ?_, ?_, ?_, ?_, ?_, ?_⟩ <;> decide +kernel

theorem witness_RestartsAndClears_record :
    ((dmaState 0).run [.spring (fun x => { x with emitHalt := 9, ring := [⟨8, 65536, 48, 1, 5⟩] })]).spring.ring.find?
      (fun r => r.seq == 8) = some ⟨8, 65536, 48, 1, 5⟩ ∧ (dmaState 0).dmaHalted 0 = true := by decide +kernel

/-! Power, boot and the sideband. -/

def cool : List Nat := List.replicate 37 800
def hot (n c : Nat) : List Upd := (List.range 37).map (fun i => setF .PWR_THERM_TEMP (if i = n then 16 * c else 800) i)
def standState : State := mk [setF .PWR_STATUS_STATE 1, .bytes 5 [1, 2], setF .PORT_STATUS_STATE 4 2, setF .PORT_STATUS_STATE 5 3]
def bootState (n : Nat) (us : List Upd := []) : State := mk ([.boot (fun b => { b with phase := n })] ++ us)
def throttleState : State := mk ([setF .BEAT_STATUS_STATE 1, setF .BEAT_COUNT_COUNT 63, .var .boundaryDue 0 1, setF .PWR_THERM_HOTTEST 1700])
def trippedState : State := mk (hot 40 0 ++ [.var .tripped 0 1, .var .bulk 0 1])
/-- The one field of a register. -/
def oneField (s : State) (addr : Nat) (a : Access) (f : Fld) (i : Nat) : Bool :=
  match s.fieldsAt addr with | [p] => decide (p.1.acc = a ∧ p.1.fld = f ∧ p.2 = i ∧ !s.ignoresWrite f i) | _ => false
def resetState (l : Nat) : State := mk [.var .rstLevel 0 (l + 1), .var .rstPend 0 10, .bytes 5 [1, 2], setF .BEAT_STATUS_STATE 1,
  setF .BEAT_COUNT_COUNT 7, .cells (fun c => { c with s := Sparse.set 0 c.s 3 9 })]

theorem witness_InputAndRails :
    (let s := mk [.var .unpowered 0 1, .var .rstLevel 0 3];
      s.var Var.unpowered ≠ 0) ∧
    (let s := mk [];
      s.var Var.unpowered = 0) ∧
    (let s := mk [];
      s.var Var.unpowered ≠ 1 ∧ s.var Var.bulk ≠ 1 ∧ s.var Var.railsOff ≠ 1) ∧
    (let s := mk [.var .unpowered 0 1, .var .rstLevel 0 3];
      s.var Var.unpowered = 1 ∨ s.var Var.bulk = 1 ∨ s.var Var.railsOff = 1) ∧
    (let s := mk [.var .railsOff 0 1, .var .rstLevel 0 3, .bytes 5 [1], .logs (fun l => { l with owed := [⟨1, 2, 3, 4, 5, 6, 7, 8⟩] })];
      let dark := s.var Var.railsOff ≠ 0 ∧ s.var Var.unpowered ≠ 1;
      dark) ∧
    (let s := mk [.var .unpowered 0 1, .var .rstLevel 0 3];
      let dark := s.var Var.railsOff ≠ 0 ∧ s.var Var.unpowered ≠ 1;
      ¬dark) := by
  refine ⟨?_, ?_, ?_, ?_, ?_, ?_⟩ <;> decide +kernel
theorem witness_ResetSourcesAndPowerStates :
    (let s := mk [];
      s.var Var.pinLow ≠ 1) ∧
    (let s := mk [.var .pinLow 0 1];
      s.var Var.pinLow = 1) ∧
    (let s := mk [.var .pinLow 0 1];
      s.var Var.pinLow ≠ 0) ∧
    (let s := mk [];
      s.var Var.pinLow = 0) ∧
    (let s := standState;
      let standby := s.stopped = true ∧ s.get Fld.PWR_STATUS_STATE = 1;
      standby) ∧
    (let s := mk [];
      let standby := s.stopped = true ∧ s.get Fld.PWR_STATUS_STATE = 1;
      ¬standby) ∧
    (let s := bootState 3;
      let wakes := s.get Fld.PWR_STATUS_STATE = 0 ∧ s.boot.phase = 3;
      wakes) ∧
    (let s := mk [];
      let wakes := s.get Fld.PWR_STATUS_STATE = 0 ∧ s.boot.phase = 3;
      ¬wakes) ∧
    (let s := mk [setF .BEAT_STATUS_STATE 1];
      s.stopped = false) ∧
    (let s := mk [];
      s.stopped = true) := by
  refine ⟨?_, ?_, ?_, ?_, ?_, ?_, ?_, ?_, ?_, ?_⟩ <;> decide +kernel
theorem witness_TemperatureAndThrottling :
    (let s := mk [];
      let due := s.var Var.boundaryDue;
      let opens := if due ≥ 2 then s.get Fld.BEAT_COUNT_COUNT else s.get Fld.BEAT_COUNT_COUNT + 1;
      let stays := s.running = true ∧ (due = 0 ∨ opens % 64 ≠ 0);
      ¬stays) ∧
    (let s := throttleState.run [setF .BEAT_COUNT_COUNT 64];
      let due := s.var Var.boundaryDue;
      let opens := if due ≥ 2 then s.get Fld.BEAT_COUNT_COUNT else s.get Fld.BEAT_COUNT_COUNT + 1;
      let stays := s.running = true ∧ (due = 0 ∨ opens % 64 ≠ 0);
      stays) ∧
    (let s := mk (hot 3 116);
      let trips := s.anyHot 115 = true ∧ s.var Var.tripped ≠ 1;
      trips) ∧
    (let s := mk [];
      let trips := s.anyHot 115 = true ∧ s.var Var.tripped ≠ 1;
      ¬trips) ∧
    (let s := trippedState;
      let cools := s.var Var.tripped = 1 ∧ s.allCool 100 = true;
      cools) ∧
    (let s := mk [];
      let cools := s.var Var.tripped = 1 ∧ s.allCool 100 = true;
      ¬cools) := by
  refine ⟨?_, ?_, ?_, ?_, ?_, ?_⟩ <;> decide +kernel
theorem witness_SidebandReads :
    (let s := mk [.var .alert 0 9, setF .PWR_PROFILE_SMB_ADDR 0x58];
      let on := s.var Var.unpowered ≠ 1;
      on) ∧
    (let s := mk [.var .unpowered 0 1];
      let on := s.var Var.unpowered ≠ 1;
      ¬on) ∧
    (let s := mk [.var .alert 0 9, setF .PWR_PROFILE_SMB_ADDR 0x58];
      let on := s.var Var.unpowered ≠ 1;
      let cmd := 9;
      8 < cmd ∧ cmd < 256 ∧ on) ∧
    (let s := mk [.var .unpowered 0 1];
      let on := s.var Var.unpowered ≠ 1;
      let cmd := 9;
      8 < cmd ∧ cmd < 256 ∧ ¬on) ∧
    (let cmd := 0;
      cmd % 256 ≤ 8) ∧
    (let s := mk [.var .alert 0 9, setF .PWR_PROFILE_SMB_ADDR 0x58];
      s.var Var.alert ≠ 0 ∧ s.var Var.unpowered = 0) ∧
    (let s := mk [.var .unpowered 0 1];
      s.var Var.alert = 0 ∨ s.var Var.unpowered ≠ 0) := by
  refine ⟨?_, ?_, ?_, ?_, ?_, ?_, ?_⟩ <;> decide +kernel
theorem witness_BootAndManagement :
    (let s := bootState 1;
      s.boot.phase = 1) ∧
    (let s := bootState 2;
      s.boot.phase ≠ 1) ∧
    (let s := bootState 2;
      let serves := s.boot.phase = 2 ∧ s.var Var.tripped ≠ 1 ∧ s.var Var.railsOff ≠ 1 ∧ s.var Var.unpowered ≠ 1;
      serves) ∧
    (let s := bootState 1;
      let serves := s.boot.phase = 2 ∧ s.var Var.tripped ≠ 1 ∧ s.var Var.railsOff ≠ 1 ∧ s.var Var.unpowered ≠ 1;
      ¬serves) ∧
    (let s := bootState 3 [.boot (fun b => { b with addrHi := 9, addrLo := 3 })];
      let hi := 9;
      let lo := 3;
      let own :=
        if s.boot.phase = 4 ∧ s.boot.storeBad = true then (33022, ofLe (netBytes 8 (s.boot.fuses.serial % 2 ^ 64)))
        else (s.boot.addrHi, s.boot.addrLo);
      let answers := (s.boot.phase = 3 ∨ s.boot.phase = 4) ∧ (hi, lo) = own;
      answers) ∧
    (let s := bootState 1;
      let hi := 0;
      let lo := 0;
      let own :=
        if s.boot.phase = 4 ∧ s.boot.storeBad = true then (33022, ofLe (netBytes 8 (s.boot.fuses.serial % 2 ^ 64)))
        else (s.boot.addrHi, s.boot.addrLo);
      let answers := (s.boot.phase = 3 ∨ s.boot.phase = 4) ∧ (hi, lo) = own;
      ¬answers) := by
  refine ⟨?_, ?_, ?_, ?_, ?_, ?_⟩ <;> decide +kernel
theorem witness_RegisterWriteLands :
    (let s := mk [];
      let addr : Nat := 0xFFFFF8;
      let fs := s.fieldsAt addr;
      fs = []) ∧
    (let s := mk [];
      let addr : Nat := 0xFFFFF8;
      let v : Nat := 3;
      let fs := s.fieldsAt addr;
      let keys := List.map (fun p => (p.fst.fld, p.snd)) fs;
      let w := fun p => bits v p.fst.lo p.fst.fld.width;
      keys.Nodup ∧
        (∀ p ∈ fs, p.fst.acc = Access.wo → w p ≠ 1 ∧ ¬p.fst.fld ∈ [Fld.SPRING_SINK_ACK_SEQ, Fld.FMP_DOORBELL_TAIL]) ∧
          ∀ p ∈ fs,
              ¬p.fst.fld ∈
                  [Fld.CELL_REG_DATA_DATA, Fld.SPRING_EPOCH_EPOCH, Fld.FMP_MGMT_ADDR_LO_ADDR,
                    Fld.ERR_HIST_SEL_INDEX]) := by
  refine ⟨?_, ?_⟩ <;> decide +kernel
theorem witness_ResetTakesEffect :
    (let s := mk [];
      let quiet := s.var Var.lgPhase = 0 ∨ s.var Var.lgPhase = 4;
      s.var Var.unpowered = 1 ∨ ¬quiet ∨ s.var Var.rstLevel = 0 ∧ s.var Var.rstAsk = 0) ∧
    (let s := (resetState 2).run [.var .pinLow 0 1, .boot (fun b => { b with phase := 0 }), setF .RST_CAUSE_LEVEL 2];
      let l : Nat := 2;
      let quiet := s.var Var.lgPhase = 0 ∨ s.var Var.lgPhase = 4;
      let inReset := s.var Var.pinLow = 1 ∧ s.boot.phase = 0;
      s.var Var.unpowered ≠ 1 ∧
        quiet ∧
          s.var Var.rstAsk = 0 ∧ s.var Var.rstLevel = l + 1 ∧ inReset ∧ s.get Fld.RST_CAUSE_LEVEL ≤ l) ∧
    (let s := resetState 0;
      let l : Nat := 0;
      let quiet := s.var Var.lgPhase = 0 ∨ s.var Var.lgPhase = 4;
      let inReset := s.var Var.pinLow = 1 ∧ s.boot.phase = 0;
      s.var Var.unpowered ≠ 1 ∧
        quiet ∧
          s.var Var.rstAsk = 0 ∧
            l ≤ 4 ∧ s.var Var.rstLevel = l + 1 ∧ s.var Var.rstPend < 2 ^ 7 ∧ ¬inReset) := by
  refine ⟨?_, ?_, ?_⟩ <;> decide +kernel

theorem witness_RegisterWriteLands_kinds :
    oneField (mk []) 0x40030 .rw .TIER_WINDOW_BASE 0 = true ∧ oneField (mk []) 0x201000 .rws .EMB_WORK_ITEM 0 = true ∧
    (((mk [setF .BEAT_STATUS_STATE 1]).fieldsAt 0x10048).map
      (fun p => (mk [setF .BEAT_STATUS_STATE 1]).ignoresWrite p.1.fld p.2)) = [true] ∧
    (((mk []).fieldsAt 0x10008).map (fun p => p.1.acc)).contains .w1c = true ∧
    ((mk []).fieldsAt 0x780000).all (fun p => p.1.acc == .wo) = true ∧
    ((((mk []).fieldsAt 0x780000).filter (fun p => bits 1 p.1.lo p.1.fld.width == 1)).map (fun p => (p.1.fld, p.2))) =
      [(.FMP_CTRL_COMMIT, 0)] := by decide +kernel

/-! FMP. -/

/-- A request outside a session, and the module that it waits in, with a session for `id` other than 0. -/
def reqOf (type : Nat) (data : List Nat := []) (session := 0) : FmpMsg := ⟨type, session, 1, 70, 0, data, false⟩
def fmpState (m : FmpMsg) (us : List Upd := []) : State :=
  bootState 3 ([.fmp (fun x => { x with queue := [m] })] ++ us)
/-- A frame of FMP with its header, payload and a tag of zeros. -/
def fmpFrame (type : Nat) (data : List Nat) (tag : Nat := 0) : List Nat :=
  fmpHeader type 4 0 0 0 data.length 0 data.length ++ data ++ leBytes 32 tag
def gapState : State :=
  mk [setF .FMP_SESSION_ID 9, .fmp (fun x => { x with queue := [⟨5, 9, 4, 0, 0, [], false⟩] })]
def openHead : List Nat := leBytes 32 7 ++ leBytes 2 2 ++ leBytes 2 0 ++ leBytes 4 49856
def openMsg : FmpMsg := reqOf 4 (openHead ++ List.replicate 51488 0)
def openState : State := fmpState openMsg [.fmp (fun x => { x with nonces := [(7, 0)] })]
def inSession (m : FmpMsg) : State := fmpState m [setF .FMP_SESSION_ID 9, setF .FMP_CFG_IDLE_S 5]
def readMsg : FmpMsg := reqOf 0x10 (leBytes 8 2 ++ leBytes 8 0x10010 ++ leBytes 8 0x10018)
def writeMsg : FmpMsg := reqOf 0x11 (leBytes 8 1 ++ leBytes 8 0x7c0028 ++ leBytes 8 50)
def winMsg (type n : Nat) (bs : List Nat) : FmpMsg := reqOf type (leBytes 4 8 ++ leBytes 4 n ++ bs)
def dumpMsg : FmpMsg := reqOf 0x14 (leBytes 8 0 ++ leBytes 4 1048576 ++ leBytes 4 1 ++ leBytes 2 2 ++ leBytes 6 0 ++
  leBytes 8 5 ++ leBytes 8 3)
def fuseMsg : FmpMsg := reqOf 0x21 (leBytes 2 1 ++ leBytes 2 2 ++ leBytes 4 0 ++ leBytes 32 99)
def loaderState (m : FmpMsg) : State := bootState 4 [.fmp (fun x => { x with queue := [m] })]
def loadMsg : FmpMsg := reqOf 0x40 (leBytes 8 5 ++ [1, 2, 3])
def newsState (on : Nat) : State :=
  mk [setF .FMP_SESSION_ID 9, setF .FMP_CFG_EVENTS 1, setF .ERR_EVLOG_HEAD_HEAD 1, setF .FMP_CFG_SOUNDINGS on]
def ownedState (m : FmpMsg) : State :=
  fmpState m [.boot (fun b => { b with burnt := { b.burnt with owners := [5, 0, 0, 0] } })]
def fuseOf (fuse index v : Nat) : FmpMsg := reqOf 0x21 (leBytes 2 fuse ++ leBytes 2 index ++ leBytes 4 0 ++ leBytes 32 v)
/-- A frame of a message: its flags, session, SEQ, length and offset, and the fragment, with a tag of zeros. -/
def fmpPart (type session seq len off : Nat) (data : List Nat) (flags := 4) : List Nat :=
  fmpHeader type flags 0 session seq len off data.length ++ data ++ leBytes 32 0
/-- The firmware serves session 9, whose requests so far are the ones given. -/
def served9 (us : List Upd := []) : State := bootState 3 ([setF .FMP_SESSION_ID 9, setF .FMP_CFG_IDLE_S 5] ++ us)
/-- A frame with its tag in a session. -/
def tagged9 (s : State) (type seq len off : Nat) (data : List Nat) : List Nat :=
  let b := fmpHeader type 4 0 9 seq len off data.length ++ data
  b ++ s.fmpTag 9 b
def closed : State := fmpState (reqOf 4)
def dumpOf (off most kind index start n : Nat) : FmpMsg := reqOf 0x14 (leBytes 8 off ++ leBytes 4 most ++ leBytes 4 1 ++ (leBytes 2 kind ++ leBytes 2 index ++ leBytes 4 0 ++ leBytes 8 start ++ leBytes 8 n))
def keyOwned : State := fmpState (reqOf 0x20 (leBytes 72 5)) [.boot (fun b => { b with fuses := { b.fuses with owners := [0, shake256 32 ((leBytes 72 5).drop 8), 0, 0] } })]
def updMsg (a n : Nat) : FmpMsg := reqOf 0x22 (leBytes 8 a ++ leBytes 8 n)

theorem witness_FmpFrames :
    (let s := bootState 1;
      let via : Nat := 0;
      let bs := fmpFrame 1 [];
      let loader := s.boot.phase = 4;
      let hears := (loader ∨ s.boot.phase = 3) ∧ (via % 2 = 1 → ¬loader ∧ s.boot.fuses.dataOff = false);
      let headed := 64 ≤ bs.length ∧ bs.getD 0 0 = 1 ∧ crc32c (List.take 28 bs) = fieldOf bs 28 4;
      let type := fieldOf bs 1 1;
      let session := fieldOf bs 4 4;
      let mine := session = 0 ∨ session = s.session;
      let len := fieldOf bs 16 4;
      let off := fieldOf bs 20 4;
      let n := fieldOf bs 24 2;
      let tagged := List.drop (bs.length - 32) bs = s.fmpTag session (List.take (bs.length - 32) bs);
      let shaped := n = bs.length - 64 ∧ n ≤ 8960 ∧ off + n ≤ len ∧ bs.getD 2 0 % 4 = 0;
      let forLoader := session = 0 ∧ [1, 64, 65].contains type = true;
      ¬hears ∨ headed ∧ (mine → tagged) ∧ (¬shaped ∨ loader ∧ ¬forLoader)) ∧
    (let s := bootState 3;
      let via : Nat := 0;
      let bs : List Nat := 2 :: (fmpFrame 1 []).drop 1;
      let loader := s.boot.phase = 4;
      let hears := (loader ∨ s.boot.phase = 3) ∧ (via % 2 = 1 → ¬loader ∧ s.boot.fuses.dataOff = false);
      let headed := 64 ≤ bs.length ∧ bs.getD 0 0 = 1 ∧ crc32c (List.take 28 bs) = fieldOf bs 28 4;
      hears ∧ ¬headed) ∧
    (let s := bootState 3;
      let via : Nat := 0;
      let bs := fmpFrame 3 [1, 2] 5;
      let loader := s.boot.phase = 4;
      let hears := (loader ∨ s.boot.phase = 3) ∧ (via % 2 = 1 → ¬loader ∧ s.boot.fuses.dataOff = false);
      let headed := 64 ≤ bs.length ∧ bs.getD 0 0 = 1 ∧ crc32c (List.take 28 bs) = fieldOf bs 28 4;
      let session := fieldOf bs 4 4;
      let mine := session = 0 ∨ session = s.session;
      let tagged := List.drop (bs.length - 32) bs = s.fmpTag session (List.take (bs.length - 32) bs);
      hears ∧ headed ∧ mine ∧ ¬tagged) ∧
    (let s := bootState 3;
      let via : Nat := 0;
      let bs := fmpPart 5 0 1 0 0 [];
      let loader := s.boot.phase = 4;
      let hears := (loader ∨ s.boot.phase = 3) ∧ (via % 2 = 1 → ¬loader ∧ s.boot.fuses.dataOff = false);
      let headed := 64 ≤ bs.length ∧ bs.getD 0 0 = 1 ∧ crc32c (List.take 28 bs) = fieldOf bs 28 4;
      let type := fieldOf bs 1 1;
      let session := fieldOf bs 4 4;
      let mine := session = 0 ∨ session = s.session;
      let len := fieldOf bs 16 4;
      let off := fieldOf bs 20 4;
      let n := fieldOf bs 24 2;
      let tagged := List.drop (bs.length - 32) bs = s.fmpTag session (List.take (bs.length - 32) bs);
      let shaped := n = bs.length - 64 ∧ n ≤ 8960 ∧ off + n ≤ len ∧ bs.getD 2 0 % 4 = 0;
      let forFirmware := mine ∧ (session = 0 → needsSession type = false);
      hears ∧ headed ∧ (mine → tagged) ∧ shaped ∧ ¬loader ∧ ¬forFirmware) ∧
    (let s := served9;
      let via : Nat := 0;
      let bs := tagged9 served9 5 1 0 0 [];
      let loader := s.boot.phase = 4;
      let hears := (loader ∨ s.boot.phase = 3) ∧ (via % 2 = 1 → ¬loader ∧ s.boot.fuses.dataOff = false);
      let headed := 64 ≤ bs.length ∧ bs.getD 0 0 = 1 ∧ crc32c (List.take 28 bs) = fieldOf bs 28 4;
      let type := fieldOf bs 1 1;
      let session := fieldOf bs 4 4;
      let mine := session = 0 ∨ session = s.session;
      let len := fieldOf bs 16 4;
      let off := fieldOf bs 20 4;
      let n := fieldOf bs 24 2;
      let tagged := List.drop (bs.length - 32) bs = s.fmpTag session (List.take (bs.length - 32) bs);
      let shaped := n = bs.length - 64 ∧ n ≤ 8960 ∧ off + n ≤ len ∧ bs.getD 2 0 % 4 = 0;
      let forLoader := session = 0 ∧ [1, 64, 65].contains type = true;
      let forFirmware := mine ∧ (session = 0 → needsSession type = false);
      hears ∧
        headed ∧
          (mine → tagged) ∧ shaped ∧ (loader ∧ forLoader ∨ ¬loader ∧ forFirmware) ∧ session ≠ 0) ∧
    (let s := bootState 3;
      let via : Nat := 0;
      let bs := fmpPart 3 0 1 40 0 [4, 5];
      let loader := s.boot.phase = 4;
      let hears := (loader ∨ s.boot.phase = 3) ∧ (via % 2 = 1 → ¬loader ∧ s.boot.fuses.dataOff = false);
      let headed := 64 ≤ bs.length ∧ bs.getD 0 0 = 1 ∧ crc32c (List.take 28 bs) = fieldOf bs 28 4;
      let type := fieldOf bs 1 1;
      let session := fieldOf bs 4 4;
      let mine := session = 0 ∨ session = s.session;
      let len := fieldOf bs 16 4;
      let off := fieldOf bs 20 4;
      let n := fieldOf bs 24 2;
      let tagged := List.drop (bs.length - 32) bs = s.fmpTag session (List.take (bs.length - 32) bs);
      let shaped := n = bs.length - 64 ∧ n ≤ 8960 ∧ off + n ≤ len ∧ bs.getD 2 0 % 4 = 0;
      let forLoader := session = 0 ∧ [1, 64, 65].contains type = true;
      let forFirmware := mine ∧ (session = 0 → needsSession type = false);
      hears ∧
        headed ∧
          (mine → tagged) ∧
            shaped ∧ (loader ∧ forLoader ∨ ¬loader ∧ forFirmware) ∧ fmpLimit type < len) ∧
    (let s := bootState 3;
      let via : Nat := 0;
      let bs := fmpFrame 1 [];
      let loader := s.boot.phase = 4;
      let hears := (loader ∨ s.boot.phase = 3) ∧ (via % 2 = 1 → ¬loader ∧ s.boot.fuses.dataOff = false);
      let headed := 64 ≤ bs.length ∧ bs.getD 0 0 = 1 ∧ crc32c (List.take 28 bs) = fieldOf bs 28 4;
      let type := fieldOf bs 1 1;
      let session := fieldOf bs 4 4;
      let mine := session = 0 ∨ session = s.session;
      let len := fieldOf bs 16 4;
      let off := fieldOf bs 20 4;
      let n := fieldOf bs 24 2;
      let tagged := List.drop (bs.length - 32) bs = s.fmpTag session (List.take (bs.length - 32) bs);
      let shaped := n = bs.length - 64 ∧ n ≤ 8960 ∧ off + n ≤ len ∧ bs.getD 2 0 % 4 = 0;
      let forLoader := session = 0 ∧ [1, 64, 65].contains type = true;
      let forFirmware := mine ∧ (session = 0 → needsSession type = false);
      hears ∧
        headed ∧
          (mine → tagged) ∧
            shaped ∧ (loader ∧ forLoader ∨ ¬loader ∧ forFirmware) ∧ len ≤ fmpLimit type ∧ n = len) ∧
    (let s := bootState 3;
      let via : Nat := 0;
      let src : Nat := 70;
      let bs := fmpPart 3 0 1 2 0 [4];
      let loader := s.boot.phase = 4;
      let hears := (loader ∨ s.boot.phase = 3) ∧ (via % 2 = 1 → ¬loader ∧ s.boot.fuses.dataOff = false);
      let headed := 64 ≤ bs.length ∧ bs.getD 0 0 = 1 ∧ crc32c (List.take 28 bs) = fieldOf bs 28 4;
      let type := fieldOf bs 1 1;
      let session := fieldOf bs 4 4;
      let mine := session = 0 ∨ session = s.session;
      let len := fieldOf bs 16 4;
      let off := fieldOf bs 20 4;
      let n := fieldOf bs 24 2;
      let tagged := List.drop (bs.length - 32) bs = s.fmpTag session (List.take (bs.length - 32) bs);
      let shaped := n = bs.length - 64 ∧ n ≤ 8960 ∧ off + n ≤ len ∧ bs.getD 2 0 % 4 = 0;
      let forLoader := session = 0 ∧ [1, 64, 65].contains type = true;
      let forFirmware := mine ∧ (session = 0 → needsSession type = false);
      let m := { type := type, session := session, seq := fieldOf bs 8 8, src := src, via := via % 2 : FmpMsg };
      let old := (Option.map FmpPart.got (List.find? (fun p => p.msg == m && p.len == len) s.fmp.parts)).getD [];
      let got := List.filter (fun g => g.fst != off) old ++ [(off, List.take n (List.drop 32 bs))];
      let used :=
        List.foldl (fun x1 x2 => x1 + x2) 0
          (List.map (fun p => List.foldl (fun x1 x2 => x1 + x2) 0 (List.map (fun g => g.snd.length) p.got)) s.fmp.parts);
      hears ∧
        headed ∧
          (mine → tagged) ∧
            shaped ∧
              (loader ∧ forLoader ∨ ¬loader ∧ forFirmware) ∧
                len ≤ fmpLimit type ∧ n ≠ len ∧ used + n ≤ 4194304 ∧ (assemble got).length < len) := by
  refine ⟨?_, ?_, ?_, ?_, ?_, ?_, ?_, ?_⟩ <;> decide +kernel
theorem witness_RequestsRun :
    (let s := bootState 1;
      let g := s.firstGap;
      let hi := minOf 0 (List.filter (fun q => decide (g < q)) s.fmpSeqs);
      hi = 0) ∧
    (let s := gapState;
      let g := s.firstGap;
      let hi := minOf 0 (List.filter (fun q => decide (g < q)) s.fmpSeqs);
      hi ≠ 0) := by
  refine ⟨?_, ?_⟩ <;> decide +kernel
theorem witness_IdentityRequests :
    (let s := bootState 1;
      s.boot.phase ≠ 3 ∧ s.boot.phase ≠ 4 ∨ (s.fmpNext fun x => x == 1) = none) ∧
    (let s := fmpState { reqOf 1 with long := true };
      let m : FmpMsg := { reqOf 1 with long := true };
      (s.boot.phase = 3 ∨ s.boot.phase = 4) ∧ (s.fmpNext fun x => x == 1) = some m ∧ m.long = true) ∧
    (let s := fmpState (reqOf 1);
      let m := reqOf 1;
      (s.boot.phase = 3 ∨ s.boot.phase = 4) ∧ (s.fmpNext fun x => x == 1) = some m ∧ m.long = false) ∧
    (let s := fmpState (reqOf 2);
      let m := reqOf 2;
      asked s 3 2 m) ∧
    (let s := bootState 1;
      let undef := s.fmpNext fun ty => !definedType ty;
      s.boot.phase ≠ 3 ∨ undef = none) ∧
    (let s := fmpState (reqOf 0x70);
      let m := reqOf 0x70;
      let undef := s.fmpNext fun ty => !definedType ty;
      s.boot.phase = 3 ∧ undef = some m) ∧
    (let s := fmpState (reqOf 3 (leBytes 31 5));
      let m := reqOf 3 (leBytes 31 5);
      asked s 3 3 m ∧ m.data.length ≠ 32) ∧
    (let s := fmpState (reqOf 3 (leBytes 32 5)) [setF .FMP_STATUS_IDENTITY_BAD 1];
      let m := reqOf 3 (leBytes 32 5);
      asked s 3 3 m ∧ m.data.length = 32 ∧ s.get Fld.FMP_STATUS_IDENTITY_BAD = 1) ∧
    (let s := fmpState (reqOf 3 (leBytes 32 5)) [.fmp (fun x => { x with quote := some (reqOf 2, []) })];
      let m := reqOf 3 (leBytes 32 5);
      asked s 3 3 m ∧ m.data.length = 32 ∧ s.get Fld.FMP_STATUS_IDENTITY_BAD ≠ 1 ∧ s.fmp.quote ≠ none) ∧
    (let s := fmpState (reqOf 3 (leBytes 32 5));
      let m := reqOf 3 (leBytes 32 5);
      asked s 3 3 m ∧ m.data.length = 32 ∧ s.get Fld.FMP_STATUS_IDENTITY_BAD ≠ 1 ∧ s.fmp.quote = none) ∧
    (let s := bootState 1;
      s.fmp.quote = none) := by
  refine ⟨?_, ?_, ?_, ?_, ?_, ?_, ?_, ?_, ?_, ?_, ?_⟩ <;> decide +kernel
theorem witness_Sessions :
    (let s := bootState 1;
      s.fmp.opening ≠ none ∨ s.boot.phase ≠ 3 ∨ (s.fmpNext fun x => x == 4) = none) ∧
    (let s := fmpState { reqOf 4 with long := true };
      let m : FmpMsg := { reqOf 4 with long := true };
      s.fmp.opening = none ∧ s.boot.phase = 3 ∧ (s.fmpNext fun x => x == 4) = some m ∧ m.long = true) ∧
    (let s := fmpState (reqOf 4);
      let m := reqOf 4;
      let d := m.data;
      let sigLen := if fieldOf d 32 2 = 1 then 29792 else 49856;
      let formed := d.length = 1672 + sigLen ∧ fieldOf d 36 4 = sigLen ∧ (fieldOf d 32 2 = 1 ∨ fieldOf d 32 2 = 2);
      s.fmp.opening = none ∧ asked s 3 4 m ∧ ¬formed) ∧
    (let s := closed;
      s.fmp.opening = none) ∧
    (let s := inSession (reqOf 5 [] 9);
      let m := reqOf 5 [] 9;
      asked s 3 5 m) ∧
    (let s := closed;
      s.get Fld.FMP_CFG_IDLE_S = 0 ∨ s.session = 0) ∧
    (let s := mk [setF .FMP_SESSION_ID 8, .fmp (fun x => { x with opening := some (reqOf 4 [] 9, 2), queue := [reqOf 5 [] 8, reqOf 1] })];
      s.get Fld.FMP_CFG_IDLE_S ≠ 0 ∧ s.session ≠ 0) := by
  refine ⟨?_, ?_, ?_, ?_, ?_, ?_, ?_⟩ <;> decide +kernel
theorem witness_RegisterRequests :
    (let s := fmpState (reqOf 0x10 (leBytes 8 1025));
      let m := reqOf 0x10 (leBytes 8 1025);
      let n := fieldOf m.data 0 4;
      asked s 3 16 m ∧ 1024 < n) ∧
    (let s := fmpState (reqOf 0x10 (leBytes 8 1));
      let m := reqOf 0x10 (leBytes 8 1);
      let n := fieldOf m.data 0 4;
      asked s 3 16 m ∧ n ≤ 1024 ∧ m.data.length ≠ 8 + 8 * n) ∧
    (let s := fmpState readMsg;
      let m := readMsg;
      let n := fieldOf m.data 0 4;
      asked s 3 16 m ∧ n ≤ 1024 ∧ m.data.length = 8 + 8 * n) ∧
    (let s := fmpState (reqOf 0x11 (leBytes 8 1025));
      let m := reqOf 0x11 (leBytes 8 1025);
      let n := fieldOf m.data 0 4;
      asked s 3 17 m ∧ 1024 < n) ∧
    (let s := fmpState (reqOf 0x11 (leBytes 8 1));
      let m := reqOf 0x11 (leBytes 8 1);
      let n := fieldOf m.data 0 4;
      asked s 3 17 m ∧ n ≤ 1024 ∧ m.data.length ≠ 8 + 16 * n) ∧
    (let s := fmpState writeMsg;
      let m := writeMsg;
      let n := fieldOf m.data 0 4;
      asked s 3 17 m ∧ n ≤ 1024 ∧ m.data.length = 8 + 16 * n) := by
  refine ⟨?_, ?_, ?_, ?_, ?_, ?_⟩ <;> decide +kernel
theorem witness_WindowRequests :
    (let s := fmpState (winMsg 0x12 16 [1]);
      let m := winMsg 0x12 16 [1];
      asked s 3 18 m ∧ m.data.length ≠ 8) ∧
    (let s := fmpState (winMsg 0x12 1048577 []);
      let m := winMsg 0x12 1048577 [];
      let len := fieldOf m.data 4 4;
      asked s 3 18 m ∧ m.data.length = 8 ∧ 1048576 < len) ∧
    (let s := fmpState (winMsg 0x12 15 []);
      let m := winMsg 0x12 15 [];
      let off := fieldOf m.data 0 4;
      let len := fieldOf m.data 4 4;
      asked s 3 18 m ∧ m.data.length = 8 ∧ len ≤ 1048576 ∧ ¬(off % 8 = 0 ∧ len % 8 = 0)) ∧
    (let s := fmpState (winMsg 0x12 16 []);
      let m := winMsg 0x12 16 [];
      let off := fieldOf m.data 0 4;
      let len := fieldOf m.data 4 4;
      asked s 3 18 m ∧ m.data.length = 8 ∧ len ≤ 1048576 ∧ off % 8 = 0 ∧ len % 8 = 0) ∧
    (let s := fmpState (winMsg 0x13 1048577 (leBytes 8 77));
      let m := winMsg 0x13 1048577 (leBytes 8 77);
      let len := fieldOf m.data 4 4;
      asked s 3 19 m ∧ 1048576 < len) ∧
    (let s := fmpState (winMsg 0x13 9 (leBytes 8 77));
      let m := winMsg 0x13 9 (leBytes 8 77);
      let off := fieldOf m.data 0 4;
      let len := fieldOf m.data 4 4;
      asked s 3 19 m ∧ len ≤ 1048576 ∧ ¬(m.data.length = 8 + len ∧ off % 8 = 0 ∧ len % 8 = 0)) ∧
    (let s := fmpState (winMsg 0x13 8 (leBytes 8 77));
      let m := winMsg 0x13 8 (leBytes 8 77);
      let off := fieldOf m.data 0 4;
      let len := fieldOf m.data 4 4;
      asked s 3 19 m ∧ len ≤ 1048576 ∧ m.data.length = 8 + len ∧ off % 8 = 0 ∧ len % 8 = 0) := by
  refine ⟨?_, ?_, ?_, ?_, ?_, ?_, ?_⟩ <;> decide +kernel
theorem witness_DumpRequests :
    (let s := fmpState (dumpOf 0 1048577 13 0 8 20);
      let m := dumpOf 0 1048577 13 0 8 20;
      let count := fieldOf m.data 12 4;
      asked s 3 20 m ∧ (64 < count ∨ 1048576 < fieldOf m.data 8 4)) ∧
    (let s := fmpState (reqOf 0x14 (leBytes 16 0));
      let m := reqOf 0x14 (leBytes 16 0);
      let count := fieldOf m.data 12 4;
      asked s 3 20 m ∧
        fieldOf m.data 8 4 ≤ 1048576 ∧ count ≤ 64 ∧ (count = 0 ∨ m.data.length ≠ 16 + 24 * count)) ∧
    (let s := fmpState (dumpOf 0 100 13 0 8 20);
      let m := dumpOf 0 100 13 0 8 20;
      let off : Nat := 0;
      let most : Nat := 100;
      let kind : Nat := 13;
      let index : Nat := 0;
      let start : Nat := 8;
      let n : Nat := 20;
      let sel := leBytes 2 kind ++ leBytes 2 index ++ leBytes 4 0 ++ leBytes 8 start ++ leBytes 8 n;
      let one := m.data = leBytes 8 off ++ leBytes 4 most ++ leBytes 4 1 ++ sel;
      asked s 3 20 m ∧
        one ∧
          off < 2 ^ 64 ∧
            most ≤ 1048576 ∧
              kind < 2 ^ 16 ∧
                index < 2 ^ 16 ∧
                  start < 2 ^ 64 ∧
                    n < 2 ^ 64 ∧
                      (kind = 0 ∨ 12 < kind ∨ kind ≤ 2 ∧ 2 ^ 40 < n ∨ kind = 3 ∧ 1 < index)) ∧
    (let s := fmpState (dumpOf 0 100 1 0 0x400008 20);
      let m := dumpOf 0 100 1 0 0x400008 20;
      let off : Nat := 0;
      let most : Nat := 100;
      let kind : Nat := 1;
      let index : Nat := 0;
      let start : Nat := 0x400008;
      let n : Nat := 20;
      let sel := leBytes 2 kind ++ leBytes 2 index ++ leBytes 4 0 ++ leBytes 8 start ++ leBytes 8 n;
      let one := m.data = leBytes 8 off ++ leBytes 4 most ++ leBytes 4 1 ++ sel;
      asked s 3 20 m ∧
        one ∧
          off < 2 ^ 64 ∧
            most ≤ 1048576 ∧
              kind < 2 ^ 16 ∧ index < 2 ^ 16 ∧ start < 2 ^ 64 ∧ n < 2 ^ 64 ∧ n ≤ 2 ^ 40 ∧ kind = 1) ∧
    (let s := fmpState (dumpOf 0 1048576 2 0 5 3) [.bytes 5 [1, 2, 3]];
      let m := dumpOf 0 1048576 2 0 5 3;
      let off : Nat := 0;
      let most : Nat := 1048576;
      let kind : Nat := 2;
      let index : Nat := 0;
      let start : Nat := 5;
      let n : Nat := 3;
      let sel := leBytes 2 kind ++ leBytes 2 index ++ leBytes 4 0 ++ leBytes 8 start ++ leBytes 8 n;
      let one := m.data = leBytes 8 off ++ leBytes 4 most ++ leBytes 4 1 ++ sel;
      asked s 3 20 m ∧
        one ∧
          off < 2 ^ 64 ∧
            most ≤ 1048576 ∧
              kind < 2 ^ 16 ∧ index < 2 ^ 16 ∧ start < 2 ^ 64 ∧ n < 2 ^ 64 ∧ n ≤ 2 ^ 40 ∧ kind = 2) ∧
    (let s : State := { fmpState (dumpOf 0 100 3 0 8 20) with clay := { active := some { hdr := 5 } } };
      let m := dumpOf 0 100 3 0 8 20;
      let off : Nat := 0;
      let most : Nat := 100;
      let kind : Nat := 3;
      let index : Nat := 0;
      let start : Nat := 8;
      let n : Nat := 20;
      let sel := leBytes 2 kind ++ leBytes 2 index ++ leBytes 4 0 ++ leBytes 8 start ++ leBytes 8 n;
      let one := m.data = leBytes 8 off ++ leBytes 4 most ++ leBytes 4 1 ++ sel;
      let i := { hdr := 5 : Image };
      asked s 3 20 m ∧
        one ∧
          off < 2 ^ 64 ∧
            most ≤ 1048576 ∧
              kind < 2 ^ 16 ∧
                index < 2 ^ 16 ∧
                  start < 2 ^ 64 ∧
                    n < 2 ^ 64 ∧
                      (if index = 0 then s.clay.active else s.clay.shadow) = some i ∧
                        kind = 3 ∧ index ≤ 1) := by
  refine ⟨?_, ?_, ?_, ?_, ?_, ?_⟩ <;> decide +kernel
theorem witness_KeysFusesResets :
    (let s := fmpState (reqOf 0x20 (leBytes 71 5));
      let m := reqOf 0x20 (leBytes 71 5);
      asked s 3 32 m ∧ m.data.length ≠ 72) ∧
    (let s := fmpState (reqOf 0x20 (leBytes 72 5));
      let m := reqOf 0x20 (leBytes 72 5);
      let digest := shake256 32 (List.drop 8 m.data);
      asked s 3 32 m ∧ m.data.length = 72 ∧ s.ownerDigests.contains digest = false) ∧
    (let s := keyOwned;
      let m := reqOf 0x20 (leBytes 72 5);
      let digest := shake256 32 (List.drop 8 m.data);
      asked s 3 32 m ∧ m.data.length = 72 ∧ s.ownerDigests.contains digest = true) ∧
    (let s := fmpState (reqOf 0x21 (leBytes 39 5));
      let m := reqOf 0x21 (leBytes 39 5);
      asked s 3 33 m ∧ m.data.length ≠ 40) ∧
    (let s := fmpState (fuseOf 6 0 0);
      let m := fuseOf 6 0 0;
      let fuse := fieldOf m.data 0 2;
      let index := fieldOf m.data 2 2;
      asked s 3 33 m ∧ m.data.length = 40 ∧ (fuse = 0 ∨ 5 < fuse ∨ fuse = 1 ∧ 3 < index)) ∧
    (let s := fmpState (fuseOf 1 3 77);
      let m := fuseOf 1 3 77;
      let fuse := fieldOf m.data 0 2;
      let index := fieldOf m.data 2 2;
      let b := s.boot.burnt;
      asked s 3 33 m ∧ m.data.length = 40 ∧ fuse = 1 ∧ index ≤ 3 ∧ b.owners.getD index 0 = 0) ∧
    (let s := fmpState (fuseOf 4 0 1);
      let m := fuseOf 4 0 1;
      let fuse := fieldOf m.data 0 2;
      asked s 3 33 m ∧ m.data.length = 40 ∧ fuse = 4) ∧
    (let s := fmpState (fuseOf 5 0 1);
      let m := fuseOf 5 0 1;
      let fuse := fieldOf m.data 0 2;
      asked s 3 33 m ∧ m.data.length = 40 ∧ fuse = 5) ∧
    (let s := fmpState (reqOf 0x24 (leBytes 8 5));
      let m := reqOf 0x24 (leBytes 8 5);
      asked s 3 36 m ∧ (m.data.length ≠ 8 ∨ 4 < m.data.getD 0 0)) ∧
    (let s := fmpState (reqOf 0x24 (leBytes 8 4));
      let m := reqOf 0x24 (leBytes 8 4);
      asked s 3 36 m ∧ m.data.length = 8 ∧ m.data.getD 0 0 ≤ 4) := by
  refine ⟨?_, ?_, ?_, ?_, ?_, ?_, ?_, ?_, ?_, ?_⟩ <;> decide +kernel
theorem witness_FirmwareAndLoader :
    (let s := fmpState (reqOf 0x22 (leBytes 15 0));
      let m := reqOf 0x22 (leBytes 15 0);
      asked s 3 34 m ∧ m.data.length ≠ 16) ∧
    (let s := fmpState (updMsg 64 128) [.var .fwBusy 0 1];
      let m := updMsg 64 128;
      asked s 3 34 m ∧ m.data.length = 16 ∧ s.var Var.fwBusy = 1) ∧
    (let s := fmpState (updMsg 64 67108865);
      let m := updMsg 64 67108865;
      let n := fieldOf m.data 8 8;
      asked s 3 34 m ∧ m.data.length = 16 ∧ s.var Var.fwBusy ≠ 1 ∧ 67108864 < n) ∧
    (let s := fmpState (updMsg 64 128) [.unitErr 64 2];
      let m := updMsg 64 128;
      let n := fieldOf m.data 8 8;
      let a := fieldOf m.data 0 8;
      let readable := s.mayStage a n = true ∧ (linesOf a n).any s.lineBad = false;
      asked s 3 34 m ∧ m.data.length = 16 ∧ s.var Var.fwBusy ≠ 1 ∧ n ≤ 67108864 ∧ ¬readable) ∧
    (let s := fmpState (updMsg 64 128);
      let m := updMsg 64 128;
      let n := fieldOf m.data 8 8;
      let a := fieldOf m.data 0 8;
      let readable := s.mayStage a n = true ∧ (linesOf a n).any s.lineBad = false;
      asked s 3 34 m ∧ m.data.length = 16 ∧ s.var Var.fwBusy ≠ 1 ∧ n ≤ 67108864 ∧ readable) ∧
    (let s := fmpState (reqOf 0x22 (leBytes 15 0));
      s.var Var.fwBusy = 0) ∧
    (let s := fmpState (updMsg 64 128) [.var .fwBusy 0 1];
      s.var Var.fwBusy ≠ 0) ∧
    (let s := loaderState (reqOf 0x40 [1]);
      let m := reqOf 0x40 [1];
      let a := fieldOf m.data 0 8;
      let k := m.data.length - 8;
      asked s 4 64 m ∧ (m.data.length < 8 ∨ 67108864 < a + k)) ∧
    (let s := loaderState loadMsg;
      let m := loadMsg;
      let a := fieldOf m.data 0 8;
      let k := m.data.length - 8;
      asked s 4 64 m ∧ 8 ≤ m.data.length ∧ a + k ≤ 67108864) ∧
    (let s := loaderState (reqOf 0x41 (leBytes 7 3));
      let m := reqOf 0x41 (leBytes 7 3);
      asked s 4 65 m ∧ m.data.length ≠ 8) ∧
    (let s := loaderState (reqOf 0x41 (leBytes 8 3));
      let m := reqOf 0x41 (leBytes 8 3);
      asked s 4 65 m ∧ m.data.length = 8) := by
  refine ⟨?_, ?_, ?_, ?_, ?_, ?_, ?_, ?_, ?_, ?_, ?_⟩ <;> decide +kernel
theorem witness_FusesAndSvn :
    (let s := fmpState (fuseOf 3 0 1);
      let m := fuseOf 3 0 1;
      let b := s.boot.burnt;
      let none' := fun owners revoked => ∀ (k : Nat), k < owners.length → owners.getD k 0 = 0 ∨ revoked.testBit k = true;
      asked s 3 33 m ∧ m.data.length = 40 ∧ fieldOf m.data 0 2 = 3 ∧ none' b.owners b.revoke) ∧
    (let s := fmpState (fuseOf 2 0 1);
      let m := fuseOf 2 0 1;
      let b := s.boot.burnt;
      let none' := fun owners revoked => ∀ (k : Nat), k < owners.length → owners.getD k 0 = 0 ∨ revoked.testBit k = true;
      asked s 3 33 m ∧
        m.data.length = 40 ∧
          fieldOf m.data 0 2 = 2 ∧ none' b.owners (b.revoke ||| ofLe (List.drop 8 m.data) % 16)) ∧
    (let s := ownedState (fuseOf 1 0 1);
      let m := fuseOf 1 0 1;
      let b := s.boot.burnt;
      asked s 3 33 m ∧
        m.data.length = 40 ∧
          fieldOf m.data 0 2 = 1 ∧ fieldOf m.data 2 2 ≤ 3 ∧ b.owners.getD (fieldOf m.data 2 2) 0 ≠ 0) ∧
    (let s := fmpState (reqOf 0x23);
      let m := reqOf 0x23;
      let b := s.boot.burnt;
      asked s 3 35 m ∧ s.get Fld.FMP_FW_RUN_SVN ≤ b.svnMin) ∧
    (let s := fmpState (reqOf 0x23) [setF .FMP_FW_RUN_SVN 3];
      let m := reqOf 0x23;
      let b := s.boot.burnt;
      asked s 3 35 m ∧ b.svnMin < s.get Fld.FMP_FW_RUN_SVN) := by
  refine ⟨?_, ?_, ?_, ?_, ?_⟩ <;> decide +kernel
theorem witness_EventsAndSoundings :
    (let s := mk [];
      let beat := s.get Fld.BEAT_COUNT_COUNT;
      let fresh := min 256 ((s.get Fld.ERR_EVLOG_HEAD_HEAD + 4096 - s.fmp.evNext) % 4096);
      let es :=
        List.map (fun k => padEntry 32 (s.eventEntry (s.fmp.evNext + k))) (List.range fresh) ++
          List.map Event.bytes (List.take (256 - fresh) s.fmp.notes);
      let may :=
        s.session ≠ 0 ∧ s.get Fld.FMP_CFG_EVENTS ≠ 0 ∧ es ≠ [] ∧ (s.fmp.evBeat = 0 ∨ s.fmp.evBeat + 64 ≤ beat + 1);
      ¬may) ∧
    (let s := newsState 1;
      let beat := s.get Fld.BEAT_COUNT_COUNT;
      let fresh := min 256 ((s.get Fld.ERR_EVLOG_HEAD_HEAD + 4096 - s.fmp.evNext) % 4096);
      let es :=
        List.map (fun k => padEntry 32 (s.eventEntry (s.fmp.evNext + k))) (List.range fresh) ++
          List.map Event.bytes (List.take (256 - fresh) s.fmp.notes);
      let may :=
        s.session ≠ 0 ∧ s.get Fld.FMP_CFG_EVENTS ≠ 0 ∧ es ≠ [] ∧ (s.fmp.evBeat = 0 ∨ s.fmp.evBeat + 64 ≤ beat + 1);
      may) ∧
    (let s := (newsState 1).run [setF .BEAT_STATUS_STATE 1, setF .BEAT_COUNT_COUNT 1025, .fmp (fun x => { x with notes := [⟨1, 2, 3, 4, 5, 6, 7, 8⟩] })];
      let beat := s.get Fld.BEAT_COUNT_COUNT;
      let due := s.running = false ∨ beat % 1024 = 0 ∧ s.var Var.soundAt ≠ beat + 1 ∧ s.var Var.boundaryDue = 0;
      ¬due) ∧
    (let s := newsState 1;
      let beat := s.get Fld.BEAT_COUNT_COUNT;
      let due := s.running = false ∨ beat % 1024 = 0 ∧ s.var Var.soundAt ≠ beat + 1 ∧ s.var Var.boundaryDue = 0;
      due ∧ ∀ (d : Nat), d < 2 → s.get Fld.EMB_DRIFT_POLICY_ENABLE d = 0) := by
  refine ⟨?_, ?_, ?_, ?_⟩ <;> decide +kernel
theorem witness_RequestsRun_kinds :
    (let s := bootState 1;
      let phase : Nat := 3;
      let type : Nat := 3;
      s.boot.phase ≠ phase ∨ (s.fmpNext fun x => x == type) = none) := by decide +kernel

theorem fmpUsed_one (m : FmpMsg) (n : Nat) (l : List Nat) :
    [(⟨m, n, [(1, l)]⟩ : FmpPart)].map (fun p => (p.got.map (fun g => g.2.length)).foldl (· + ·) 0) = [0 + l.length] := rfl
theorem witness_FmpFrames_full :
    [(⟨reqOf 3, 9, [(1, List.replicate 4194304 0)]⟩ : FmpPart)].map (fun p => (p.got.map (fun g => g.2.length)).foldl (· + ·) 0) =
      [4194304] := (fmpUsed_one _ _ _).trans (by rw [List.length_replicate])
theorem assemble_two : assemble [(1, [9]), (0, [4])] = [4, 9] := by simp [assemble, List.mergeSort]
theorem witness_FmpFrames_whole :
    let s := bootState 3 [.fmp (fun x => { x with parts := [⟨⟨3, 0, 1, 70, 0, [], false⟩, 2, [(1, [9])]⟩] })]
    let bs := fmpPart 3 0 1 2 0 [4]
    (s.boot.phase = 3 ∧ crc32c (bs.take 28) = fieldOf bs 28 4 ∧ bs.drop (bs.length - 32) = s.fmpTag 0 (bs.take (bs.length - 32)) ∧
      fieldOf bs 16 4 = 2 ∧ (s.fmp.parts.map FmpPart.got) = [[(1, [9])]] ∧ fieldOf bs 20 4 = 0 ∧ (bs.drop 32).take (fieldOf bs 24 2) = [4]) ∧
    (assemble [(1, [9]), (0, [4])]).length = 2 := by
  refine ⟨by decide +kernel, ?_⟩
  rw [assemble_two]; rfl
/-- A SESSION_OPEN of the right length with a nonce: the fields of it that the checks read. -/
theorem openMsg_data : openMsg.data = openHead ++ List.replicate 51488 0 := rfl
theorem fieldOf_append (a b : List Nat) (o n : Nat) (h : o + n ≤ a.length) : fieldOf (a ++ b) o n = fieldOf a o n := by
  rw [fieldOf, List.drop_append_of_le_length (by omega), List.take_append_of_le_length (by rw [List.length_drop]; omega), fieldOf]
theorem witness_Sessions_formed :
    openMsg.data.length = 1672 + 49856 ∧ fieldOf openMsg.data 32 2 = 2 ∧ fieldOf openMsg.data 36 4 = 49856 ∧
    openMsg.data.take 32 = leBytes 32 7 ∧ (openMsg.data.drop 40).take 64 = List.replicate 64 0 := by
  rw [openMsg_data, List.length_append, List.length_replicate, fieldOf_append _ _ _ _ (by decide), fieldOf_append _ _ _ _ (by decide),
    List.take_append_of_le_length (by decide), List.drop_append_of_le_length (by decide),
    show openHead.drop 40 = [] by decide, List.nil_append, List.take_replicate]
  decide +kernel
theorem witness_Sessions_opens :
    (asked (fmpState openMsg) 3 4 openMsg ∧ (fmpState openMsg).fmp.nonces = []) ∧
    (asked openState 3 4 openMsg ∧ openState.get .FMP_STATUS_IDENTITY_BAD ≠ 1 ∧ openState.fmp.nonces = [(7, 0)] ∧
      openState.var .clk = 0 ∧ openState.ownerSlot 5 = some 0) ∧
    (openState.run [.boot (fun b => { b with fuses := { b.fuses with owners := [5, 0, 0, 0] } })]).ownerSlot 6 = none :=
  ⟨⟨⟨rfl, rfl, rfl⟩, rfl⟩, ⟨⟨rfl, rfl, rfl⟩, by decide +kernel, rfl, rfl, rfl⟩, by decide +kernel⟩
theorem witness_RequestsRun_requests :
    (∀ type ∈ [0x02, 0x03, 0x05, 0x10, 0x11, 0x12, 0x13, 0x14, 0x20, 0x21, 0x22, 0x23, 0x24],
      (bootState 3).fmpNext (· == type) = none ∧
      (fmpState { reqOf type with long := true }).fmpNext (· == type) = some { reqOf type with long := true }) ∧
    (∀ type ∈ [0x40, 0x41], (loaderState { reqOf type with long := true }).boot.phase = 4 ∧
      (loaderState { reqOf type with long := true }).fmpNext (· == type) = some { reqOf type with long := true }) := by
  decide +kernel
theorem witness_DumpRequests_image :
    ({ fmpState (dumpOf 0 100 3 0 8 20) with clay := { active := some { hdr := 5 } } } : State).clay.active = some { hdr := 5 } ∧
    asked (fmpState (dumpOf 0 100 3 0 8 20)) 3 0x14 (dumpOf 0 100 3 0 8 20) := by decide +kernel
/-- One owner digest stands, or none does. -/
theorem witness_fuses :
    ((ownedState (fuseOf 2 0 14)).boot.burnt.owners.getD 0 0 = 5 ∧
      (((ownedState (fuseOf 2 0 14)).boot.burnt.revoke ||| 14 % 16).testBit 0) = false ∧
      ((ownedState (fuseOf 3 0 1)).boot.burnt.revoke.testBit 0) = false ∧ asked (ownedState (fuseOf 2 0 14)) 3 0x21 (fuseOf 2 0 14) ∧
      asked (ownedState (fuseOf 3 0 1)) 3 0x21 (fuseOf 3 0 1)) ∧
    ((fmpState (fuseOf 3 0 1)).boot.burnt.owners = [0, 0, 0, 0] ∧ asked (fmpState (fuseOf 3 0 1)) 3 0x21 (fuseOf 3 0 1) ∧
      asked (fmpState (fuseOf 2 0 1)) 3 0x21 (fuseOf 2 0 1)) := by decide +kernel
theorem witness_EventsAndSoundings_due :
    (newsState 1).running = false ∧ (newsState 1).get .EMB_DRIFT_POLICY_ENABLE 0 = 0 ∧
    (newsState 1).get .EMB_DRIFT_POLICY_ENABLE 1 = 0 := by decide +kernel

/-! Command rings. -/

/-- Ring 2 at 0x5000 with 16 entries: its HEAD, TAIL and STATE, and what it does. -/
def ringState (tail st : Nat) (r : Ring) (us : List Upd := []) : State :=
  mk ([setF .FMP_RING_CFG_BASE 5 2, setF .FMP_RING_CFG_LOG2_ENTRIES 4 2, setF .FMP_RING_STATE_HEAD 7 2,
    setF .FMP_RING_STATE_TAIL tail 2, setF .FMP_RING_STATS_STATE st 2, setRing 2 r] ++ us)
def goodDesc : List Nat := [0, 0, 0, 0] ++ List.replicate 56 0 ++ leBytes 4 (crc32c (List.replicate 60 0))
/-- A descriptor of an opcode with its arguments. -/
def desc (op a b c : Nat) : List Nat := [op, 0, 0, 0] ++ leBytes 4 33 ++ leBytes 8 a ++ leBytes 8 b ++ leBytes 8 c ++ List.replicate 32 0
def holding (op a b c : Nat) (us : List Upd := []) : State := ringState 8 2 { stage := 3, desc := some (desc op a b c) } us
def begun (op a b c : Nat) (left : List (Nat × Nat)) (wait : Bool) : State :=
  ringState 8 2 { stage := 4, desc := some (desc op a b c), left := left, wait := wait } [setF .BEAT_COUNT_COUNT 60]

theorem witness_Doorbells :
    (let s := ringState 7 1 {};
      let i : Nat := 16;
      16 ≤ i ∨ s.get Fld.FMP_RING_STATS_STATE i = 0) ∧
    (let s := ringState 7 1 {};
      let i : Nat := 2;
      let tail : Nat := 6;
      let head := s.get Fld.FMP_RING_STATE_HEAD i;
      let want := tail % 2 ^ 32;
      i < 16 ∧ s.get Fld.FMP_RING_STATS_STATE i ≠ 0 ∧ serialBefore want head = true) ∧
    (let s := ringState 7 1 {};
      let i : Nat := 2;
      let tail : Nat := 9;
      let head := s.get Fld.FMP_RING_STATE_HEAD i;
      let want := tail % 2 ^ 32;
      let r := s.ringSt i;
      i < 16 ∧ s.get Fld.FMP_RING_STATS_STATE i ≠ 0 ∧ serialBefore want head = false ∧ r.stage = 0) ∧
    (let s := ringState 9 1 { stage := 2 };
      let i : Nat := 2;
      let tail : Nat := 9;
      let head := s.get Fld.FMP_RING_STATE_HEAD i;
      let want := tail % 2 ^ 32;
      let r := s.ringSt i;
      i < 16 ∧ s.get Fld.FMP_RING_STATS_STATE i ≠ 0 ∧ serialBefore want head = false ∧ r.stage ≠ 0) := by
  refine ⟨?_, ?_, ?_, ?_⟩ <;> decide +kernel
theorem witness_DescriptorChecks :
    (let s := ringState 9 2 {};
      let i : Nat := 16;
      let r := s.ringSt i;
      16 ≤ i ∨ r.stage ≠ 1) ∧
    (let s := ringState 9 2 { stage := 1, desc := some goodDesc };
      let i : Nat := 2;
      let r := s.ringSt i;
      16 ≤ i ∨ r.stage ≠ 2) ∧
    (let s := ringState 9 2 { stage := 2, tries := 7 };
      let i : Nat := 2;
      let r := s.ringSt i;
      i < 16 ∧ r.stage = 2 ∧ r.tries < 8) ∧
    (let s := ringState 9 2 { stage := 2, tries := 8, rung := true };
      let i : Nat := 2;
      let r := s.ringSt i;
      i < 16 ∧ r.stage = 2 ∧ 8 ≤ r.tries ∧ r.rung = true) ∧
    (let s := ringState 9 2 { stage := 2, tries := 8 } [setF .BEAT_STATUS_STATE 1];
      let i : Nat := 2;
      let r := s.ringSt i;
      i < 16 ∧ r.stage = 2 ∧ 8 ≤ r.tries ∧ r.rung = false) := by
  refine ⟨?_, ?_, ?_, ?_, ?_⟩ <;> decide +kernel
theorem witness_ShortRingCommands :
    (let s := holding 0 256 64 0;
      let i : Nat := 2;
      let b := desc 0 256 64 0;
      ringHolds s i 3 0 b) ∧
    (let s := holding 7 256 64 0;
      let i : Nat := 2;
      let b := desc 7 256 64 0;
      let op := 7;
      7 ≤ op ∧ ringHolds s i 3 op b) ∧
    (let s := holding 4 0 64 0;
      let i : Nat := 2;
      let beat := s.get Fld.BEAT_COUNT_COUNT;
      let b := desc 4 0 64 0;
      ringHolds s i 3 4 b ∧ ringArg b 0 8 ≤ beat) ∧
    (let s := holding 4 256 64 0;
      let i : Nat := 2;
      let beat := s.get Fld.BEAT_COUNT_COUNT;
      let b := desc 4 256 64 0;
      ringHolds s i 3 4 b ∧ beat < ringArg b 0 8) ∧
    (let s := holding 2 256 64 0;
      let i : Nat := 2;
      let b := desc 2 256 64 0;
      ringHolds s i 3 2 b) ∧
    (let s := holding 1 256 64 0;
      let i : Nat := 2;
      let b := desc 1 256 64 0;
      ringHolds s i 3 1 b) := by
  refine ⟨?_, ?_, ?_, ?_, ?_, ?_⟩ <;> decide +kernel
theorem witness_LongRingCommands :
    (let s := ringState 8 2 {};
      let i : Nat := 2;
      let r := s.ringSt i;
      16 ≤ i ∨ r.stage ≠ 4 ∨ r.wait = true) ∧
    (let s := holding 3 64 4091 0;
      let i : Nat := 2;
      let b := desc 3 64 4091 0;
      ringHolds s i 3 3 b ∧ 4090 < ringArg b 8 4) ∧
    (let s := holding 3 64 2 0;
      let i : Nat := 2;
      let beat := s.get Fld.BEAT_COUNT_COUNT;
      let b := desc 3 64 2 0;
      let late := ringArg b 16 8 ≠ 0 ∧ ringArg b 16 8 ≤ beat;
      ringHolds s i 3 3 b ∧ ringArg b 8 4 ≤ 4090 ∧ (ringArg b 16 8 = 0 ∨ late)) ∧
    (let s := holding 3 64 2 90;
      let i : Nat := 2;
      let beat := s.get Fld.BEAT_COUNT_COUNT;
      let b := desc 3 64 2 90;
      ringHolds s i 3 3 b ∧ ringArg b 8 4 ≤ 4090 ∧ beat < ringArg b 16 8) ∧
    (let s := begun 3 64 2 50 [(0x7c0028, 40)] true;
      let i : Nat := 2;
      let beat := s.get Fld.BEAT_COUNT_COUNT;
      let r := s.ringSt i;
      let open' := fun op b => ringHolds s i 4 op b ∧ r.wait = true ∧ waitBeat b ≤ beat;
      let b := desc 3 64 2 50;
      open' 3 b) ∧
    (let s := begun 4 50 0 0 [] true;
      let i : Nat := 2;
      let beat := s.get Fld.BEAT_COUNT_COUNT;
      let r := s.ringSt i;
      let open' := fun op b => ringHolds s i 4 op b ∧ r.wait = true ∧ waitBeat b ≤ beat;
      let b := desc 4 50 0 0;
      open' 4 b) ∧
    (let s := begun 6 256 64 9 [(0x7c0028, 40)] false;
      let i : Nat := 2;
      let r := s.ringSt i;
      let b := desc 6 256 64 9;
      let op := 6;
      ringHolds s i 4 op b ∧ r.wait = false) := by
  refine ⟨?_, ?_, ?_, ?_, ?_, ?_, ?_⟩ <;> decide +kernel
theorem witness_RingCopiesAndFills :
    (let s := holding 5 256 512 63;
      let i : Nat := 2;
      let b := desc 5 256 512 63;
      let n := ringArg b 16 8;
      ringHolds s i 3 5 b ∧ n % 64 ≠ 0) ∧
    (let s := holding 5 (2 ^ 60) 512 64;
      let i : Nat := 2;
      let b := desc 5 (2 ^ 60) 512 64;
      let a := ringArg b 0 8;
      let dst := ringArg b 8 8;
      let n := ringArg b 16 8;
      ringHolds s i 3 5 b ∧ n % 64 = 0 ∧ ¬(inMap a n = true ∧ inMap dst n = true)) ∧
    (let s := holding 5 256 512 64 [.unitErr 256 2];
      let i : Nat := 2;
      let b := desc 5 256 512 64;
      let a := ringArg b 0 8;
      let dst := ringArg b 8 8;
      let n := ringArg b 16 8;
      let l := (List.find? s.lineBad (linesOf a 64)).get!;
      ringHolds s i 3 5 b ∧
        n % 64 = 0 ∧
          inMap a n = true ∧
            inMap dst n = true ∧ List.find? s.lineBad (linesOf a 64) = some l ∧ 0 < n) ∧
    (let s := holding 6 256 65 9;
      let i : Nat := 2;
      let b := desc 6 256 65 9;
      let len := ringArg b 8 8;
      ringHolds s i 3 6 b ∧ len % 64 ≠ 0) ∧
    (let s := holding 6 (2 ^ 60) 64 9;
      let i : Nat := 2;
      let b := desc 6 (2 ^ 60) 64 9;
      let a := ringArg b 0 8;
      let len := ringArg b 8 8;
      ringHolds s i 3 6 b ∧ len % 64 = 0 ∧ inMap a len = false) ∧
    (let s := holding 6 256 64 9;
      let i : Nat := 2;
      let b := desc 6 256 64 9;
      let a := ringArg b 0 8;
      let len := ringArg b 8 8;
      ringHolds s i 3 6 b ∧ len % 64 = 0 ∧ inMap a len = true) := by
  refine ⟨?_, ?_, ?_, ?_, ?_, ?_⟩ <;> decide +kernel

theorem witness_DescriptorChecks_read :
    ((ringState 9 2 { stage := 1, desc := some goodDesc }).descOk 2 = true ∧
      ∃ b, ((ringState 9 2 { stage := 1, desc := some goodDesc }).ringSt 2).desc = some b) ∧
    ((ringState 9 2 { stage := 1 }).ringSt 2).stage = 1 ∧ ((ringState 9 2 { stage := 1 }).ringSt 2).desc = none :=
  ⟨⟨by decide +kernel, _, rfl⟩, by decide +kernel⟩
/-- A ring without a descriptor holds no command, and awaits no beat. -/
theorem witness_ring_empty : ((ringState 8 2 {}).ringSt 2).desc = none := by decide +kernel
theorem witness_ShortRingCommands_idle (stage op : Nat) (b : List Nat) : ¬ringHolds (ringState 8 2 {}) 2 stage op b :=
  fun h => absurd (h.2.1.symm.trans witness_ring_empty) (by simp)
theorem witness_RingCopiesAndFills_copies :
    ringHolds (holding 5 256 512 64) 2 3 5 (desc 5 256 512 64) ∧ ringArg (desc 5 256 512 64) 16 8 = 64 ∧ inMap 256 64 = true ∧
    inMap 512 64 = true ∧ (holding 5 256 512 64).unitErr = [] := by decide +kernel

end Sys2Proof.Tests
end

namespace Sys2Proof.Machine

/-! What a step can do, and that it keeps a sound state. -/

/-- Soundness speaks of memory, register fields and queues, not of the commands that wait. -/
theorem State.Inv.withPending {s : State} (h : s.Inv) (cs : List Instr) : ({ s with pending := cs } : State).Inv where
  memory := h.memory
  mapped := h.mapped
  fields := h.fields
  queues := h.queues

/-- With no command waiting, a step runs the plan of one clk. -/
theorem step_idle {s : State} (hp : s.pending = []) : step s = answer planTick s := by
  simp [step, hp]

/-- With a command in front, a step runs it with the rest waiting. -/
theorem step_front {s : State} {c : Instr} {cs : List Instr} (hp : s.pending = c :: cs) :
    step s = exec c { s with pending := cs } := by
  simp [step, hp]

/-- Whatever the queue holds, a step makes a run of updates on the state with the commands that then wait. -/
theorem step_runs_updates (s : State) :
    ∃ us : List Upd, step s = .next (({ s with pending := s.pending.tail } : State).run us) := by
  cases hp : s.pending with
  | nil =>
    have hs : ({ s with pending := [] } : State) = s := by rw [← hp]
    exact ⟨planTick s, by rw [step_idle hp, List.tail_nil, hs]; rfl⟩
  | cons c cs =>
    obtain ⟨us, hus⟩ := exec_next c { s with pending := cs }
    exact ⟨us, (step_front hp).trans hus⟩

/-- Settles O4: a step is a run of updates beside taking its command off the queue, and every update keeps the invariant. -/
theorem stepKeepsInvariant : Obligations.StepKeepsInvariant := by
  intro s t hs hstep
  obtain ⟨us, hus⟩ := step_runs_updates s
  obtain rfl := Host.Outcome.next.inj (hus.symm.trans hstep)
  exact State.run_inv us (hs.withPending _)

end Sys2Proof.Machine

namespace Sys2Proof.Machine

/-! Instructions of a ready sequencer: what an answer that completes leaves, for every opcode at once. -/

/-- A command that issues in a ready sequencer, and whose meaning is done having changed only the cells' part, completes:
it writes that part, counts, and moves on. -/
theorem completes_done {c : Instr} {s : State} {cell : Nat} (h : s.cellReady cell = true) {n m opc : Nat} {w : CellWord}
    {f : CellFn} {us : List Upd} {k : Nat} {g : Cells} (hx : exec c s = answer (issueN n m opc cell w f) s)
    (hf : f cell w s = .done us k) (hus : s.run us = { s with cells := g }) (ho : opc.blt 256 = true) :
    Completes c s (fun t => Issued s t cell opc n m k g ∧ Frame s t [.cells] (seqFields cell) []) :=
  ⟨_, hx, issue_done h hf hus (Nat.le_of_ble_eq_true ho)⟩

/-- Every opcode of the scalar table issues the operation the table gives it. -/
theorem exec_scalarTable {p : (Nat → CellWord → Instr) × Nat × (Nat → Nat → Nat)} (hp : p ∈ scalarTable) (cell : Nat)
    (w : CellWord) (s : State) :
    exec (p.1 cell w) s = answer (issue p.2.1 cell w (scalarBin p.2.2)) s ∧ p.2.1.blt 256 = true := by
  simp only [List.mem_cons, List.not_mem_nil, or_false] at hp
  rcases hp with rfl | rfl | rfl | rfl | rfl | rfl | rfl | rfl | rfl <;> exact ⟨rfl, rfl⟩

theorem scalarArithmetic : Claim.ScalarArithmetic := by
  intro p hp cell w s h
  obtain ⟨hx, ho⟩ := exec_scalarTable hp cell w s
  exact completes_done h hx rfl (setS_run ..) ho

theorem scalarMovesAndAddresses : Claim.ScalarMovesAndAddresses := by
  intro cell w s h
  exact ⟨completes_done h rfl rfl (setS_run ..) rfl, completes_done h rfl rfl (setS_run ..) rfl,
    completes_done h rfl rfl (setS_run ..) rfl, completes_done h rfl rfl (setS_run ..) rfl,
    completes_done h rfl rfl (setA_run ..) rfl, completes_done h rfl rfl (setA_run ..) rfl,
    completes_done h rfl rfl (setS_run ..) rfl⟩

theorem maskResults : Claim.MaskResults := by
  intro cell w s h
  exact ⟨completes_done h rfl rfl (setM_run ..) rfl, completes_done h rfl rfl (setM_run ..) rfl,
    completes_done h rfl rfl (setM_run ..) rfl, completes_done h rfl rfl (setM_run ..) rfl,
    completes_done h rfl rfl (setM_run ..) rfl, completes_done h rfl rfl (setS_run ..) rfl,
    completes_done h rfl rfl (setM_run ..) rfl, completes_done h rfl rfl (setS_run ..) rfl⟩

/-- Settles O6: each opcode of R133 and R146 writes one register of its file. -/
theorem scalarAndMaskResults : Obligations.ScalarAndMaskResults :=
  ⟨scalarArithmetic, scalarMovesAndAddresses, maskResults⟩

/-! Lanes: elements packed into a register and read back (R128), and lanes under a write mask (R129). -/

theorem bits_lt (v lo w : Nat) : bits v lo w < 2 ^ w := Nat.mod_lt _ (Nat.two_pow_pos w)

/-- A word keeps the bits of its number that lie within its width. -/
theorem bits_ofNat {n lo w : Nat} (v : Nat) (h : lo + w ≤ n) : bits (BitVec.ofNat n v).toNat lo w = bits v lo w := by
  apply Nat.eq_of_testBit_eq
  intro i
  simp only [bits, BitVec.toNat_ofNat, Nat.testBit_mod_two_pow, Nat.testBit_shiftRight]
  by_cases hi : i < w
  · simp [hi, show lo + i < n by omega]
  · simp [hi]

/-- An element read back from where it was packed. -/
theorem bits_pack (w : Nat) (xs : List Nat) (i : Nat) : bits (pack w xs) (w * i) w = xs.getD i 0 % 2 ^ w := by
  induction xs generalizing i with
  | nil => simp [pack, bits]
  | cons x xs ih =>
    cases i with
    | zero => simp [pack, bits]
    | succ i =>
      have hx : x % 2 ^ w < 2 ^ w := Nat.mod_lt _ (Nat.two_pow_pos w)
      rw [List.getD_cons_succ, ← ih i, bits, pack, Nat.mul_succ, Nat.add_comm (w * i), Nat.shiftRight_add,
        Nat.shiftRight_eq_div_pow _ w, Nat.add_mul_div_left _ _ (Nat.two_pow_pos w), Nat.div_eq_of_lt hx, Nat.zero_add, bits]

theorem getD_unpack (w v : Nat) {n i : Nat} (hi : i < n) : (unpack w n v).getD i 0 = bits v (w * i) w := by
  simp [unpack, hi]

/-- Lane `i` of a register that holds packed lanes. -/
theorem getD_unpack_pack (xs : List Nat) {i : Nat} (hi : i < 64) :
    (unpack 32 64 (BitVec.ofNat 2048 (pack 32 xs)).toNat).getD i 0 = xs.getD i 0 % 2 ^ 32 := by
  rw [getD_unpack _ _ hi, bits_ofNat _ (show 32 * i + 32 ≤ 2048 by omega), bits_pack]

/-- A lane under a write mask: the new value where the mask has its bit, and elsewhere 0 or the old one. -/
theorem getD_blend (m : Nat) (z : Bool) {old new : List Nat} {i : Nat} (ho : i < old.length) (hn : i < new.length) :
    (blend m z old new).getD i 0 = if m.testBit i then new.getD i 0 else if z then 0 else old.getD i 0 := by
  have hz : i < (old.zip new).length := by rw [List.length_zip]; omega
  have hb : (blend m z old new)[i]? =
      some (if m.testBit i then new[i] else if z then 0 else old[i]) := by
    simp only [blend, List.getElem?_map, List.getElem?_zipIdx, List.getElem?_eq_getElem hz, Option.map_some,
      List.getElem_zip, Nat.zero_add]
  simp only [List.getD_eq_getElem?_getD, hb, List.getElem?_eq_getElem ho, List.getElem?_eq_getElem hn, Option.getD_some]

@[simp] theorem State.length_lanes (s : State) (cell r : Nat) : (s.lanes cell r).length = 64 := by
  simp [State.lanes, unpack]

@[simp] theorem length_laneB (cell : Nat) (w : CellWord) (s : State) : (laneB cell w s).length = 64 := by
  rw [laneB, srcBC, if_neg Bool.false_ne_true]
  split
  · exact List.length_replicate
  · simp [unpack, fmtWidth]

theorem State.getD_lanes_lt (s : State) (cell r i : Nat) : (s.lanes cell r).getD i 0 < 2 ^ 32 := by
  by_cases hi : i < 64
  · rw [State.lanes, getD_unpack _ _ hi]
    exact bits_lt ..
  · simp [List.getD_eq_getElem?_getD, hi]

/-! Registers after a write (R127). -/

theorem Cells.get_putV (c : Cells) (cell r v j : Nat) :
    Sparse.get 0 (c.putV cell r v).v j =
      if j = cell * 64 + r % 64 then BitVec.ofNat 2048 v else Sparse.get 0 c.v j := Sparse.get_set ..

/-- A vector register after an instruction wrote one. -/
theorem Issued.vReg_putV {s t : State} {cell opc n m k r v : Nat} (h : Issued s t cell opc n m k (s.cells.putV cell r v))
    (c q : Nat) : t.vReg c q =
      if c * 64 + q % 64 = cell * 64 + r % 64 then (BitVec.ofNat 2048 v).toNat else s.vReg c q := by
  have hv : t.cells.v = (s.cells.putV cell r v).v := by rw [h.cells]; rfl
  rw [State.vReg, State.vReg, hv, Cells.get_putV, apply_ite BitVec.toNat]

/-- The lanes of the register that an instruction wrote. -/
theorem Issued.getD_lanes_putV {s t : State} {cell opc n m k r : Nat} {xs : List Nat}
    (h : Issued s t cell opc n m k (s.cells.putV cell r (pack 32 xs))) {i : Nat} (hi : i < 64) :
    (t.lanes cell r).getD i 0 = xs.getD i 0 % 2 ^ 32 := by
  rw [State.lanes, h.vReg_putV, if_pos rfl, getD_unpack_pack xs hi]

/-! Bitwise and lane-moving opcodes (R132). -/

theorem setLanes_run (s : State) (cell : Nat) (w : CellWord) (new : List Nat) :
    s.run (setLanes cell w new s) = { s with cells := s.cells.putV cell w.dst.toNat (maskedLanes cell w s new) } := rfl

/-- What each lane of a register holds after an opcode wrote its lanes under the write mask. -/
theorem Issued.getD_lanes_masked {s t : State} {cell opc n m k : Nat} {w : CellWord} {new : List Nat}
    (h : Issued s t cell opc n m k (s.cells.putV cell w.dst.toNat (maskedLanes cell w s new))) (hn : new.length = 64)
    {i : Nat} (hi : i < 64) : (t.lanes cell w.dst.toNat).getD i 0 =
      if (s.mReg cell w.msk.toNat).testBit i then new.getD i 0 % 2 ^ 32
      else if w.mmode then 0 else (s.lanes cell w.dst.toNat).getD i 0 := by
  rw [h.getD_lanes_putV hi, getD_blend _ _ (by simpa using hi) (by omega)]
  split
  · rfl
  · split
    · rfl
    · exact Nat.mod_eq_of_lt (s.getD_lanes_lt ..)

/-- Every opcode of the lane table issues the operation the table gives it. -/
theorem exec_laneTable {p : (Nat → CellWord → Instr) × Nat × (Nat → Nat → Nat)} (hp : p ∈ laneTable) (cell : Nat)
    (w : CellWord) (s : State) :
    exec (p.1 cell w) s = answer (issue p.2.1 cell w (vecBits p.2.2)) s ∧ p.2.1.blt 256 = true := by
  simp only [List.mem_cons, List.not_mem_nil, or_false] at hp
  rcases hp with rfl | rfl | rfl | rfl | rfl | rfl <;> exact ⟨rfl, rfl⟩

theorem bitwiseLanes : Claim.BitwiseLanes := by
  intro p hp cell w s h
  obtain ⟨hx, ho⟩ := exec_laneTable hp cell w s
  obtain ⟨t, ht, hi, hfr⟩ := completes_done h hx rfl (setLanes_run s cell w _) ho
  refine ⟨t, ht, fun i hi64 => ?_, fun c r hne => ?_, hi, hfr⟩
  · rw [hi.getD_lanes_masked (by simp) hi64]
    simp [List.getD_eq_getElem?_getD, hi64]
  · rw [hi.vReg_putV, if_neg hne]

theorem laneMoves : Claim.LaneMoves := by
  intro cell w s h
  refine ⟨completes_done h rfl rfl (setLanes_run ..) rfl, completes_done h rfl ?_ (setLanes_run ..) rfl,
    completes_done h rfl rfl (setLanes_run ..) rfl, completes_done h rfl rfl (setS_run ..) rfl,
    completes_done h rfl rfl (setV_run ..) rfl⟩
  cases hd : w.imm.toNat.testBit 6 <;> simp [opVlsh, laneShift, hd]

/-- Settles O8: a register written under the mask holds in each lane what `blend` gives it there. -/
theorem laneResults : Obligations.LaneResults := ⟨bitwiseLanes, laneMoves⟩

/-! Opcodes that the sequencer expands (R147 to R150). -/

theorem setV_setS_run (s : State) (cell r v q x : Nat) :
    s.run (setV cell r v ++ setS cell q x) = { s with cells := (s.cells.putV cell r v).putS cell q x } := by
  rw [State.run_append, setV_run, setS_run]

/-- SCAN and SEGSCAN: the carry comes in from S[SC], unless that is S0. -/
theorem opScan_done (seg : Bool) (cell : Nat) (w : CellWord) (s : State) :
    let v := scanLanes (w.im 0 2) (if seg then some (s.mReg cell w.sb.toNat) else none)
      (if w.sc.toNat % 32 = 0 then none else some (s.sReg cell w.sc.toNat % 2 ^ 32)) (s.lanes cell w.sa.toNat)
    opScan seg cell w s = .done (setV cell w.dst.toNat (pack 32 v) ++ setS cell w.sc.toNat (v.getD 63 0)) := by
  simp [opScan]

/-- MXENC: a format without a Microscaling encoding and a part beyond the range are replaced, each counted (R130). -/
theorem opMxenc_done (cell : Nat) (w : CellWord) (s : State) :
    let legal := [4, 5, 6, 7, 8].contains w.fmt.toNat
    let f := if legal then w.fmt.toNat else 4
    let xs := (s.lanes cell w.sa.toNat).map fdec
    let lo := mxEncode f (xs.take 32)
    let hi := mxEncode f (xs.drop 32)
    let part := legalPart (w.im 0 3) (fmtWidth f)
    opMxenc cell w s = .done (setV cell w.dst.toNat
        (writePart (s.vReg cell w.dst.toNat) (fmtWidth f) part.1 (2 ^ 64 - 1) false (lo.2 ++ hi.2)) ++
      setS cell w.sc.toNat (lo.1 + 256 * hi.1)) ((if legal then 0 else 1) + part.2) := by
  cases hl : [4, 5, 6, 7, 8].contains w.fmt.toNat <;> simp only [opMxenc, hl] <;> rfl

/-- Settles O9: each opcode issues one expansion, whose updates are the writes of its results. -/
theorem macroOperations : Obligations.MacroOperations := by
  intro cell w s h
  exact ⟨completes_done h rfl (opScan_done false cell w s) (setV_setS_run ..) rfl,
    completes_done h rfl (opScan_done true cell w s) (setV_setS_run ..) rfl,
    completes_done h rfl rfl (setV_run ..) rfl, completes_done h rfl rfl (setV_run ..) rfl,
    completes_done h rfl rfl (setV_run ..) rfl, completes_done h rfl rfl (setV_run ..) rfl,
    completes_done h rfl rfl (by rw [State.run_append, setV_run, setV_run]) rfl,
    completes_done h rfl (opMxenc_done cell w s) (setV_setS_run ..) rfl⟩

/-! What an instruction that completes does beside its own updates: it counts and, unless it moved the PC itself, falls
through (R137, R144). -/

/-- An update that a sequencer makes of itself: one of the register fields of every instruction, or the cells' part. -/
def Upd.sequences (cell : Nat) : Upd → Prop
  | .reg f i _ => (f, i) ∈ seqFields cell
  | .cells _ => True
  | _ => False

theorem Frame.refl (s : State) (ps : List Part) (fs : List (Fld × Nat)) (vs : List (Var × Nat)) : Frame s s ps fs vs :=
  ⟨fun p _ => by cases p <;> rfl, fun _ _ _ => rfl, fun _ _ _ => rfl⟩

/-- What a sequencer does of itself stays within a frame that allows the cells' part and its fields. -/
theorem Frame.apply_sequences {s t : State} {cell : Nat} {ps : List Part} {fs : List (Fld × Nat)} {vs : List (Var × Nat)}
    (hp : .cells ∈ ps) (hs : ∀ x ∈ seqFields cell, x ∈ fs) {u : Upd} (hu : u.sequences cell) (h : Frame s t ps fs vs) :
    Frame s (t.apply u) ps fs vs := by
  obtain ⟨hparts, hfields, hvars⟩ := h
  cases u with
  | reg f i v =>
    refine ⟨fun p hpn => by cases p <;> exact hparts _ hpn, fun g j hg => ?_, hvars⟩
    rw [State.apply_reg_get, if_neg, hfields g j hg]
    rintro ⟨rfl, rfl⟩
    exact hg (hs _ hu)
  | cells f =>
    refine ⟨fun p hpn => ?_, hfields, hvars⟩
    cases p with
    | cells => exact absurd hp hpn
    | _ => exact hparts _ hpn
  | _ => exact hu.elim

theorem Frame.run_sequences {s t : State} {cell : Nat} {ps : List Part} {fs : List (Fld × Nat)} {vs : List (Var × Nat)}
    (hp : .cells ∈ ps) (hs : ∀ x ∈ seqFields cell, x ∈ fs) {us : List Upd} (hus : ∀ u ∈ us, u.sequences cell)
    (h : Frame s t ps fs vs) : Frame s (t.run us) ps fs vs :=
  t.run_keeps (Frame s · ps fs vs) us (fun _ u hu => Frame.apply_sequences hp hs (hus u hu)) h

/-- The updates that follow those of an instruction's meaning. -/
def countAndMove (opc cell n m k : Nat) (seq : Bool) (s : State) : List Upd :=
  [s.addF .CELL_SEQ_ISSUED_COUNT n cell, s.addF .CELL_SEQ_ISSUED_MACROS m cell] ++
  (if k = 0 then [] else [s.addF .CELL_SEQ_CLAMP_COUNT k cell, setF .CELL_SEQ_CLAMP_LAST_OPCODE opc cell]) ++
  (if seq then fallTo cell (s.get .CELL_SEQ_STATUS_PC cell + 1) (s.loopsOf cell) s else [])

section Ready

variable {s : State} {cell : Nat} (h : s.cellReady cell = true)
include h

/-- A ready sequencer falls through without a trap. -/
theorem fallTo_ready : fallTo cell (s.get .CELL_SEQ_STATUS_PC cell + 1) (s.loopsOf cell) s =
    setF .CELL_SEQ_STATUS_PC (settle (s.get .CELL_SEQ_STATUS_PC cell + 1) (s.loopsOf cell)).1 cell ::
      setLoops cell (settle (s.get .CELL_SEQ_STATUS_PC cell + 1) (s.loopsOf cell)).2 := by
  simp [fallTo, (cellReady_iff.mp h).2.2.2]

theorem countAndMove_sequences (opc n m k : Nat) (seq : Bool) :
    ∀ u ∈ countAndMove opc cell n m k seq s, u.sequences cell := by
  rw [countAndMove, fallTo_ready h]
  split <;> cases seq <;> simp [State.addF, setF, setLoops, Upd.sequences, seqFields]

variable {n m opc k : Nat} {w : CellWord} {f : CellFn} {us : List Upd}

/-- An instruction that completes runs its own updates, then counts and moves on. -/
theorem run_issueN_done {seq : Bool} (hf : f cell w s = .done us k seq) :
    s.run (issueN n m opc cell w f s) = (s.run us).run (countAndMove opc cell n m k seq s) := by
  rw [issueN_ready h, hf, ← State.run_append]
  simp [retireOp, countAndMove]

/-- An instruction that completes changes what its own updates change, the cells' part and the sequencer's fields. -/
theorem frame_of_done {seq : Bool} {ps : List Part} {fs : List (Fld × Nat)} {vs : List (Var × Nat)}
    (hf : f cell w s = .done us k seq) (hfr : Frame s (s.run us) ps fs vs)
    (hp : .cells ∈ ps) (hs : ∀ x ∈ seqFields cell, x ∈ fs) :
    Frame s (s.run (issueN n m opc cell w f s)) ps fs vs := by
  rw [run_issueN_done h hf]
  exact hfr.run_sequences hp hs (countAndMove_sequences h _ _ _ _ _)

/-- An instruction whose own updates leave the sequencer's fields alone counts, moves on, and has of the cells' part what
they gave it. -/
theorem issued_of_done {g : Cells} (hf : f cell w s = .done us k) (hg : (s.run us).cells = g)
    (hk : ∀ x ∈ seqFields cell, (s.run us).get x.1 x.2 = s.get x.1 x.2) (ho : opc.blt 256 = true) :
    Issued s (s.run (issueN n m opc cell w f s)) cell opc n m k g := by
  have hc := hk (.CELL_SEQ_CLAMP_COUNT, cell) (by simp [seqFields])
  have hl := hk (.CELL_SEQ_CLAMP_LAST_OPCODE, cell) (by simp [seqFields])
  have hpc := (cellReady_iff.mp h).2.2.2
  rw [run_issueN_done h hf, countAndMove, fallTo_ready h]
  refine ⟨?_, ?_, ?_, ?_, ?_, ?_⟩ <;> split <;> simp [State.addF, setF, setLoops, Cells.putLoops, hg, hc, hl]
  · exact Nat.mod_eq_of_lt hpc
  · exact Nat.mod_eq_of_lt hpc
  iterate 5
    · exact Nat.mod_eq_of_lt (satAdd_lt ..)
  · exact Nat.mod_eq_of_lt (Nat.le_of_ble_eq_true ho)

/-- An instruction that moves the PC itself and gives the cell a loop stack. -/
theorem completes_moved {c : Instr} {pc : Nat} {ls : List Loop} (hx : exec c s = answer (issueN n m opc cell w f) s)
    (hf : f cell w s = .done (setF .CELL_SEQ_STATUS_PC pc cell :: setLoops cell ls) k false) (hpc : pc < 32768) :
    Completes c s (fun t => t.get .CELL_SEQ_STATUS_PC cell = pc ∧ t.cells = s.cells.putLoops cell ls ∧
      Frame s t [.cells] (seqFields cell) []) := by
  refine ⟨_, hx, ?_, ?_, frame_of_done h hf ?_ (by simp) fun _ hx => hx⟩
  · rw [run_issueN_done h hf, countAndMove]
    split <;> simp [State.addF, setF, setLoops] <;> exact Nat.mod_eq_of_lt hpc
  · rw [run_issueN_done h hf, countAndMove]
    split <;> simp [State.addF, setF, setLoops, Cells.putLoops]
  · exact (Frame.refl s _ _ _).run_sequences (by simp) (fun _ hx => hx)
      (by simp [setLoops, setF, Upd.sequences, seqFields])

/-! Control flow (R144, R145). -/

/-- A branch whose target lies within the program takes it. -/
theorem completes_jump {c : Instr} {target : Int} (hx : exec c s = answer (issueN n m opc cell w f) s)
    (hf : f cell w s = jumpTo cell target k s) (h0 : 0 ≤ target)
    (hlen : target < (s.get .CELL_SEQ_PROG_LENGTH cell : Int)) (hmax : target < 32768) :
    Completes c s (fun t => t.get .CELL_SEQ_STATUS_PC cell = target.toNat ∧
      t.cells = s.cells.putLoops cell (keepLoops target.toNat (s.loopsOf cell)) ∧
      Frame s t [.cells] (seqFields cell) []) := by
  have hj : ¬(target < 0 ∨ target ≥ (s.get .CELL_SEQ_PROG_LENGTH cell : Int)) := by omega
  rw [jumpTo, if_neg hj] at hf
  exact completes_moved h hx hf (by omega)

/-- An instruction with nothing of its own to do falls through. -/
theorem completes_falls {c : Instr} (hx : exec c s = answer (issueN n m opc cell w f) s) (hf : f cell w s = .done [] k)
    (ho : opc.blt 256 = true) :
    Completes c s (fun t => Issued s t cell opc n m k s.cells ∧ Frame s t [.cells] (seqFields cell) []) :=
  completes_done h hx hf rfl ho

end Ready

theorem legalCode_lt (c d : Nat) {limit : Nat} (h : d < limit) : (legalCode c limit d).1 < limit := by
  unfold legalCode; split <;> assumption

/-- BRC's condition on S[SA]. -/
theorem opBrc_eq (cell : Nat) (w : CellWord) (s : State) :
    let v := s.sReg cell w.sa.toNat
    let cond := (legalCode (w.im 19 4) 4 0).1
    opBrc cell w s =
      if (cond = 0 ∧ v = 0) ∨ (cond = 1 ∧ v ≠ 0) ∨ (cond = 2 ∧ sext 64 v < 0) ∨ (cond = 3 ∧ 0 ≤ sext 64 v) then
        jumpTo cell (s.pcInt cell + w.simm 19) (legalCode (w.im 19 4) 4 0).2 s
      else .done [] (legalCode (w.im 19 4) 4 0).2 := by
  have hc : (legalCode (w.im 19 4) 4 0).1 < 4 := legalCode_lt _ _ (by omega)
  simp only [opBrc]
  generalize (legalCode (w.im 19 4) 4 0).1 = cond at hc ⊢
  match cond, hc with
  | 0, _ | 1, _ | 2, _ | 3, _ => simp

/-- BRM's condition on M[SA]. -/
theorem opBrm_eq (cell : Nat) (w : CellWord) (s : State) :
    let m := s.mReg cell w.sa.toNat
    opBrm cell w s =
      if (w.im 21 2 = 0 ∧ m ≠ 0) ∨ (w.im 21 2 = 1 ∧ m = 0) ∨ (w.im 21 2 = 2 ∧ m = 2 ^ 64 - 1) ∨
          (w.im 21 2 = 3 ∧ m ≠ 2 ^ 64 - 1) then
        jumpTo cell (s.pcInt cell + w.simm 21) 0 s
      else .done [] := by
  have hc : w.im 21 2 < 4 := bits_lt _ _ 2
  simp only [opBrm]
  generalize w.im 21 2 = cond at hc ⊢
  match cond, hc with
  | 0, _ | 1, _ | 2, _ | 3, _ => simp [mask64]

/-- LOOP of a count other than 0 with room on the loop stack. -/
theorem opLoop_done {cell : Nat} {w : CellWord} {s : State} {body n : Nat}
    (hb : body = if w.im 0 12 = 0 then 1 else w.im 0 12)
    (hn : n = if w.sa.toNat % 32 = 0 then w.im 12 11 else s.sReg cell w.sa.toNat) (h0 : n ≠ 0)
    (hl : (s.loopsOf cell).length < 4) :
    opLoop cell w s = .done (setF .CELL_SEQ_STATUS_PC (s.get .CELL_SEQ_STATUS_PC cell + 1) cell ::
      setLoops cell (⟨body, n, s.get .CELL_SEQ_STATUS_PC cell + 1, 0⟩ :: s.loopsOf cell))
        (if w.im 0 12 = 0 then 1 else 0) false := by
  subst hb hn
  simp only [opLoop, if_neg (Nat.not_le.mpr hl), if_neg h0]
  split <;> rfl

/-- Settles O14: a branch is a jump or a fall-through by its condition, and LOOP moves to its body's start. -/
theorem controlFlow : Obligations.ControlFlow := by
  intro cell w s h
  refine ⟨completes_falls h rfl rfl rfl,
    fun hf => completes_falls h rfl (by simp [opFence, hf]) rfl,
    fun hp => completes_falls h rfl (if_pos hp) rfl,
    completes_jump h rfl rfl,
    fun ht => completes_jump h rfl ((opBrc_eq cell w s).trans (if_pos ht)),
    fun ht => completes_falls h rfl ((opBrc_eq cell w s).trans (if_neg ht)) rfl,
    fun ht => completes_jump h rfl ((opBrm_eq cell w s).trans (if_pos ht)),
    fun ht => completes_falls h rfl ((opBrm_eq cell w s).trans (if_neg ht)) rfl,
    fun h0 hl hpc => completes_moved h rfl (opLoop_done rfl rfl h0 hl) hpc⟩

/-! Reports of errors that an access meets (R141, R412 to R418, R429): what they touch. -/

/-- The register fields in which errors of an access are counted and reported. -/
def reportFields : List Fld :=
  [.ERR_STORE_LAST_ADDR, .ERR_STORE_LAST_OUTCOME, .ERR_STORE_COUNT_CE, .ERR_STORE_COUNT_UE, .ERR_STORE_COUNT_POISON,
   .ERR_EVLOG_HEAD_HEAD, .ERR_EVLOG_HEAD_SUPPRESSED, .ERR_STATUS_EVLOG_WRAPPED, .CELL_SEQ_FLAGS_LOAD_UE,
   .CELL_SEQ_FLAGS_UE_COUNT]

/-- An update that reports an error. -/
def Upd.reports : Upd → Prop
  | .reg f _ _ => f ∈ reportFields
  | .logs _ => True
  | _ => False

@[simp] theorem reports_setF (f : Fld) (v i : Nat) : (setF f v i).reports ↔ f ∈ reportFields := Iff.rfl
@[simp] theorem reports_addF (s : State) (f : Fld) (n i : Nat) : (s.addF f n i).reports ↔ f ∈ reportFields := Iff.rfl
@[simp] theorem reports_logs (f : Logs → Logs) : (Upd.logs f).reports := trivial

theorem seqFields_not_report {cell : Nat} {x : Fld × Nat} (hx : x ∈ seqFields cell) : x.1 ∉ reportFields := by
  simp only [seqFields, List.mem_cons, List.not_mem_nil, or_false] at hx
  rcases hx with rfl | rfl | rfl | rfl | rfl | rfl <;> simp [reportFields]

/-- A state that differs from another only in reports, and in memory. -/
structure Reported (s t : State) : Prop where
  cells  : t.cells = s.cells
  fields : ∀ f i, f ∉ reportFields → t.get f i = s.get f i

theorem Reported.trans {s t u : State} (h : Reported s t) (h' : Reported t u) : Reported s u :=
  ⟨h'.cells.trans h.cells, fun f i hf => (h'.fields f i hf).trans (h.fields f i hf)⟩

theorem Reported.apply {t : State} {u : Upd} (hu : u.reports) : Reported t (t.apply u) ∧ (t.apply u).mem = t.mem := by
  cases u with
  | reg f i v =>
    refine ⟨⟨rfl, fun g j hg => ?_⟩, rfl⟩
    rw [State.apply_reg_get, if_neg]
    rintro ⟨rfl, -⟩
    exact hg hu
  | logs f => exact ⟨⟨rfl, fun _ _ _ => rfl⟩, rfl⟩
  | _ => exact hu.elim

/-- A run of reports leaves the cells, memory and every other field. -/
theorem Reported.run {us : List Upd} (h : ∀ u ∈ us, u.reports) (s : State) :
    Reported s (s.run us) ∧ (s.run us).mem = s.mem := by
  refine s.run_keeps (fun t => Reported s t ∧ t.mem = s.mem) us (fun t u hu ht => ?_) ⟨⟨rfl, fun _ _ _ => rfl⟩, rfl⟩
  obtain ⟨hr, hm⟩ := Reported.apply (t := t) (h u hu)
  exact ⟨ht.1.trans hr, hm.trans ht.2⟩

/-- What every update of some plans is, whatever state each plan meets. -/
theorem forall_mem_plans {P : Upd → Prop} {ps : List Plan} (h : ∀ p ∈ ps, ∀ s, ∀ u ∈ p s, P u) (s : State) :
    ∀ u ∈ plans ps s, P u := by
  induction ps generalizing s with
  | nil => simp
  | cons p ps ih =>
    intro u hu
    rw [plans_cons, List.mem_append] at hu
    rcases hu with hu | hu
    · exact h p (by simp) s u hu
    · exact ih (fun q hq => h q (by simp [hq])) _ u hu

theorem forall_mem_planEach {α : Type} {P : Upd → Prop} {xs : List α} {p : α → Plan}
    (h : ∀ x ∈ xs, ∀ s, ∀ u ∈ p x s, P u) (s : State) : ∀ u ∈ planEach xs p s, P u :=
  forall_mem_plans (by simpa using h) s

theorem planEach_nil_of {α : Type} {xs : List α} {p : α → Plan} {s : State} (h : ∀ x ∈ xs, p x s = []) :
    planEach xs p s = [] := by
  induction xs with
  | nil => rfl
  | cons x xs ih =>
    have hx := h x (by simp)
    have hxs := ih (fun y hy => h y (by simp [hy]))
    rw [planEach] at hxs ⊢
    rw [List.map_cons, plans_cons, hx, State.run_nil, hxs, List.append_nil]

theorem postNow_reports (e : Event) (s : State) : ∀ u ∈ postNow e s, u.reports := by
  simp only [postNow]
  split
  · split <;> simp [reportFields]
  · simp [reportFields]

theorem postEvent_reports (code unit store index d0 d1 : Nat) (s : State) :
    ∀ u ∈ postEvent code unit store index d0 d1 s, u.reports := by
  intro u hu
  rw [postEvent, List.mem_append] at hu
  rcases hu with hu | hu
  · split at hu <;> simp at hu
    simp [hu]
  · split at hu
    · simp at hu
      simp [hu]
    · rw [List.mem_append] at hu
      rcases hu with hu | hu
      · split at hu <;> simp at hu
        simp [hu]
      · exact postNow_reports _ _ u hu

theorem noteRead_reports (cls a : Nat) (s : State) : ∀ u ∈ noteRead cls a s, u.reports := by
  simp only [noteRead]
  split
  · simp
  · split
    · simp [reportFields]
    · intro u hu
      rw [List.mem_append] at hu
      rcases hu with hu | hu
      · revert u
        split <;> simp [reportFields]
      · exact postEvent_reports _ _ _ _ _ _ s u hu

theorem noteLoads_reports (cell : Nat) (lines : List Nat) (s : State) : ∀ u ∈ noteLoads cell lines s, u.reports := by
  refine forall_mem_planEach (fun a _ t => forall_mem_plans (fun p hp t u hu => ?_) t) s
  rw [List.mem_cons, List.mem_singleton] at hp
  rcases hp with rfl | rfl
  · exact noteRead_reports _ _ _ u hu
  · revert u
    dsimp only
    split <;> simp [reportFields]

/-! Where no error stands in memory, nothing is reported. -/

theorem lineOutcome_clean {s : State} (h : s.unitErr = []) (a : Nat) : s.lineOutcome a = 0 := by simp [State.lineOutcome, h]

theorem noteLoads_clean {s : State} (h : s.unitErr = []) (cell : Nat) (lines : List Nat) : noteLoads cell lines s = [] :=
  planEach_nil_of fun a _ => by
    simp [plans_cons, noteRead, State.lineBad, lineOutcome_clean h]

/-! Loads (R139 to R141, R492). -/

theorem firstBeyond_none {o n : Nat} (h : o + n ≤ 0x180000) : firstBeyond o n = none := if_pos h

/-- Where every active lane lies inside the Tarn, no lane has a byte beyond it. -/
theorem findSome_firstBeyond {cell : Nat} {w : CellWord} {s : State} {offs : List Nat}
    (h : lanesInside cell w s offs = true) :
    (activeLanes (s.mReg cell w.msk.toNat) offs).findSome? (fun p => firstBeyond p.2 4) = none := by
  rw [List.findSome?_eq_none_iff]
  intro p hp
  simp only [lanesInside, laneRuns, List.all_map, List.all_eq_true] at h
  exact firstBeyond_none (of_decide_eq_true (h p hp))

/-- A load of lanes inside the Tarn that no stream holds: it writes the lanes and reports the lines it read. -/
theorem loadLanes_done {offs : CellWord → Nat → State → List Nat} {cell : Nat} {w : CellWord} {s : State}
    (hin : lanesInside cell w s (offs w cell s) = true)
    (hst : s.streamsHeld cell (laneRuns cell w s (offs w cell s)) = 0) :
    loadLanes offs cell w s = .done (setLanes cell w ((offs w cell s).map (s.laneAt cell)) s ++
      noteLoads cell (tarnLines cell (laneRuns cell w s (offs w cell s))) s) := by
  have hst' : s.streamsHeld cell ((activeLanes (s.mReg cell w.msk.toNat) (offs w cell s)).map (fun p => (p.2, 4))) = 0 := hst
  simp only [loadLanes, findSome_firstBeyond hin, hst', ne_eq, not_true_eq_false, if_false]
  rfl

theorem opSld_done {cell : Nat} {w : CellWord} {s : State} (hin : effAddr cell w 8 s + 8 ≤ 0x180000)
    (hst : s.streamsHeld cell [(effAddr cell w 8 s, 8)] = 0) :
    opSld cell w s = .done (setS cell w.dst.toNat (if s.lineBad (cellTarn cell (effAddr cell w 8 s)) then 0x7FC000007FC00000
        else s.leAt (cellTarn cell (effAddr cell w 8 s)) 8) ++
      noteLoads cell (tarnLines cell [(effAddr cell w 8 s, 8)]) s) := by
  simp only [opSld, firstBeyond_none hin, hst, ne_eq, not_true_eq_false, if_false]
  rfl

section Ready

variable {s : State} {cell : Nat} (h : s.cellReady cell = true)
include h

variable {n m opc k : Nat} {w : CellWord} {f : CellFn} {us : List Upd}

/-- An instruction whose own updates differ from its state only in reports and memory, beside a part of the cells', counts
and moves on; memory is as they leave it. -/
theorem issued_of_reported {g : Cells} (hf : f cell w s = .done us k) (hr : Reported { s with cells := g } (s.run us))
    (ho : opc.blt 256 = true) :
    Issued s (s.run (issueN n m opc cell w f s)) cell opc n m k g ∧
      (s.run (issueN n m opc cell w f s)).mem = (s.run us).mem := by
  refine ⟨issued_of_done h hf hr.cells (fun x hx => hr.fields _ _ (seqFields_not_report hx)) ho, ?_⟩
  rw [run_issueN_done h hf]
  exact ((Frame.refl (s.run us) [.cells] (seqFields cell) []).run_sequences (by simp) (fun _ hx => hx)
    (countAndMove_sequences h _ _ _ _ _)).parts .mem (by simp)

/-- A load completes: it writes its register, and reports what its lines gave. -/
theorem completes_load {c : Instr} {g : Cells} {lines : List Nat} (hx : exec c s = answer (issueN n m opc cell w f) s)
    (hf : f cell w s = .done (us ++ noteLoads cell lines s)) (hus : s.run us = { s with cells := g })
    (ho : opc.blt 256 = true) :
    Completes c s (fun t => Issued s t cell opc n m 0 g ∧ t.mem = s.mem ∧
      (s.unitErr = [] → Frame s t [.cells] (seqFields cell) [])) := by
  obtain ⟨hr, hm⟩ := Reported.run (noteLoads_reports cell lines s) { s with cells := g }
  rw [← hus, ← State.run_append] at hm
  have hi := issued_of_reported (n := n) (m := m) (opc := opc) h hf (by rwa [State.run_append, hus]) ho
  refine ⟨_, hx, hi.1, hi.2.trans (hm.trans (by rw [hus])), fun hc => ?_⟩
  rw [noteLoads_clean hc, List.append_nil] at hf
  exact (issue_done h hf hus (Nat.le_of_ble_eq_true ho)).2

end Ready

theorem loadsReadTheTarn : Claim.LoadsReadTheTarn := fun _ _ _ h =>
  ⟨fun hin hst => completes_load h rfl (loadLanes_done hin hst) (setLanes_run ..) rfl,
    fun hin hst => completes_load h rfl (loadLanes_done (offs := fun w c s => gatherAddrs c w s) hin hst)
      (setLanes_run ..) rfl,
    fun hin hst => completes_load h rfl (opSld_done hin hst) (setS_run ..) rfl⟩

/-! Memory after a cell's store (R72, R139, R413). -/

/-- A cell's Tarn lies outside the interleaved part of the map: its addresses are stored as they are. -/
theorem canonDpa_cellTarn (cell o : Nat) : canonDpa (cellTarn cell o) = cellTarn cell o := by
  unfold canonDpa cellTarn
  rw [if_neg (by omega)]

theorem cellTarn_add (cell o i : Nat) : cellTarn cell o + i = cellTarn cell (o + i) := Nat.add_assoc ..

/-- A byte reads as what memory holds at its stored address. -/
theorem State.byteAt_congr {s t : State} {b : Nat}
    (h : Sparse.get 0#8 t.mem (canonDpa b) = Sparse.get 0#8 s.mem (canonDpa b)) : t.byteAt b = s.byteAt b := by
  rw [State.byteAt, State.byteAt, h]

/-- A run of bytes whose addresses are stored as they are reads back as it was written. -/
theorem putBytes_get (m : List Host.Cell) (a : Nat) (bs : List Nat) (ha : ∀ i, canonDpa (a + i) = a + i) {i : Nat}
    (hi : i < bs.length) (hp : populated (a + i) = true) :
    Sparse.get 0#8 (putBytes m a bs) (a + i) = BitVec.ofNat 8 (bs.getD i 0) := by
  induction bs generalizing m a i with
  | nil => simp at hi
  | cons b bs ih =>
    have ha' : ∀ j, canonDpa (a + 1 + j) = a + 1 + j := fun j => by simpa [Nat.add_assoc] using ha (1 + j)
    cases i with
    | zero =>
      rw [Nat.add_zero] at hp ⊢
      have h0 : canonDpa a = a := ha 0
      rw [putBytes, putBytes_other _ _ _ _ (fun j _ => by rw [ha' j]; omega), putByte_get, if_pos ⟨hp, h0.symm⟩]
      rfl
    | succ i =>
      rw [show a + (i + 1) = a + 1 + i by omega] at hp ⊢
      rw [putBytes, ih _ _ ha' (by simpa using hi) hp, List.getD_cons_succ]

/-- A state whose memory is another's with bytes put into a cell's Tarn holds them there, and every other byte as it was. -/
theorem wrote_of_mem {s t : State} {cell o : Nat} {bs : List Nat} (h : t.mem = putBytes s.mem (cellTarn cell o) bs) :
    Wrote s t (cellTarn cell o) bs := by
  have hcan : ∀ i, canonDpa (cellTarn cell o + i) = cellTarn cell o + i := fun i => by
    rw [cellTarn_add, canonDpa_cellTarn]
  refine ⟨fun i hi hp => ?_, fun b hb => State.byteAt_congr (by rw [h, putBytes_other _ _ _ _ hb])⟩
  rw [State.byteAt, if_pos hp, hcan, h, putBytes_get _ _ _ hcan hi hp, BitVec.toNat_ofNat]

/-- A store's updates lead from one state to another: memory is then as given, and beside it only reports have changed,
none of them where memory had no error. -/
structure Stored (s t : State) (m : List Host.Cell) : Prop where
  mem      : t.mem = m
  reported : Reported s t
  clean    : s.unitErr = [] → Frame s t [.mem] [] []

theorem Frame.trans {s t u : State} {ps : List Part} {fs : List (Fld × Nat)} {vs : List (Var × Nat)}
    (h : Frame s t ps fs vs) (h' : Frame t u ps fs vs) : Frame s u ps fs vs :=
  ⟨fun p hp => by have a := h.parts p hp; have b := h'.parts p hp; cases p <;> exact b.trans a,
    fun f i hf => (h'.fields f i hf).trans (h.fields f i hf), fun v i hv => (h'.vars v i hv).trans (h.vars v i hv)⟩

theorem Frame.mono {s t : State} {ps ps' : List Part} {fs fs' : List (Fld × Nat)} {vs vs' : List (Var × Nat)}
    (h : Frame s t ps fs vs) (hp : ∀ p ∈ ps, p ∈ ps') (hf : ∀ x ∈ fs, x ∈ fs') (hv : ∀ x ∈ vs, x ∈ vs') :
    Frame s t ps' fs' vs' :=
  ⟨fun p hn => h.parts p (fun hm => hn (hp p hm)), fun f i hn => h.fields f i (fun hm => hn (hf _ hm)),
    fun v i hn => h.vars v i (fun hm => hn (hv _ hm))⟩

theorem Stored.refl (s : State) : Stored s s s.mem :=
  ⟨rfl, ⟨rfl, fun _ _ _ => rfl⟩, fun _ => Frame.refl ..⟩

theorem Stored.trans {s t u : State} {m n : List Host.Cell} (h : Stored s t m) (h' : Stored t u n) : Stored s u n :=
  ⟨h'.mem, h.reported.trans h'.reported, fun hc =>
    (h.clean hc).trans (h'.clean (((h.clean hc).parts .unitErr (by simp)).trans hc))⟩

/-- Bytes written to memory without errors touch nothing else. -/
theorem Frame.apply_bytes {s : State} (hc : s.unitErr = []) (a : Nat) (bs : List Nat) :
    Frame s (s.apply (.bytes a bs)) [.mem] [] [] := by
  refine ⟨fun p hp => ?_, fun _ _ _ => rfl, fun _ _ _ => rfl⟩
  cases p with
  | mem => simp at hp
  | unitErr => simp [State.same, State.apply, errAfterWrite, hc]
  | _ => rfl

/-- A write to a cell's Tarn, with the poisoned writes that it counts. -/
theorem writeMem_stored (s : State) (cell o : Nat) (bs : List Nat) :
    Stored s (s.run (writeMem (cellTarn cell o) bs s)) (putBytes s.mem (cellTarn cell o) bs) := by
  rw [writeMem, if_pos (canonDpa_cellTarn cell o)]
  obtain ⟨us, hus, hr, hc⟩ : ∃ us, writeRun (cellTarn cell o) bs s = .bytes (cellTarn cell o) bs :: us ∧
      (∀ u ∈ us, u.reports) ∧ (s.unitErr = [] → us = []) :=
    ⟨_, rfl, forall_mem_planEach (fun _ _ _ => by simp [reportFields]) s, fun hc => planEach_nil_of (by simp [hc])⟩
  rw [hus, State.run_cons]
  obtain ⟨hrep, hm⟩ := Reported.run hr (s.apply (.bytes (cellTarn cell o) bs))
  have hbytes : Reported s (s.apply (.bytes (cellTarn cell o) bs)) := ⟨rfl, fun _ _ _ => rfl⟩
  refine ⟨hm, hbytes.trans hrep, fun hclean => ?_⟩
  rw [hc hclean]
  exact Frame.apply_bytes hclean _ _

/-- What is suppressed is the same after reports and writes. -/
theorem Reported.stashWrite {s t : State} (h : Reported s t) (cell o : Nat) : t.stashWrite cell o = s.stashWrite cell o := by
  have hd : t.dropped cell = s.dropped cell := by
    rw [State.dropped, State.dropped, h.fields .CELL_SEQ_STATUS_DROPPED cell (by decide)]
  have hr : t.region 0 cell = s.region 0 cell := by
    rw [State.region, State.region, h.fields .TIER_CLASS_REGION_BASE _ (by decide),
      h.fields .TIER_CLASS_REGION_SIZE _ (by decide)]
  rw [State.stashWrite, State.stashWrite, hd, hr]

theorem storeLanes_cons (cell : Nat) (p : Nat × Nat) (ps : List (Nat × Nat)) (s : State) :
    s.run (storeLanes cell (p :: ps) s) =
      let t := s.run (if s.stashWrite cell p.1 then [] else writeMem (cellTarn cell p.1) (leBytes 4 p.2) s)
      t.run (storeLanes cell ps t) := by
  rw [storeLanes, planEach, List.map_cons, run_plans_cons]
  rfl

/-- Lanes stored in order, each unless it is suppressed. -/
theorem storeLanes_stored (cell : Nat) (ps : List (Nat × Nat)) (s : State) :
    Stored s (s.run (storeLanes cell ps s)) ((ps.filter (fun p => !s.stashWrite cell p.1)).foldl
      (fun m p => putBytes m (cellTarn cell p.1) (leBytes 4 p.2)) s.mem) := by
  induction ps generalizing s with
  | nil => exact Stored.refl s
  | cons p ps ih =>
    rw [storeLanes_cons]
    cases hs : s.stashWrite cell p.1 with
    | true => simpa [hs] using ih s
    | false =>
      have hw := writeMem_stored s cell p.1 (leBytes 4 p.2)
      have hps := ih (s.run (writeMem (cellTarn cell p.1) (leBytes 4 p.2) s))
      simp only [hw.reported.stashWrite, hw.mem] at hps
      simpa [hs] using hw.trans hps

/-- Bytes that no stored lane names are as they were. -/
theorem foldl_putBytes_other {cell : Nat} {v : Nat × Nat → Nat} {b : Nat} (ps : List (Nat × Nat)) (m : List Host.Cell)
    (h : ∀ p ∈ ps, ∀ k, k < 4 → canonDpa b ≠ cellTarn cell (p.2 + k)) :
    Sparse.get 0#8 (ps.foldl (fun m p => putBytes m (cellTarn cell p.2) (leBytes 4 (v p))) m) (canonDpa b) =
      Sparse.get 0#8 m (canonDpa b) := by
  induction ps generalizing m with
  | nil => rfl
  | cons p ps ih =>
    rw [List.foldl_cons, ih _ (fun q hq => h q (by simp [hq])), putBytes_other]
    intro i hi
    rw [cellTarn_add, canonDpa_cellTarn]
    exact h p (by simp) i hi

/-! Stores (R139, R140, R492). -/

/-- A store of lanes inside the Tarn. -/
theorem opStoreLanes_done {offs : CellWord → Nat → State → List Nat} {cell : Nat} {w : CellWord} {s : State}
    (hin : lanesInside cell w s (offs w cell s) = true) :
    opStoreLanes offs cell w s = .done (storeLanes cell ((activeLanes (s.mReg cell w.msk.toNat) (offs w cell s)).map
      (fun p => (p.2, (s.lanes cell w.sc.toNat).getD p.1 0))) s) := by
  simp only [opStoreLanes, findSome_firstBeyond hin]

theorem memStored_eq (cell : Nat) (w : CellWord) (s : State) (offs : List Nat) :
    (((activeLanes (s.mReg cell w.msk.toNat) offs).map (fun p => (p.2, (s.lanes cell w.sc.toNat).getD p.1 0))).filter
      (fun p => !s.stashWrite cell p.1)).foldl (fun m p => putBytes m (cellTarn cell p.1) (leBytes 4 p.2)) s.mem =
    memStored cell w s offs := by
  rw [List.filter_map, List.foldl_map]
  rfl

section Ready

variable {s : State} {cell : Nat} (h : s.cellReady cell = true)
include h

variable {n m opc : Nat} {w : CellWord} {f : CellFn} {us : List Upd}

/-- A store completes: what it leaves in memory is all that its own updates say. -/
theorem completes_store {c : Instr} {mem : List Host.Cell} {post : State → Prop}
    (hx : exec c s = answer (issueN n m opc cell w f) s) (hf : f cell w s = .done us)
    (hst : Stored s (s.run us) mem) (hpost : ∀ t : State, t.mem = mem → post t) (ho : opc.blt 256 = true) :
    Completes c s (fun t => post t ∧ Issued s t cell opc n m 0 s.cells ∧
      (s.unitErr = [] → Frame s t [.cells, .mem] (seqFields cell) [])) := by
  obtain ⟨hi, hm⟩ := issued_of_reported (n := n) (m := m) (opc := opc) (g := s.cells) h hf hst.reported ho
  exact ⟨_, hx, hpost _ (hm.trans hst.mem), hi, fun hc =>
    frame_of_done h hf ((hst.clean hc).mono (by simp) (by simp) (by simp)) (by simp) fun _ hx => hx⟩

/-- A store of lanes completes: memory is that of its lanes stored in order, and no other byte has changed. -/
theorem completes_storeLanes {c : Instr} {offs : CellWord → Nat → State → List Nat}
    (hx : exec c s = answer (issueN n m opc cell w (opStoreLanes offs)) s)
    (hin : lanesInside cell w s (offs w cell s) = true) (ho : opc.blt 256 = true) :
    Completes c s (fun t => (t.mem = memStored cell w s (offs w cell s) ∧
      ∀ b, (∀ p ∈ storedLanes cell w s (offs w cell s), ∀ k, k < 4 → canonDpa b ≠ cellTarn cell (p.2 + k)) →
        t.byteAt b = s.byteAt b) ∧ Issued s t cell opc n m 0 s.cells ∧
      (s.unitErr = [] → Frame s t [.cells, .mem] (seqFields cell) [])) := by
  have hst := storeLanes_stored cell ((activeLanes (s.mReg cell w.msk.toNat) (offs w cell s)).map
    (fun p => (p.2, (s.lanes cell w.sc.toNat).getD p.1 0))) s
  rw [memStored_eq] at hst
  refine completes_store h hx (opStoreLanes_done hin) hst (fun t ht => ⟨ht, fun b hb => ?_⟩) ho
  exact State.byteAt_congr (by rw [ht, memStored, foldl_putBytes_other _ _ hb])

/-- SST inside the Tarn writes its 8 bytes, unless a dropped micro-batch's stash lies there. -/
theorem completes_sst (hin : effAddr cell w 8 s + 8 ≤ 0x180000) :
    (s.stashWrite cell (effAddr cell w 8 s) = false → Completes (.sst cell w) s (fun t =>
      Wrote s t (cellTarn cell (effAddr cell w 8 s)) (leBytes 8 (s.sReg cell w.sc.toNat)) ∧
      Issued s t cell 0x53 1 0 0 s.cells ∧ (s.unitErr = [] → Frame s t [.cells, .mem] (seqFields cell) []))) ∧
    (s.stashWrite cell (effAddr cell w 8 s) = true → Completes (.sst cell w) s (fun t =>
      t.mem = s.mem ∧ Issued s t cell 0x53 1 0 0 s.cells ∧
      (s.unitErr = [] → Frame s t [.cells, .mem] (seqFields cell) []))) := by
  constructor <;> intro hs
  · exact completes_store h rfl (f := opSst) (by simp only [opSst, firstBeyond_none hin, hs, Bool.false_eq_true, if_false])
      (writeMem_stored ..) (fun _ => wrote_of_mem) rfl
  · exact completes_store h rfl (f := opSst) (us := []) (by simp only [opSst, firstBeyond_none hin, hs, if_true])
      (Stored.refl s) (fun _ ht => ht) rfl

end Ready

theorem storesWriteTheTarn : Claim.StoresWriteTheTarn := fun _ _ _ h =>
  ⟨fun hin => completes_storeLanes h rfl hin rfl,
    fun hin => completes_storeLanes (offs := fun w c s => gatherAddrs c w s) h rfl hin rfl,
    fun hin hs => (completes_sst h hin).1 hs, fun hin hs => (completes_sst h hin).2 hs⟩

/-- Settles O10: an access inside the Tarn is its register or memory write, beside reports of the errors it meets. -/
theorem tarnLoadsAndStores : Obligations.TarnLoadsAndStores := ⟨loadsReadTheTarn, storesWriteTheTarn⟩

end Sys2Proof.Machine

namespace Sys2Proof.Machine

/-! Memory accesses at any address of the map: what they write, and what they leave alone. -/

/-- An address keeps its place within its 4 KiB when it is stored (R73). -/
theorem canonDpa_mod (a : Nat) : canonDpa a % 4096 = a % 4096 := by
  unfold canonDpa
  split
  · have h : ((a - 0x010000000000) >>> 16 <<< 12 ||| (a - 0x010000000000) % 4096) % 2 ^ 12 =
        (a - 0x010000000000) % 2 ^ 12 := by
      rw [Nat.or_mod_two_pow, Nat.shiftLeft_eq, Nat.mul_mod_left, Nat.zero_or]
      exact Nat.mod_mod _ _
    simp only
    omega
  · rfl

/-- Bytes that are stored at one address are equal: what a run of bytes needs for each of them to read back. -/
def Coherent (a : Nat) (bs : List Nat) : Prop :=
  ∀ j k, j < bs.length → k < bs.length → canonDpa (a + j) = canonDpa (a + k) → bs.getD j 0 = bs.getD k 0

theorem coherent_of_apart {a : Nat} {bs : List Nat}
    (h : ∀ j k, j < bs.length → k < bs.length → j ≠ k → canonDpa (a + j) ≠ canonDpa (a + k)) : Coherent a bs := by
  intro j k hj hk heq
  by_cases hjk : j = k
  · rw [hjk]
  · exact absurd heq (h j k hj hk hjk)

/-- No byte is there twice in a run of at most 4 KiB. -/
theorem coherent_of_short {a : Nat} {bs : List Nat} (h : bs.length ≤ 4096) : Coherent a bs :=
  coherent_of_apart fun j k hj hk hjk heq => by
    have hmod := congrArg (· % 4096) heq
    simp only [canonDpa_mod] at hmod
    omega

/-- A byte that a run of writes reaches holds the value that every write there gives it. -/
theorem putBytes_get_agreed {c : Nat} {v : BitVec 8} (bs : List Nat) (m : List Host.Cell) (a : Nat)
    (hv : ∀ j, j < bs.length → canonDpa (a + j) = c → BitVec.ofNat 8 (bs.getD j 0) = v)
    (hw : Sparse.get 0#8 m c = v ∨ ∃ j, j < bs.length ∧ canonDpa (a + j) = c ∧ populated (a + j) = true) :
    Sparse.get 0#8 (putBytes m a bs) c = v := by
  induction bs generalizing m a with
  | nil => simpa [putBytes] using hw
  | cons b bs ih =>
    have hshift : ∀ j, a + 1 + j = a + (j + 1) := fun j => by omega
    refine ih _ _ (fun j hj hc => by simpa using hv (j + 1) (by simpa using hj) (by rwa [← hshift])) ?_
    rw [putByte_get]
    split
    · next h => exact .inl (by simpa using hv 0 (by simp) h.2.symm)
    · next h =>
      refine hw.imp id ?_
      rintro ⟨j, hj, hc, hp⟩
      cases j with
      | zero => exact absurd ⟨hp, hc.symm⟩ h
      | succ j => exact ⟨j, by simpa using hj, by rwa [hshift], by rwa [hshift]⟩

/-- A state whose memory is another's with a coherent run of bytes put there holds them, and every other byte as it was. -/
theorem wrote_of_putBytes {s t : State} {a : Nat} {bs : List Nat} (h : t.mem = putBytes s.mem a bs) (hc : Coherent a bs) :
    Wrote s t a bs := by
  refine ⟨fun i hi hp => ?_, fun b hb => State.byteAt_congr (by rw [h, putBytes_other _ _ _ _ hb])⟩
  have hget : Sparse.get 0#8 (putBytes s.mem a bs) (canonDpa (a + i)) = BitVec.ofNat 8 (bs.getD i 0) :=
    putBytes_get_agreed bs _ _ (fun j hj he => by rw [hc j i hj hi he]) (.inr ⟨i, hi, rfl, hp⟩)
  rw [State.byteAt, if_pos hp, h, hget, BitVec.toNat_ofNat]

theorem putBytes_append (m : List Host.Cell) (a : Nat) (xs ys : List Nat) :
    putBytes m a (xs ++ ys) = putBytes (putBytes m a xs) (a + xs.length) ys := by
  induction xs generalizing m a with
  | nil => rfl
  | cons x xs ih => simp [putBytes, ih, Nat.add_assoc, Nat.add_comm 1]

/-! Frames of short runs. -/

/-- An update of one of the fields, variables or parts that a frame allows. -/
def Upd.inFrame (ps : List Part) (fs : List (Fld × Nat)) (vs : List (Var × Nat)) : Upd → Prop
  | .reg f i _ => (f, i) ∈ fs
  | .var v i _ => (v, i) ∈ vs
  | .fmp _ => .fmp ∈ ps
  | _ => False

theorem Frame.apply_inFrame {s : State} {ps : List Part} {fs : List (Fld × Nat)} {vs : List (Var × Nat)} {u : Upd}
    (hu : u.inFrame ps fs vs) : Frame s (s.apply u) ps fs vs := by
  cases u with
  | reg f i v =>
    refine ⟨fun p _ => by cases p <;> rfl, fun g j hg => ?_, fun _ _ _ => rfl⟩
    rw [State.apply_reg_get, if_neg]
    rintro ⟨rfl, rfl⟩
    exact hg hu
  | var v i n =>
    refine ⟨fun p _ => by cases p <;> rfl, fun _ _ _ => rfl, fun w j hw => ?_⟩
    rw [State.apply_var_gvar, if_neg]
    rintro ⟨rfl, rfl⟩
    exact hw hu
  | fmp f =>
    refine ⟨fun p hp => ?_, fun _ _ _ => rfl, fun _ _ _ => rfl⟩
    cases p with
    | fmp => exact absurd hu hp
    | _ => rfl
  | _ => exact hu.elim

theorem Frame.run_inFrame {ps : List Part} {fs : List (Fld × Nat)} {vs : List (Var × Nat)} {us : List Upd}
    (h : ∀ u ∈ us, u.inFrame ps fs vs) (s : State) : Frame s (s.run us) ps fs vs :=
  s.run_keeps (Frame s · ps fs vs) us (fun _ u hu ht => ht.trans (Frame.apply_inFrame (h u hu))) (Frame.refl ..)

/-! What an access to memory leaves alone (R412 to R418). -/

/-- An access to memory leads from one state to another: memory is then as given, FMP and every field that reports no error
are as they were, and where memory has no error nothing but memory has changed. -/
structure Accessed (s t : State) (m : List Host.Cell) : Prop where
  mem    : t.mem = m
  fmp    : t.fmp = s.fmp
  fields : ∀ f i, f ∉ reportFields → t.get f i = s.get f i
  clean  : s.unitErr = [] → Frame s t [.mem] [] []

theorem Accessed.refl (s : State) : Accessed s s s.mem := ⟨rfl, rfl, fun _ _ _ => rfl, fun _ => Frame.refl ..⟩

/-- Memory without errors stays so. -/
theorem Accessed.unitErr {s t : State} {m : List Host.Cell} (h : Accessed s t m) (hc : s.unitErr = []) : t.unitErr = [] :=
  ((h.clean hc).parts .unitErr (by simp)).trans hc

theorem Accessed.trans {s t u : State} {m n : List Host.Cell} (h : Accessed s t m) (h' : Accessed t u n) : Accessed s u n :=
  ⟨h'.mem, h'.fmp.trans h.fmp, fun f i hf => (h'.fields f i hf).trans (h.fields f i hf),
    fun hc => (h.clean hc).trans (h'.clean (h.unitErr hc))⟩

/-- An access that leaves memory as it was changes nothing where memory has no error. -/
theorem Accessed.frame {s t : State} (h : Accessed s t s.mem) (hc : s.unitErr = []) : Frame s t [] [] [] := by
  obtain ⟨hparts, hfields, hvars⟩ := h.clean hc
  refine ⟨fun p _ => ?_, hfields, hvars⟩
  cases p with
  | mem => exact h.mem
  | _ => exact hparts _ (by simp)

/-- A read leads from one state to another: it reports errors and takes free values. -/
structure Noted (s t : State) : Prop where
  mem     : t.mem = s.mem
  fmp     : t.fmp = s.fmp
  unitErr : t.unitErr = s.unitErr
  fields  : ∀ f i, f ∉ reportFields → t.get f i = s.get f i

/-- An update that a read makes: it reports an error, or takes a free value. -/
def Upd.notes : Upd → Prop
  | .var _ _ _ => True
  | u => u.reports

theorem Upd.notes_of_reports {u : Upd} (h : u.reports) : u.notes := by
  cases u with
  | var => trivial
  | _ => exact h

theorem Noted.apply {s t : State} {u : Upd} (hu : u.notes) (h : Noted s t) : Noted s (t.apply u) := by
  obtain ⟨hmem, hfmp, herr, hfields⟩ := h
  cases u with
  | reg f i v =>
    refine ⟨hmem, hfmp, herr, fun g j hg => ?_⟩
    rw [State.apply_reg_get, if_neg, hfields g j hg]
    rintro ⟨rfl, -⟩
    exact hg hu
  | logs | var => exact ⟨hmem, hfmp, herr, hfields⟩
  | _ => exact hu.elim

theorem Noted.run {us : List Upd} (h : ∀ u ∈ us, u.notes) (s : State) : Noted s (s.run us) :=
  s.run_keeps (Noted s) us (fun _ u hu => Noted.apply (h u hu)) ⟨rfl, rfl, rfl, fun _ _ _ => rfl⟩

/-- A read that finds nothing to report where memory has no error is an access that leaves memory as it was. -/
theorem Noted.accessed {s t : State} (h : Noted s t) (hc : s.unitErr = [] → t = s) : Accessed s t s.mem :=
  ⟨h.mem, h.fmp, h.fields, fun he => by rw [hc he]; exact Frame.refl ..⟩

theorem noteRead_clean {s : State} (h : s.unitErr = []) (cls a : Nat) : noteRead cls a s = [] := by
  simp [noteRead, lineOutcome_clean h]

theorem noteUnlisted_clean {s : State} (h : s.unitErr = []) (a : Nat) : noteUnlisted a s = [] := by
  simp [noteUnlisted, lineOutcome_clean h, noteRead_clean h]

theorem noteLines_clean {s : State} (h : s.unitErr = []) (ls : List Nat) : planEach ls noteUnlisted s = [] :=
  planEach_nil_of fun a _ => noteUnlisted_clean h a

theorem noted_noteRead (cls a : Nat) (s : State) : Noted s (s.run (noteRead cls a s)) :=
  Noted.run (fun u hu => Upd.notes_of_reports (noteRead_reports cls a s u hu)) s

theorem noteUnlisted_notes (a : Nat) (s : State) : ∀ u ∈ noteUnlisted a s, u.notes := by
  unfold noteUnlisted
  split
  · exact fun u hu => Upd.notes_of_reports (noteRead_reports _ _ s u hu)
  · refine forall_mem_plans (fun p hp t u hu => ?_) s
    rw [List.mem_cons, List.mem_singleton] at hp
    rcases hp with rfl | rfl
    · exact Upd.notes_of_reports (noteRead_reports _ _ t u hu)
    · rw [List.mem_singleton.mp hu]
      trivial

theorem accessed_noteUnlisted (a : Nat) (s : State) : Accessed s (s.run (noteUnlisted a s)) s.mem :=
  (Noted.run (noteUnlisted_notes a s) s).accessed fun h => by rw [noteUnlisted_clean h, State.run_nil]

theorem accessed_noteLines (ls : List Nat) (s : State) : Accessed s (s.run (planEach ls noteUnlisted s)) s.mem :=
  (Noted.run (forall_mem_planEach (fun a _ => noteUnlisted_notes a) s) s).accessed fun h => by
    rw [noteLines_clean h, State.run_nil]

/-! Writes of bytes in one run and in several (R73). -/

/-- Bytes written in one run, with the poisoned writes that they count. -/
theorem accessed_writeRun (a : Nat) (bs : List Nat) (s : State) :
    Accessed s (s.run (writeRun a bs s)) (putBytes s.mem a bs) := by
  obtain ⟨us, hus, hr, hc⟩ : ∃ us, writeRun a bs s = .bytes a bs :: us ∧ (∀ u ∈ us, u.notes) ∧ (s.unitErr = [] → us = []) :=
    ⟨_, rfl, forall_mem_planEach (fun _ _ _ => by simp [Upd.notes, Upd.reports, State.addF, setF, reportFields]) s,
      fun h => planEach_nil_of (by simp [h])⟩
  rw [hus, State.run_cons]
  obtain ⟨hmem, hfmp, -, hfields⟩ := Noted.run hr (s.apply (.bytes a bs))
  refine ⟨hmem, hfmp, hfields, fun he => ?_⟩
  rw [hc he]
  exact Frame.apply_bytes he a bs

theorem putBytes_take_drop (m : List Host.Cell) (a k : Nat) (bs : List Nat) :
    putBytes (putBytes m a (bs.take k)) (a + k) (bs.drop k) = putBytes m a bs := by
  by_cases hk : k ≤ bs.length
  · rw [← congrArg (putBytes m a) (List.take_append_drop k bs), putBytes_append, List.length_take, Nat.min_eq_left hk]
  · rw [List.take_of_length_le (by omega), List.drop_eq_nil_of_le (by omega), putBytes]

/-- Runs of 4 KiB, each behind the other, write what one run would. -/
theorem accessed_writeRuns (n a : Nat) (bs : List Nat) (s : State) (h : bs.length ≤ 4096 * n) :
    Accessed s (s.run (plans ((List.range n).map (fun i => writeRun (a + 4096 * i) ((bs.drop (4096 * i)).take 4096))) s))
      (putBytes s.mem a bs) := by
  induction n generalizing a bs s with
  | zero =>
    rw [List.eq_nil_of_length_eq_zero (by omega : bs.length = 0)]
    exact Accessed.refl s
  | succ n ih =>
    have hfirst := accessed_writeRun a (bs.take 4096) s
    have hrest := ih (a + 4096) (bs.drop 4096) (s.run (writeRun a (bs.take 4096) s)) (by rw [List.length_drop]; omega)
    rw [hfirst.mem, putBytes_take_drop] at hrest
    have hshift : (fun i => writeRun (a + 4096 * i) ((bs.drop (4096 * i)).take 4096)) ∘ Nat.succ =
        fun i => writeRun (a + 4096 + 4096 * i) (((bs.drop 4096).drop (4096 * i)).take 4096) := by
      funext i
      simp only [Function.comp_apply, Nat.mul_succ, List.drop_drop, Nat.add_comm (4096 * i), Nat.add_assoc]
    rw [List.range_succ_eq_map, List.map_cons, List.map_map, hshift, run_plans_cons, Nat.mul_zero, Nat.add_zero,
      List.drop_zero]
    exact hfirst.trans hrest

/-- Bytes written to memory, at whatever address, are put there in order. -/
theorem accessed_writeMem (a : Nat) (bs : List Nat) (s : State) :
    Accessed s (s.run (writeMem a bs s)) (putBytes s.mem a bs) := by
  unfold writeMem
  split
  · exact accessed_writeRun a bs s
  · rw [run_plans_cons]
    have hfirst := accessed_writeRun a (bs.take (4096 - a % 4096)) s
    have hrest := accessed_writeRuns ((bs.length - (4096 - a % 4096) + 4095) / 4096) (a + (4096 - a % 4096))
      (bs.drop (4096 - a % 4096)) (s.run (writeRun a (bs.take (4096 - a % 4096)) s)) (by rw [List.length_drop]; omega)
    rw [hfirst.mem, putBytes_take_drop] at hrest
    exact hfirst.trans hrest

/-! Bytes read from memory. -/

@[simp] theorem State.length_bytesAt (s : State) (a n : Nat) : (s.bytesAt a n).length = n := by
  induction n generalizing a with
  | zero => rfl
  | succ n ih => rw [State.bytesAt, List.length_cons, ih]

theorem State.bytesAt_add (s : State) (a m n : Nat) : s.bytesAt a (m + n) = s.bytesAt a m ++ s.bytesAt (a + m) n := by
  induction m generalizing a with
  | zero => rw [Nat.zero_add]; rfl
  | succ m ih => rw [Nat.succ_add, State.bytesAt, ih, State.bytesAt, List.cons_append, Nat.add_assoc, Nat.add_comm 1]

theorem State.bytesAt_congr {s t : State} {a n : Nat} (h : ∀ j, j < n → t.byteAt (a + j) = s.byteAt (a + j)) :
    t.bytesAt a n = s.bytesAt a n := by
  induction n generalizing a with
  | zero => rfl
  | succ n ih =>
    have h0 : t.byteAt a = s.byteAt a := h 0 (by omega)
    rw [State.bytesAt, State.bytesAt, h0, ih fun j hj => by rw [Nat.add_assoc]; exact h (1 + j) (by omega)]

/-! The state of a ring (R455). -/

theorem State.ringSt_congr {s t : State} (h : t.fmp = s.fmp) (i : Nat) : t.ringSt i = s.ringSt i := by
  rw [State.ringSt, State.ringSt, h]

@[simp] theorem State.apply_setRing_ringSt (s : State) (i : Nat) (r : Ring) : (s.apply (setRing i r)).ringSt i = r :=
  Sparse.get_set_self ..

@[simp] theorem State.apply_var_ringSt (s : State) (v : Var) (i n j : Nat) :
    (s.apply (.var v i n)).ringSt j = s.ringSt j := rfl

/-- A command that begins changes its ring's state only. -/
theorem run_ringBegun (s : State) (i status : Nat) (left : List (Nat × Nat)) (wait : Bool) :
    ringBegins s (s.run (ringBegun i status left wait s)) i status left wait ∧
      Frame s (s.run (ringBegun i status left wait s)) [.fmp] [] [] :=
  ⟨by simp [ringBegins, ringBegun], Frame.run_inFrame (by simp [ringBegun, setRing, Upd.inFrame]) s⟩

/-- A command whose status the spec leaves open takes a free value. -/
theorem run_ringOpen (s : State) (i : Nat) :
    ringBegins s (s.run (ringOpen i s)) i (s.free 8) [] false ∧ Frame s (s.run (ringOpen i s)) [.fmp] [] [(.freeCount, 0)] :=
  ⟨by simp [ringBegins, ringOpen, ringBegun, plans_cons],
    Frame.run_inFrame (by simp [ringOpen, ringBegun, plans_cons, setRing, Upd.inFrame]) s⟩

/-! What a ring does once a command has completed (R455, R457). -/

/-- The fields that place a ring's descriptors report no error. -/
theorem ringFields_not_report : Fld.FMP_RING_STATE_HEAD ∉ reportFields ∧ Fld.FMP_RING_STATE_TAIL ∉ reportFields ∧
    Fld.FMP_RING_CFG_BASE ∉ reportFields ∧ Fld.FMP_RING_CFG_LOG2_ENTRIES ∉ reportFields := by decide

/-- The descriptor at HEAD reads the same after changes that leave memory, its errors and the fields that place it. -/
theorem headDesc_congr {s t : State} {i : Nat} (hmem : t.mem = s.mem) (herr : t.unitErr = s.unitErr)
    (hf : ∀ f, f ≠ .FMP_RING_STATS_STATE → f ∉ reportFields → t.get f i = s.get f i) :
    let a := s.descAt i (s.get .FMP_RING_STATE_HEAD i)
    t.descAt i (t.get .FMP_RING_STATE_HEAD i) = a ∧ t.lineBad a = s.lineBad a ∧ t.bytesAt a 64 = s.bytesAt a 64 := by
  obtain ⟨hhead, -, hbase, hlog⟩ := ringFields_not_report
  refine ⟨?_, ?_, State.bytesAt_congr fun j _ => State.byteAt_congr (by rw [hmem])⟩
  · rw [State.descAt, State.descAt, State.ringSize, State.ringSize, hf _ (by decide) hhead, hf _ (by decide) hbase,
      hf _ (by decide) hlog]
  · rw [State.lineBad, State.lineBad, State.lineOutcome, State.lineOutcome, herr]

/-- A ring whose read of the descriptor at HEAD has been issued. -/
def State.reading (s : State) (i tries : Nat) (rung : Bool) : Ring :=
  let a := s.descAt i (s.get .FMP_RING_STATE_HEAD i)
  { stage := 1, tries := tries, rung := rung, desc := if s.lineBad a = true then none else some (s.bytesAt a 64) }

theorem run_issueRead_eq (s : State) (i tries : Nat) (rung : Bool) :
    s.run (issueRead i tries rung s) = (s.run (noteRead 9 (s.descAt i (s.get .FMP_RING_STATE_HEAD i)) s)).run
      [setRing i (s.reading i tries rung), .reg .FMP_RING_STATS_STATE i (if tries = 0 then 2 else 3)] := by
  rw [issueRead, run_plans_cons]
  rfl

/-- A read of the descriptor at HEAD: beside the ring's own state it notes what it read. -/
theorem run_issueRead (s : State) (i tries : Nat) (rung : Bool) :
    let t := s.run (issueRead i tries rung s)
    ringReads t i tries rung ∧ t.mem = s.mem ∧ t.fmp.notes = s.fmp.notes ∧
      (∀ f, f ≠ .FMP_RING_STATS_STATE → f ∉ reportFields → t.get f i = s.get f i) ∧
      (s.unitErr = [] → Frame s t [.fmp] [(.FMP_RING_STATS_STATE, i)] []) := by
  obtain ⟨hmem, hfmp, herr, hfields⟩ := noted_noteRead 9 (s.descAt i (s.get .FMP_RING_STATE_HEAD i)) s
  have hget : ∀ f, f ≠ .FMP_RING_STATS_STATE → f ∉ reportFields →
      (s.run (issueRead i tries rung s)).get f i = s.get f i := fun f hf hr => by
    rw [run_issueRead_eq, State.run_cons, State.run_cons, State.run_nil, State.apply_reg_get, if_neg (by simp [hf])]
    exact hfields f i hr
  have hmem' : (s.run (issueRead i tries rung s)).mem = s.mem := by rw [run_issueRead_eq]; exact hmem
  have herr' : (s.run (issueRead i tries rung s)).unitErr = s.unitErr := by rw [run_issueRead_eq]; exact herr
  obtain ⟨ha, hbad, hbytes⟩ := headDesc_congr (i := i) hmem' herr' hget
  refine ⟨⟨?_, ?_⟩, hmem', ?_, hget, fun hc => ?_⟩
  · rw [ha, hbad, hbytes, run_issueRead_eq]
    exact State.apply_setRing_ringSt ..
  · rw [run_issueRead_eq, State.run_cons, State.run_cons, State.run_nil, State.apply_reg_get, if_pos ⟨rfl, rfl⟩]
    split <;> rfl
  · rw [run_issueRead_eq]
    exact (congrArg Fmp.notes hfmp :)
  · rw [run_issueRead_eq, noteRead_clean hc, State.run_nil]
    exact Frame.run_inFrame (by simp [setRing, Upd.inFrame]) s

/-- After a completion a ring goes on, and beside its own state only reads are noted. -/
theorem run_ringNext (s : State) (i : Nat) :
    let t := s.run (ringNext i s)
    ringGoesOn t i ∧ t.mem = s.mem ∧ t.fmp.notes = s.fmp.notes ∧
      t.get .FMP_RING_STATE_HEAD i = s.get .FMP_RING_STATE_HEAD i ∧
      (s.unitErr = [] → Frame s t [.fmp] [(.FMP_RING_STATS_STATE, i)] []) := by
  obtain ⟨hhead, htail, -⟩ := ringFields_not_report
  by_cases he : s.get .FMP_RING_STATE_HEAD i = s.get .FMP_RING_STATE_TAIL i
  · have hp : ringNext i s = [setRing i {}, .reg .FMP_RING_STATS_STATE i 1] := by rw [ringNext, if_pos he]; rfl
    have hh : (s.run (ringNext i s)).get .FMP_RING_STATE_HEAD i = s.get .FMP_RING_STATE_HEAD i := by
      simp [hp, setRing]
    have ht : (s.run (ringNext i s)).get .FMP_RING_STATE_TAIL i = s.get .FMP_RING_STATE_TAIL i := by
      simp [hp, setRing]
    refine ⟨⟨fun _ => ?_, fun hne => absurd (hh.trans (he.trans ht.symm)) hne⟩, ?_, ?_, hh, fun _ => ?_⟩ <;> rw [hp]
    · exact ⟨State.apply_setRing_ringSt .., (State.apply_reg_get ..).trans (if_pos ⟨rfl, rfl⟩)⟩
    · rfl
    · rfl
    · exact Frame.run_inFrame (by simp [setRing, Upd.inFrame]) s
  · have hp : ringNext i s = issueRead i 0 false s := by rw [ringNext, if_neg he]
    obtain ⟨hreads, hmem, hnotes, hget, hframe⟩ := run_issueRead s i 0 false
    rw [hp]
    have hh := hget _ (by decide) hhead
    have ht := hget _ (by decide) htail
    exact ⟨⟨fun he' => absurd (hh.symm.trans (he'.trans ht)) he, fun _ => hreads⟩, hmem, hnotes, hh, hframe⟩

/-! Completions (R455, R462). -/

/-- The completion entry of a command, and the notice that its descriptor may ask for. -/
def State.doneEntry (s : State) (status : Nat) (b : List Nat) : List Nat :=
  [status, 0, 0, 0] ++ (b.drop 4).take 4 ++ leBytes 8 (s.get .BEAT_COUNT_COUNT)

def State.doneNote (s : State) (i status : Nat) (b : List Nat) : Event :=
  ⟨0x41, 8, 0, i, fieldOf b 4 4, ofLe ((s.doneEntry status b).take 8), s.get .BEAT_COUNT_COUNT, s.eventPhase⟩

/-- A command that asks for it adds a notice, and HEAD advances. -/
def doneUpdates (s : State) (i status : Nat) (b : List Nat) : List Upd :=
  (if (b.getD 1 0).testBit 1 = true then
    [Upd.fmp (fun x => { x with notes := x.notes ++ [s.doneNote i status b] })] else []) ++
    [Upd.reg .FMP_RING_STATE_HEAD i ((s.get .FMP_RING_STATE_HEAD i + 1) % 2 ^ 32)]

theorem length_leBytes (n v : Nat) : (leBytes n v).length = n := by
  induction n generalizing v with
  | zero => rfl
  | succ n ih => rw [leBytes, List.length_cons, ih]

theorem run_doneUpdates (s u : State) (i status : Nat) (b : List Nat) :
    let t := u.run (doneUpdates s i status b)
    t.mem = u.mem ∧ t.fmp.notes = u.fmp.notes ++ (if (b.getD 1 0).testBit 1 = true then [s.doneNote i status b] else []) ∧
      t.get .FMP_RING_STATE_HEAD i = (s.get .FMP_RING_STATE_HEAD i + 1) % 2 ^ 32 ∧
      Frame u t [.fmp] [(.FMP_RING_STATE_HEAD, i)] [] := by
  refine ⟨?_, ?_, ?_, Frame.run_inFrame ?_ u⟩
  · unfold doneUpdates
    split <;> rfl
  · unfold doneUpdates
    split
    · rfl
    · rw [List.append_nil]
      rfl
  · rw [doneUpdates, State.run_append, State.run_cons, State.run_nil, State.apply_reg_get, if_pos ⟨rfl, rfl⟩]
    exact Nat.mod_mod _ _
  · unfold doneUpdates
    split <;> simp [Upd.inFrame]

/-- A ring whose descriptor is known completes its command. -/
theorem run_ringDone {s : State} {i : Nat} {b : List Nat} (hb : (s.ringSt i).desc = some b) (status : Nat) :
    ringEnded s (s.run (ringDone i status s)) i status b := by
  have hp : ringDone i status s = plans [writeMem (s.doneAt i (s.get .FMP_RING_STATE_HEAD i)) (s.doneEntry status b),
      fun _ => doneUpdates s i status b, ringNext i] s := by
    unfold ringDone
    rw [hb]
    rfl
  obtain ⟨hmem, hfmp, -, hclean⟩ :=
    accessed_writeMem (s.doneAt i (s.get .FMP_RING_STATE_HEAD i)) (s.doneEntry status b) s
  rw [hp, run_plans_cons, run_plans_cons, run_plans_cons, plans_nil, State.run_nil]
  generalize s.run (writeMem (s.doneAt i (s.get .FMP_RING_STATE_HEAD i)) (s.doneEntry status b) s) = u at hmem hfmp hclean ⊢
  obtain ⟨hmem', hnotes, hhead, hframe⟩ := run_doneUpdates s u i status b
  generalize u.run (doneUpdates s i status b) = v at hmem' hnotes hhead hframe ⊢
  obtain ⟨hgoes, hmem'', hnotes', hhead', hframe'⟩ := run_ringNext v i
  refine ⟨?_, hhead'.trans hhead, ?_, hgoes, fun hc => ?_⟩
  · refine wrote_of_putBytes (hmem''.trans (hmem'.trans hmem)) (coherent_of_short ?_)
    simp only [List.length_append, List.length_take, length_leBytes, List.length_cons, List.length_nil]
    omega
  · rw [hnotes', hnotes, hfmp]
    rfl
  · have hv : v.unitErr = [] := (hframe.parts .unitErr (by simp)).trans (((hclean hc).parts .unitErr (by simp)).trans hc)
    exact (((hclean hc).mono (by simp) (by simp) (by simp)).trans (hframe.mono (by simp) (by simp) (by simp))).trans
      ((hframe' hv).mono (by simp) (by simp) (by simp))

/-! When a command of a ring runs (R455, R456). -/

/-- A command whose plan is known completes with what that plan leaves. -/
theorem completes_of_plan {c : Instr} {s : State} {p : Plan} {post : State → Prop} (hx : exec c s = answer p s)
    (hpost : post (s.run (p s))) : Completes c s post := ⟨_, hx, hpost⟩

/-- A command with nothing to do leaves the state as it is. -/
theorem completes_nothing {c : Instr} {s : State} {p : Plan} (hx : exec c s = answer p s) (hp : p s = []) :
    Completes c s (fun t => t = s) := completes_of_plan hx (by rw [hp, State.run_nil])

theorem ringRun_holds {s : State} {i op : Nat} {b : List Nat} (h : ringHolds s i 3 op b) (f : List Nat → Plan) :
    ringRun i op f s = f b s := by
  obtain ⟨hi, hd, hst, hop⟩ := h
  simp only [ringRun, hd, hi, hst, hop, and_self, if_true]

theorem ringRun_idle {s : State} {i op : Nat} (h : ∀ b, ¬ringHolds s i 3 op b) (f : List Nat → Plan) :
    ringRun i op f s = [] := by
  unfold ringRun
  split
  · next b hd => exact if_neg fun ⟨hi, hst, hop⟩ => h b ⟨hi, hd, hst, hop⟩
  · rfl

/-- Opcodes 0 to 6 each have a command that runs where a ring holds the opcode. -/
theorem exec_ringCommand {i before op : Nat} {c : Instr} (h : (c, op) ∈ [(Instr.ringNop i, 0), (.loadImage i, 1),
    (.armFlip i, 2), (.regWrites i before, 3), (.waitBeat i, 4), (.ringCopy i, 5), (.ringFill i, 6)]) :
    ∃ f, ∀ s, exec c s = answer (ringRun i op f) s := by
  simp only [List.mem_cons, Prod.mk.injEq, List.not_mem_nil, or_false] at h
  rcases h with ⟨rfl, rfl⟩ | ⟨rfl, rfl⟩ | ⟨rfl, rfl⟩ | ⟨rfl, rfl⟩ | ⟨rfl, rfl⟩ | ⟨rfl, rfl⟩ | ⟨rfl, rfl⟩ <;>
    exact ⟨_, fun _ => rfl⟩

theorem ringBad_holds {s : State} {i op : Nat} {b : List Nat} (hop : 7 ≤ op) (h : ringHolds s i 3 op b) :
    ringBad i s = ringDone i 1 s := by
  obtain ⟨hi, hd, hst, rfl⟩ := h
  simp only [ringBad, hd, ge_iff_le, if_pos hop]
  exact ringRun_holds ⟨hi, hd, hst, rfl⟩ _

theorem ringBad_idle {s : State} {i : Nat} (h : ∀ b op, 7 ≤ op → ¬ringHolds s i 3 op b) : ringBad i s = [] := by
  unfold ringBad
  split
  · split
    · next hop => exact ringRun_idle (fun b => h b _ hop) _
    · rfl
  · rfl

/-- A ring waits for the beat of the command that it holds, and the beat has begun. -/
abbrev ringDue (s : State) (i op : Nat) (b : List Nat) : Prop :=
  ringHolds s i 4 op b ∧ (s.ringSt i).wait = true ∧ waitBeat b ≤ s.get .BEAT_COUNT_COUNT

theorem ringAwaited_due {s : State} {i op : Nat} {b : List Nat} (h : ringDue s i op b) (p : Ring → Plan) :
    ringAwaited i op p s = p (s.ringSt i) s := by
  obtain ⟨⟨hi, hd, hst, hop⟩, hw, hbeat⟩ := h
  simp only [ringAwaited, hd]
  exact if_pos ⟨hi, hst, hw, hop, hbeat⟩

theorem ringAwaited_idle {s : State} {i op : Nat} (h : ∀ b, ¬ringDue s i op b) (p : Ring → Plan) :
    ringAwaited i op p s = [] := by
  simp only [ringAwaited]
  split
  · next b hd => exact if_neg fun ⟨hi, hst, hw, hop, hbeat⟩ => h b ⟨⟨hi, hd, hst, hop⟩, hw, hbeat⟩
  · rfl

/-! Register writes of the rings (R450, R456). -/

/-- A list of writes lands in order: what R450 asks of each is a REGISTER_WRITE of its own. -/
theorem lands_writeList (ws : List (Nat × Nat)) (s : State) : Lands ws s (s.run (writeList ws s)) := by
  induction ws generalizing s with
  | nil => rfl
  | cons w ws ih =>
    refine ⟨_, rfl, ?_⟩
    rw [writeList, planEach, List.map_cons, run_plans_cons]
    exact ih _

/-- A register of one RW field takes a write as that field does. -/
theorem writeReg_single {addr i : Nat} {s : State} {d : FieldDesc} (hd : s.fieldsAt addr = [(d, i)]) (ha : d.acc = .rw)
    (hf : d.fld ≠ .ERR_HIST_SEL_INDEX) (v : Nat) :
    writeReg addr v s = writeRw d.fld i (bits v d.lo d.fld.width) s := by
  have hfield : writeField (d, i) v s = writeRw d.fld i (bits v d.lo d.fld.width) s := by
    simp only [writeField, ha, if_neg hf]
  have hcommand : ∀ t, writeCommand (d, i) v t = [] := fun t => if_pos (by rw [ha]; decide)
  simp only [writeReg, hd, planEach, List.map_cons, List.map_nil, plans_cons, plans_nil, hfield, hcommand, List.append_nil]

/-- The fields of CLAY that a ring's command writes (R456). -/
def clayArguments : List Fld := [.CLAY_SRC_BASE, .CLAY_SRC_LEN_LENGTH, .CLAY_FLIP_BEAT_BEAT]

theorem writeRw_argument_fmp {f : Fld} (hf : f ∈ clayArguments) (i v : Nat) (s : State) :
    (s.run (writeRw f i v s)).fmp = s.fmp := by
  simp only [clayArguments, List.mem_cons, List.not_mem_nil, or_false] at hf
  unfold writeRw
  split
  · rfl
  · rcases hf with rfl | rfl | rfl <;> rfl

/-- A write of a register that holds one of them touches no ring. -/
theorem writeReg_argument_fmp {addr : Nat} {r : RegDesc} {d : FieldDesc} (hr : findReg regTable addr = some (r, 0, 0))
    (hd : r.fields = [d]) (ha : d.acc = .rw) (hf : d.fld ∈ clayArguments) (v : Nat) (s : State) :
    (s.run (writeReg addr v s)).fmp = s.fmp := by
  have hfs : s.fieldsAt addr = [(d, s.fldInst r.sel d 0)] := by simp [State.fieldsAt, hr, hd]
  have hne : d.fld ≠ .ERR_HIST_SEL_INDEX := fun h => absurd hf (by rw [h]; decide)
  rw [writeReg_single hfs ha hne]
  exact writeRw_argument_fmp hf ..

theorem writeReg_srcBase_fmp (v : Nat) (s : State) : (s.run (writeReg 0x20010 v s)).fmp = s.fmp :=
  writeReg_argument_fmp rfl rfl rfl (by decide) v s

theorem writeReg_srcLen_fmp (v : Nat) (s : State) : (s.run (writeReg 0x20018 v s)).fmp = s.fmp :=
  writeReg_argument_fmp rfl rfl rfl (by decide) v s

theorem writeReg_flipBeat_fmp (v : Nat) (s : State) : (s.run (writeReg 0x20020 v s)).fmp = s.fmp :=
  writeReg_argument_fmp rfl rfl rfl (by decide) v s

theorem planArm_fmp (s : State) : (s.run (planArm s)).fmp = s.fmp := by
  simp only [planArm, State.run_append]
  split <;> split <;> split <;> rfl

theorem planLoad_fmp (s : State) : (s.run (planLoad s)).fmp = s.fmp := by
  simp only [planLoad]
  split
  · rfl
  · simp only [State.run_append]
    split <;> rfl

/-! Short commands (R456). -/

/-- WAIT_BEAT completes once its beat has begun, and waits before. -/
theorem completes_waitBeat {s : State} {i : Nat} {b : List Nat} (h : ringHolds s i 3 4 b) :
    (ringArg b 0 8 ≤ s.get .BEAT_COUNT_COUNT → Completes (.waitBeat i) s (fun t => ringEnded s t i 0 b)) ∧
    (s.get .BEAT_COUNT_COUNT < ringArg b 0 8 → Completes (.waitBeat i) s (fun t =>
      ringBegins s t i 0 [] true ∧ Frame s t [.fmp] [] [])) := by
  have ⟨_, hdesc, _⟩ := h
  refine ⟨fun hb => completes_of_plan rfl ?_, fun hb => completes_of_plan rfl ?_⟩ <;>
    rw [ringRun_holds h, ringWait]
  · rw [if_pos hb]
    exact run_ringDone hdesc 0
  · rw [if_neg (Nat.not_le.mpr hb)]
    exact run_ringBegun ..

/-- ARM_FLIP writes its register, arms, and completes. -/
theorem completes_armFlip {s : State} {i : Nat} {b : List Nat} (h : ringHolds s i 3 2 b) :
    Completes (.armFlip i) s (fun t => ∃ u v, Lands [(0x20020, ringArg b 0 8)] s u ∧
      exec .clayArm u = .next v ∧ ringEnded v t i (if u.armFails = true then 2 else 0) b) := by
  refine completes_of_plan rfl ?_
  rw [ringRun_holds h, ringArm, run_plans_cons, run_plans_cons, plans_nil, State.run_nil, run_plans_cons, run_plans_cons,
    plans_nil, State.run_nil]
  have ⟨_, hdesc, _⟩ := h
  refine ⟨s.run (writeReg 0x20020 (ringArg b 0 8) s), _, ⟨_, rfl, rfl⟩, rfl, run_ringDone ?_ _⟩
  rw [State.ringSt_congr ((planArm_fmp _).trans (writeReg_flipBeat_fmp _ _))]
  exact hdesc

/-- A load that CLAY ignores (R172). -/
abbrev State.loadIgnored (s : State) : Prop := s.loading = true ∨ (s.running = true ∧ s.get .CLAY_STATUS_ARMED = 1)

theorem ringLoad_eq (i : Nat) (b : List Nat) (s : State) :
    ringLoad i b s = plans [writeReg 0x20010 (ringArg b 0 8), writeReg 0x20018 (ringArg b 8 8), planLoad,
      if s.loadIgnored then ringDone i 2 else ringBegun i 0 [] true] s := by
  simp only [ringLoad, decide_eq_true_eq]

theorem State.not_loadIgnored {s : State} (hl : s.loading = false)
    (hr : s.running = false ∨ s.get .CLAY_STATUS_ARMED ≠ 1) : ¬s.loadIgnored := by
  rintro (h | ⟨h, ha⟩)
  · exact absurd (hl.symm.trans h) (by decide)
  · rcases hr with hr | hr
    · exact absurd (hr.symm.trans h) (by decide)
    · exact hr ha

/-- LOAD_IMAGE writes its registers and loads; a load that is ignored completes as REFUSED, and another waits. -/
theorem completes_loadImage {s : State} {i : Nat} {b : List Nat} (h : ringHolds s i 3 1 b) :
    Completes (.loadImage i) s (fun t => ∃ u v,
      Lands [(0x20010, ringArg b 0 8), (0x20018, ringArg b 8 8)] s u ∧ exec .clayLoad u = .next v ∧
      (s.loadIgnored → ringEnded v t i 2 b) ∧
      (s.loading = false → (s.running = false ∨ s.get .CLAY_STATUS_ARMED ≠ 1) →
        ringBegins v t i 0 [] true ∧ Frame v t [.fmp] [] [])) := by
  refine completes_of_plan rfl ?_
  rw [ringRun_holds h, ringLoad_eq, run_plans_cons, run_plans_cons, run_plans_cons, run_plans_cons, plans_nil, State.run_nil]
  have ⟨_, hdesc, _⟩ := h
  refine ⟨_, _, ⟨_, rfl, _, rfl, rfl⟩, rfl, fun hbusy => ?_, fun hl hr => ?_⟩
  · simp only [if_pos hbusy]
    refine run_ringDone ?_ 2
    rw [State.ringSt_congr ((planLoad_fmp _).trans ((writeReg_srcLen_fmp _ _).trans (writeReg_srcBase_fmp _ _)))]
    exact hdesc
  · simp only [if_neg (State.not_loadIgnored hl hr)]
    exact run_ringBegun ..

theorem shortRingCommands : Claim.ShortRingCommands := by
  intro s i before
  refine ⟨fun c op hc h => ?_, fun h => completes_nothing rfl (ringBad_idle h), fun b => ⟨fun h => ?_,
    fun op hop h => ?_, completes_waitBeat, completes_armFlip, completes_loadImage⟩⟩
  · obtain ⟨f, hf⟩ := exec_ringCommand hc
    exact completes_nothing (hf s) (ringRun_idle h f)
  · refine completes_of_plan rfl ?_
    have ⟨_, hdesc, _⟩ := h
    rw [ringRun_holds h]
    exact run_ringDone hdesc 0
  · refine completes_of_plan rfl ?_
    have ⟨_, hdesc, _⟩ := h
    rw [ringBad_holds hop h]
    exact run_ringDone hdesc 1

/-! Long commands (R456). -/

/-- A command that begins after accesses to memory: its ring is as it was but for having begun. -/
theorem Accessed.begins {s u t : State} {m : List Host.Cell} {i status : Nat} {left : List (Nat × Nat)} {wait : Bool}
    (h : Accessed s u m) (hb : ringBegins u t i status left wait) : ringBegins s t i status left wait := by
  rw [ringBegins, State.ringSt_congr h.fmp i] at hb
  exact hb

/-- Whether the beat of REG_WRITES has begun when it runs. -/
abbrev State.writesLate (s : State) (b : List Nat) : Prop := ringArg b 16 8 ≠ 0 ∧ ringArg b 16 8 ≤ s.get .BEAT_COUNT_COUNT

/-- The pairs that REG_WRITES reads, and the status with which it will complete. -/
abbrev State.writesList (s : State) (b : List Nat) : List (Nat × Nat) × Bool × List Nat :=
  s.writePairs (ringArg b 0 8) (ringArg b 8 4)

abbrev State.writesStatus (s : State) (b : List Nat) : Nat :=
  if (s.writesList b).2.1 = true then 3 else if s.writesLate b then 6 else 0

theorem ringWrites_eq {i before : Nat} {b : List Nat} {s : State} (hn : ringArg b 8 4 ≤ 4090) :
    ringWrites i before b s = plans [planEach (s.writesList b).2.2 noteUnlisted,
      if ringArg b 16 8 = 0 ∨ s.writesLate b then
        plans [ringBegun i (s.writesStatus b) ((s.writesList b).1.drop before) false,
          writeList ((s.writesList b).1.take before)]
      else ringBegun i (s.writesStatus b) (s.writesList b).1 true] s := by
  simp only [ringWrites, if_neg (Nat.not_lt.mpr hn), decide_eq_true_eq, ge_iff_le]

section RegWrites

variable {s : State} {i before : Nat} {b : List Nat} (h : ringHolds s i 3 3 b)
include h

theorem completes_regWrites_long (hn : 4090 < ringArg b 8 4) :
    Completes (.regWrites i before) s (fun t => ringBegins s t i (s.free 8) [] false ∧
      Frame s t [.fmp] [] [(.freeCount, 0)]) := by
  refine completes_of_plan rfl ?_
  rw [ringRun_holds h, ringWrites, if_pos hn]
  exact run_ringOpen s i

/-- The list is read; without a beat or after it, the first writes land at once. -/
theorem completes_regWrites_now (hn : ringArg b 8 4 ≤ 4090) (hb : ringArg b 16 8 = 0 ∨ s.writesLate b) :
    Completes (.regWrites i before) s (fun t => ∃ u,
      ringBegins s u i (s.writesStatus b) ((s.writesList b).1.drop before) false ∧
      (s.unitErr = [] → Frame s u [.fmp] [] []) ∧ Lands ((s.writesList b).1.take before) u t) := by
  refine completes_of_plan rfl ?_
  rw [ringRun_holds h, ringWrites_eq hn, if_pos hb, run_plans_cons, run_plans_cons, plans_nil, State.run_nil, run_plans_cons,
    run_plans_cons, plans_nil, State.run_nil]
  have hread := accessed_noteLines (s.writesList b).2.2 s
  obtain ⟨hbegins, hframe⟩ := run_ringBegun (s.run (planEach (s.writesList b).2.2 noteUnlisted s)) i (s.writesStatus b)
    ((s.writesList b).1.drop before) false
  exact ⟨_, hread.begins hbegins, fun hc => ((hread.frame hc).mono (by simp) (by simp) (by simp)).trans hframe,
    lands_writeList ..⟩

/-- Before its beat, every write waits. -/
theorem completes_regWrites_waits (hn : ringArg b 8 4 ≤ 4090) (hb : s.get .BEAT_COUNT_COUNT < ringArg b 16 8) :
    Completes (.regWrites i before) s (fun t => ringBegins s t i (s.writesStatus b) (s.writesList b).1 true ∧
      (s.unitErr = [] → Frame s t [.fmp] [] [])) := by
  refine completes_of_plan rfl ?_
  rw [ringRun_holds h, ringWrites_eq hn, if_neg (by omega), run_plans_cons, run_plans_cons, plans_nil, State.run_nil]
  have hread := accessed_noteLines (s.writesList b).2.2 s
  obtain ⟨hbegins, hframe⟩ := run_ringBegun (s.run (planEach (s.writesList b).2.2 noteUnlisted s)) i (s.writesStatus b)
    (s.writesList b).1 true
  exact ⟨hread.begins hbegins, fun hc => ((hread.frame hc).mono (by simp) (by simp) (by simp)).trans hframe⟩

end RegWrites

/-- In its beat, REG_WRITES lands what waited. -/
theorem completes_regWritesAtBeat {s : State} {i : Nat} {b : List Nat} (h : ringDue s i 3 b) :
    Completes (.regWritesAtBeat i) s (fun t => ∃ u, u.ringSt i = { s.ringSt i with wait := false, left := [] } ∧
      Frame s u [.fmp] [] [] ∧ Lands (s.ringSt i).left u t) := by
  refine completes_of_plan rfl ?_
  rw [ringAtBeat, ringAwaited_due h, run_plans_cons, run_plans_cons, plans_nil, State.run_nil]
  exact ⟨_, State.apply_setRing_ringSt .., Frame.apply_inFrame (u := setRing i _) (by simp [setRing, Upd.inFrame]),
    lands_writeList ..⟩

theorem completes_waitBeatDone {s : State} {i : Nat} {b : List Nat} (h : ringDue s i 4 b) :
    Completes (.waitBeatDone i) s (fun t => ringEnded s t i 0 b) := by
  refine completes_of_plan rfl ?_
  have ⟨⟨_, hdesc, _⟩, _⟩ := h
  rw [ringAwaited_due h]
  exact run_ringDone hdesc 0

/-- What has begun and waits for nothing: its last writes land, and it completes with its status. -/
theorem completes_ringCommandCompletion {s : State} {i op : Nat} {b : List Nat} (h : ringHolds s i 4 op b)
    (hw : (s.ringSt i).wait = false) :
    Completes (.ringCommandCompletion i) s (fun t => ∃ u, Lands (s.ringSt i).left s u ∧
      ∀ b', (u.ringSt i).desc = some b' → ringEnded u t i (s.ringSt i).status b') := by
  obtain ⟨hi, -, hst, -⟩ := h
  refine completes_of_plan rfl ?_
  rw [ringFinish, if_pos ⟨hi, hst, by rw [hw]; rfl⟩, run_plans_cons, run_plans_cons, plans_nil, State.run_nil]
  exact ⟨_, lands_writeList .., fun b' hb => run_ringDone hb _⟩

theorem longRingCommands : Claim.LongRingCommands := by
  intro s i
  refine ⟨fun h => completes_nothing rfl (ringAwaited_idle h _), fun h => completes_nothing rfl (ringAwaited_idle h _),
    fun h => completes_nothing rfl (if_neg ?_), fun b => ⟨fun before h => ⟨completes_regWrites_long h,
      completes_regWrites_now h, completes_regWrites_waits h⟩, completes_regWritesAtBeat, completes_waitBeatDone,
      fun op => completes_ringCommandCompletion⟩⟩
  rintro ⟨hi, hst, hw⟩
  rcases h with h | h | h
  · omega
  · exact h hst
  · simp [h] at hw

/-! Copies and fills (R456). -/

/-- A copy over lines that can be read, none of which it overwrites before it reads it. -/
theorem run_ringCopyLines_clean {s : State} (hc : s.unitErr = []) (i : Nat) {n src dst : Nat}
    (h : ∀ j k, 64 ≤ j → j < 64 * n → k < 64 * n → canonDpa (src + j) ≠ canonDpa (dst + k)) :
    let t := s.run (ringCopyLines i src dst n s)
    ringBegins s t i 0 [] false ∧ t.mem = putBytes s.mem dst (s.bytesAt src (64 * n)) ∧ Frame s t [.mem, .fmp] [] [] := by
  induction n generalizing s src dst with
  | zero =>
    obtain ⟨hbegins, hframe⟩ := run_ringBegun s i 0 [] false
    exact ⟨hbegins, hframe.parts .mem (by simp), hframe.mono (by simp) (by simp) (by simp)⟩
  | succ n ih =>
    have hfind : (linesOf src 64).find? s.lineBad = none := by
      simp [State.lineBad, lineOutcome_clean hc]
    have hp : ringCopyLines i src dst (n + 1) s = plans [writeMem dst (s.bytesAt src 64),
        ringCopyLines i (src + 64) (dst + 64) n] s := by
      simp only [ringCopyLines, hfind, plans_cons (planEach _ _), noteLines_clean hc, State.run_nil, List.nil_append]
    have hw := accessed_writeMem dst (s.bytesAt src 64) s
    have hrest : (s.run (writeMem dst (s.bytesAt src 64) s)).bytesAt (src + 64) (64 * n) = s.bytesAt (src + 64) (64 * n) :=
      State.bytesAt_congr fun j hj => State.byteAt_congr (by
        rw [hw.mem, putBytes_other]
        intro k hk
        rw [Nat.add_assoc]
        rw [State.length_bytesAt] at hk
        exact h (64 + j) k (by omega) (by omega) (by omega))
    obtain ⟨hbegins, hmem, hframe⟩ := ih (src := src + 64) (dst := dst + 64) (hw.unitErr hc) fun j k hj hjn hkn => by
      rw [Nat.add_assoc, Nat.add_assoc]
      exact h (64 + j) (64 + k) (by omega) (by omega) (by omega)
    rw [hp, run_plans_cons, run_plans_cons, plans_nil, State.run_nil]
    refine ⟨hw.begins hbegins, ?_, ((hw.clean hc).mono (by simp) (by simp) (by simp)).trans hframe⟩
    rw [hmem, hrest, hw.mem, Nat.mul_succ, Nat.add_comm (64 * n), State.bytesAt_add, putBytes_append, State.length_bytesAt]

/-- A copy whose first line cannot be read up to some byte writes what stands before it. -/
theorem run_ringCopyLines_bad {s : State} {i src dst n l : Nat} (h : (linesOf src 64).find? s.lineBad = some l) :
    let t := s.run (ringCopyLines i src dst (n + 1) s)
    ringBegins s t i 3 [] false ∧ t.mem = putBytes s.mem dst (s.bytesAt src (l - src)) := by
  have hp : ringCopyLines i src dst (n + 1) s =
      plans [noteUnlisted l, writeMem dst (s.bytesAt src (l - src)), ringBegun i 3 [] false] s := by
    simp only [ringCopyLines, h]
  have hread := accessed_noteUnlisted l s
  have hw := accessed_writeMem dst (s.bytesAt src (l - src)) (s.run (noteUnlisted l s))
  rw [hread.mem] at hw
  rw [hp, run_plans_cons, run_plans_cons, run_plans_cons, plans_nil, State.run_nil]
  obtain ⟨hbegins, hframe⟩ := run_ringBegun ((s.run (noteUnlisted l s)).run (writeMem dst (s.bytesAt src (l - src))
    (s.run (noteUnlisted l s)))) i 3 [] false
  exact ⟨(hread.trans hw).begins hbegins, (hframe.parts .mem (by simp)).trans hw.mem⟩

/-- The lines of 64 bytes begin before the bytes end. -/
theorem linesOf_lt {a l : Nat} (h : l ∈ linesOf a 64) : l - a < 64 := by
  simp only [linesOf, if_neg (show ¬(64 = 0) by decide), List.mem_map, List.mem_range] at h
  obtain ⟨j, hj, rfl⟩ := h
  omega

theorem length_fill (n v : Nat) : (List.replicate n (leBytes 8 v)).flatten.length = n * 8 := by
  simp [length_leBytes]

/-- A pattern of 8 bytes stands at every 8th place. -/
theorem getD_fill (n v : Nat) {j : Nat} (hj : j < n * 8) :
    (List.replicate n (leBytes 8 v)).flatten.getD j 0 = (leBytes 8 v).getD (j % 8) 0 := by
  induction n generalizing j with
  | zero => omega
  | succ n ih =>
    rw [List.replicate_succ, List.flatten_cons]
    by_cases h8 : j < 8
    · rw [List.getD_eq_getElem?_getD, List.getElem?_append_left (by rwa [length_leBytes]), ← List.getD_eq_getElem?_getD,
        Nat.mod_eq_of_lt h8]
    · rw [List.getD_eq_getElem?_getD, List.getElem?_append_right (by rw [length_leBytes]; omega),
        ← List.getD_eq_getElem?_getD, length_leBytes, ih (by omega), show (j - 8) % 8 = j % 8 by omega]

/-- Where a fill names a byte twice, it writes the same there: stored addresses keep their place within 8 bytes. -/
theorem coherent_fill (a n v : Nat) : Coherent a (List.replicate n (leBytes 8 v)).flatten := by
  intro j k hj hk heq
  rw [length_fill] at hj hk
  have hmod : (a + j) % 4096 = (a + k) % 4096 := by rw [← canonDpa_mod, heq, canonDpa_mod]
  rw [getD_fill n v hj, getD_fill n v hk, show j % 8 = k % 8 by omega]

section CopyAndFill

variable {s : State} {i : Nat} {b : List Nat}

/-- A copy in a memory without errors. -/
theorem completes_ringCopy_clean (h : ringHolds s i 3 5 b) (hn : ringArg b 16 8 % 64 = 0)
    (ha : inMap (ringArg b 0 8) (ringArg b 16 8) = true) (hd : inMap (ringArg b 8 8) (ringArg b 16 8) = true)
    (hc : s.unitErr = []) (hapart : ringArg b 16 8 = 64 ∨ ∀ j k, j < ringArg b 16 8 → k < ringArg b 16 8 →
      canonDpa (ringArg b 0 8 + j) ≠ canonDpa (ringArg b 8 8 + k) ∧
      (j ≠ k → canonDpa (ringArg b 8 8 + j) ≠ canonDpa (ringArg b 8 8 + k))) :
    Completes (.ringCopy i) s (fun t => ringBegins s t i 0 [] false ∧
      Wrote s t (ringArg b 8 8) (s.bytesAt (ringArg b 0 8) (ringArg b 16 8)) ∧ Frame s t [.mem, .fmp] [] []) := by
  refine completes_of_plan rfl ?_
  rw [ringRun_holds h, ringCopy, if_neg (by omega), ha, hd, if_neg (by decide)]
  have hlen : 64 * (ringArg b 16 8 / 64) = ringArg b 16 8 := by omega
  obtain ⟨hbegins, hmem, hframe⟩ := run_ringCopyLines_clean hc i (n := ringArg b 16 8 / 64) (src := ringArg b 0 8)
    (dst := ringArg b 8 8) fun j k hj hjn hkn => by
      rcases hapart with h64 | hapart
      · omega
      · exact (hapart j k (by omega) (by omega)).1
  rw [hlen] at hmem
  refine ⟨hbegins, wrote_of_putBytes hmem ?_, hframe⟩
  rcases hapart with h64 | hapart
  · exact coherent_of_short (by rw [State.length_bytesAt]; omega)
  · refine coherent_of_apart fun j k hj hk => ?_
    rw [State.length_bytesAt] at hj hk
    exact (hapart j k hj hk).2

/-- A copy that cannot read its first bytes. -/
theorem completes_ringCopy_bad (h : ringHolds s i 3 5 b) (hn : ringArg b 16 8 % 64 = 0)
    (ha : inMap (ringArg b 0 8) (ringArg b 16 8) = true) (hd : inMap (ringArg b 8 8) (ringArg b 16 8) = true) {l : Nat}
    (hl : (linesOf (ringArg b 0 8) 64).find? s.lineBad = some l) (hpos : 0 < ringArg b 16 8) :
    Completes (.ringCopy i) s (fun t => ringBegins s t i 3 [] false ∧
      Wrote s t (ringArg b 8 8) (s.bytesAt (ringArg b 0 8) (l - ringArg b 0 8))) := by
  refine completes_of_plan rfl ?_
  rw [ringRun_holds h, ringCopy, if_neg (by omega), ha, hd, if_neg (by decide),
    show ringArg b 16 8 / 64 = ringArg b 16 8 / 64 - 1 + 1 by omega]
  obtain ⟨hbegins, hmem⟩ := run_ringCopyLines_bad (i := i) (dst := ringArg b 8 8) (n := ringArg b 16 8 / 64 - 1) hl
  have hlt := linesOf_lt (List.mem_of_find?_eq_some hl)
  exact ⟨hbegins, wrote_of_putBytes hmem (coherent_of_short (by rw [State.length_bytesAt]; omega))⟩

/-- A fill within the map. -/
theorem completes_ringFill (h : ringHolds s i 3 6 b) (hn : ringArg b 8 8 % 64 = 0)
    (hd : inMap (ringArg b 0 8) (ringArg b 8 8) = true) :
    Completes (.ringFill i) s (fun t => ringBegins s t i 0 [] false ∧
      Wrote s t (ringArg b 0 8) (List.replicate (ringArg b 8 8 / 8) (leBytes 8 (ringArg b 16 8))).flatten ∧
      (s.unitErr = [] → Frame s t [.mem, .fmp] [] [])) := by
  refine completes_of_plan rfl ?_
  rw [ringRun_holds h, ringFill, if_neg (by omega), hd, if_neg (by decide), run_plans_cons, run_plans_cons, plans_nil,
    State.run_nil]
  have hw := accessed_writeMem (ringArg b 0 8) (List.replicate (ringArg b 8 8 / 8) (leBytes 8 (ringArg b 16 8))).flatten s
  obtain ⟨hbegins, hframe⟩ := run_ringBegun (s.run (writeMem (ringArg b 0 8)
    (List.replicate (ringArg b 8 8 / 8) (leBytes 8 (ringArg b 16 8))).flatten s)) i 0 [] false
  exact ⟨hw.begins hbegins, wrote_of_putBytes ((hframe.parts .mem (by simp)).trans hw.mem) (coherent_fill _ _ _),
    fun hc => ((hw.clean hc).mono (by simp) (by simp) (by simp)).trans (hframe.mono (by simp) (by simp) (by simp))⟩

/-- A length that is no multiple of 64 B leaves the status open. -/
theorem completes_ringOpen {c : Instr} {op : Nat} {f : List Nat → Plan} (hx : exec c s = answer (ringRun i op f) s)
    (h : ringHolds s i 3 op b) (hf : f b = ringOpen i) :
    Completes c s (fun t => ringBegins s t i (s.free 8) [] false ∧ Frame s t [.fmp] [] [(.freeCount, 0)]) := by
  refine completes_of_plan hx ?_
  rw [ringRun_holds h, hf]
  exact run_ringOpen s i

/-- A command that can do nothing begins with the status that it will complete with. -/
theorem completes_ringBegun {c : Instr} {op status : Nat} {f : List Nat → Plan} (hx : exec c s = answer (ringRun i op f) s)
    (h : ringHolds s i 3 op b) (hf : f b = ringBegun i status [] false) :
    Completes c s (fun t => ringBegins s t i status [] false ∧ Frame s t [.fmp] [] []) := by
  refine completes_of_plan hx ?_
  rw [ringRun_holds h, hf]
  exact run_ringBegun ..

end CopyAndFill

theorem ringCopiesAndFills : Claim.RingCopiesAndFills := by
  intro s i b
  refine ⟨fun h => ⟨fun hn => completes_ringOpen rfl h (if_pos hn), fun hn hmap => ?_, fun hn ha hd =>
      ⟨completes_ringCopy_clean h hn ha hd, fun l => completes_ringCopy_bad h hn ha hd⟩⟩,
    fun h => ⟨fun hn => completes_ringOpen rfl h (if_pos hn), fun hn hmap => ?_, completes_ringFill h⟩⟩
  · refine completes_ringBegun rfl h ?_
    rw [ringCopy, if_neg (by omega), if_pos (by rwa [Bool.not_eq_true', ← Bool.not_eq_true, Bool.and_eq_true])]
  · refine completes_ringBegun rfl h ?_
    rw [ringFill, if_neg (by omega), hmap]
    rfl

/-- Settles O60: a command runs its plan where the ring holds it; each plan is its effect on registers or memory, then a
completion that writes the entry and goes on, or a ring that has begun. -/
theorem ringCommands : Obligations.RingCommands := ⟨shortRingCommands, longRingCommands, ringCopiesAndFills⟩

end Sys2Proof.Machine
